-- ==== Sys2Proof/Word.lean ====
section
/-! DEFINITION. The word types of the ZLV-H12 model: bytes, register words and tables of numbered units. -/
namespace Sys2Proof

/-- One byte. -/
abbrev Byte := BitVec 8
/-- A byte string, lowest address first (R11: every multi-byte field is little-endian). -/
abbrev Bytes := List Byte
/-- A 16-bit word. -/
abbrev W16 := BitVec 16
/-- A 32-bit word. -/
abbrev W32 := BitVec 32
/-- A 64-bit word. -/
abbrev W64 := BitVec 64

/-- A table of numbered things, keyed by the number the spec gives the unit (R19).
A number that is not listed holds the table's reset value. Keys rise strictly. -/
abbrev Tbl (α : Type) := List (Nat × α)

end Sys2Proof
end

