-- ==== Sys2Proof/Syntax.lean ====
section
/-! DEFINITION. The commands and events of the ZLV-H12: one constructor per row of the opcode table, with its operands. -/
namespace Sys2Proof

/-- The three execution units of a matrix array (R45). -/
inductive ArrUnit where
  | load | sow | drain
  deriving DecidableEq, Repr

/-- Who makes a memory access: the unit identifier of the reader (R175), the ASID of the context it works for
(R144), its bandwidth class (R149: 0–3 a partition, 4 the fabric domain) and, for a transfer engine, the number of the
descriptor. -/
structure Issuer where
  unit : W32
  asid : Nat
  cls : Nat
  slot : Nat := 0
  deriving DecidableEq, Repr

/-- R251: the header fields of a bulk packet that the model uses, with its data and byte enables. -/
structure Packet where
  typ : BitVec 4 := 0
  src : BitVec 16 := 0
  srcPort : BitVec 2 := 0
  tag : BitVec 12 := 0
  cls : BitVec 3 := 0
  hint : BitVec 2 := 0
  poison : Bool := false
  code : BitVec 8 := 0
  group : BitVec 12 := 0
  addr : W64 := 0
  device : BitVec 8 := 0
  window : BitVec 8 := 0
  data : Bytes := []
  mask : Nat := 0
  deriving DecidableEq, Repr

/-- R464, R466: a firmware image: its security version, whether its manifest's signature verifies, the kind of the
first part whose digest does not match (0 RTP, 1 sorting office, 2 core, 3 guest site), the digests of its parts: 0 RTP, 1 sorting
office, 2 core boot block, 3 core firmware, 16 + n guest site n, and the digest of the image. -/
structure FwImage where
  sv : Nat := 0
  version : BitVec 96 := 0
  sigOk : Bool := true
  badPart : Option Nat := none
  digests : List (Nat × Bytes) := []
  digest : Bytes := []
  deriving DecidableEq, Repr

/-- R261: what the parity of a packet's links told: good, a data error, or a control error with SRC readable or not. -/
inductive Parity where
  | good | data | ctl | ctlSrc
  deriving DecidableEq, Repr

/-- A transfer engine: the DMA of cluster c, or hub DMA engine e (R19, R120). -/
inductive EngRef where
  | cdma (c : Nat) | hdma (e : Nat)
  deriving DecidableEq, Repr

/-- Where a letter comes from: slot of the letterbox of function f of port p, or slot k of the management path (R322, R340). -/
inductive LSrc where
  | host (p f slot : Nat) | mgmt (k : Nat)
  deriving DecidableEq, Repr

/-- R338: what resets a host port. -/
inductive PortCause where
  | perst | hot | linkDown | flr | vfClear
  deriving DecidableEq, Repr

/-- R13: where a register write is addressed: a device physical address of the hub space, or the status block of a host
function. -/
inductive RegAt where
  | hub (phys size : Nat) | bar (p f off size : Nat)
  deriving DecidableEq, Repr

/-- R482: what causes a whole reset: MOD_RESET_N, PWR_EN low and high again, FW_ACTIVATE, or a PLL out of lock. -/
inductive ResetCause where
  | modReset | pwrCycle | fwActivate | pll
  deriving DecidableEq, Repr

/-- R475: the reset scopes below whole that firmware starts. -/
inductive ScopeRef where
  | core (g : Nat) | cluster (c : Nat) | eng (e : EngRef) | sieve (u : Nat) | winnow (f : Nat) | partition (p : Nat)
  deriving DecidableEq, Repr

/-- The commands and events of the block. -/
inductive Instr where
  -- matrix arrays: chapters 02 and 03
  | inLoad (g a : Nat)
  | inLoadT (g a : Nat)
  | sow (g a : Nat)
  | sowSparse (g a : Nat)
  | zmapClear (g a : Nat)
  | zmapRead (g a : Nat)
  | zmapWrite (g a : Nat)
  | accClear (g a : Nat)
  | accDrain (g a : Nat)
  | passSet (g a : Nat)
  | arrayCommandIssue (g a : Nat)
  | arrayCommandComplete (g a : Nat) (u : ArrUnit)
  | gangPresentTimeout (g a : Nat)
  | sowHopperBlockReady (g a waited : Nat)
  | arrayStatusWrite (g a : Nat) (value : W32)
  -- winnow routers: chapter 03; page sieve: chapter 07
  | roundOpen (f : Nat) (writer : Option Nat) (record : Bytes)
  | gateRecord (f : Nat) (writer : Option Nat) (slot : Nat) (record : Bytes)
  | winnowTakeToken (f : Nat)
  | tokenLetter (f : Nat)
  | roundClose (f : Nat) (writer : Option Nat) (record : Bytes)
  | roundCloseFinish (f round : Nat)
  | winnowCtxWrite (f : Nat) (value : W64)
  | sieveSelect (v : Nat) (writer : Option Nat) (slot : Nat) (record : Bytes)
  | sieveSeal (v : Nat) (writer : Option Nat) (slot : Nat) (record : Bytes)
  | sieveRequestStart (v : Nat)
  | sieveResultWrite (v i : Nat)
  | sieveCtxWrite (v : Nat) (value : W64)
  -- vector unit: chapter 04
  | vadd (g : Nat)
  | vsub (g : Nat)
  | vmul (g : Nat)
  | vfma (g : Nat)
  | vmax (g : Nat)
  | vmin (g : Nat)
  | vcvt (g : Nat)
  | vexp (g : Nat)
  | vlog (g : Nat)
  | vrcp (g : Nat)
  | vrsqrt (g : Nat)
  | vtanh (g : Nat)
  | vsigmoid (g : Nat)
  | vgelu (g : Nat)
  | vsilu (g : Nat)
  | vsum (g : Nat)
  | vrmax (g : Nat)
  | vscalar (g : Nat)
  | vmxq (g : Nat)
  | vectorCommandComplete (g : Nat)
  | vecStatusWrite (g : Nat) (value : W32)
  -- cores and clusters: chapters 04, 08 and 10 (barriers)
  | aqPush (g : Nat) (mask : BitVec 7) (word : BitVec 128) (rd : Nat)
  | aqPushPlaced (g : Nat)
  | aqTry (g : Nat) (mask : BitVec 7) (word : BitVec 128) (rd : Nat)
  | aqPoll (g rd : Nat)
  | aqWait (g limit rd : Nat)
  | aqWaitWake (g : Nat)
  | completionWaitRelease (g : Nat)
  | cpInterrupt (g cause : Nat)
  | cpInstruction (g : Nat)
  | cpApertureAccess (g x size : Nat) (store : Bool) (value : W64) (amo : Nat)
  | hopperCtlWrite (g : Nat) (value : W64)
  | hopperCtlApply (g : Nat)
  | hopperSetWrite (g i : Nat) (value : W64)
  | hopperClrWrite (g i : Nat) (value : W64)
  | hopperIngressRelease (g : Nat)
  | coreScrub (g : Nat)
  | coreScrubDone (g : Nat)
  | cdmaSubmit (g : Nat) (value : W64)
  | descriptorStart (e : EngRef)
  | copy (e : EngRef) (i : Nat)
  | fill (e : EngRef) (i : Nat)
  | circular (e : EngRef) (i : Nat)
  | add (e : EngRef) (i : Nat)
  | descriptorComplete (e : EngRef) (i : Nat)
  | ccWritebackInvalidateAsid (c asid : Nat)
  | ccInvalidateAsid (c asid : Nat)
  | ccInvalidateAll (c : Nat)
  | ccOpDone (c : Nat)
  | flush (g scope : Nat)
  | flushInv (g scope : Nat)
  | acquire (g scope : Nat)
  | release (g scope : Nat)
  | barrierCsrWrite (g id : Nat)
  | barrierWaitRead (g rd : Nat)
  | barrierWaitWake (g : Nat)
  -- memory: chapters 05 and 06
  | fillDone (k : Nat)
  | memopAdd (iss : Issuer) (addr fmt val : Nat)
  | fetchAdd (iss : Issuer) (addr : Nat) (wide : Bool) (val : Nat)
  | swap (iss : Issuer) (addr : Nat) (wide : Bool) (val : Nat)
  | memopAnd (iss : Issuer) (addr : Nat) (wide : Bool) (val : Nat)
  | memopOr (iss : Issuer) (addr : Nat) (wide : Bool) (val : Nat)
  | memopXor (iss : Issuer) (addr : Nat) (wide : Bool) (val : Nat)
  | memopMin (iss : Issuer) (addr : Nat) (wide : Bool) (val : Nat)
  | memopMax (iss : Issuer) (addr : Nat) (wide : Bool) (val : Nat)
  | memopMinu (iss : Issuer) (addr : Nat) (wide : Bool) (val : Nat)
  | memopMaxu (iss : Issuer) (addr : Nat) (wide : Bool) (val : Nat)
  | lr (g : Nat) (iss : Issuer) (addr : Nat) (wide : Bool)
  | sc (g : Nat) (iss : Issuer) (addr : Nat) (wide : Bool) (val : Nat)
  | writeBatchIssue (k pc : Nat)
  | bucketTick (k : Nat)
  | granWritebackInvalidateAsid (k asid : Nat)
  | granInvalidateAsid (k asid : Nat)
  | granClearProtectionAsid (k asid : Nat)
  | granWritebackAll (k : Nat)
  | granInvalidateAll (k : Nat)
  | granWritebackInvalidatePart (k part : Nat)
  | granOpDone (k : Nat)
  | granQuotaWrite (k : Nat) (value : W64)
  | remapInstall (k index sector : Nat) (spareRow : Option Nat)
  | remapRemove (k index : Nat)
  | remapOpDone (k : Nat)
  | gleanerRead (k : Nat)
  | gleanOverdue (k : Nat)
  | channelRetrain (k channel : Nat)
  | channelRetrainDone (k channel : Nat) (ok : Bool)
  -- address translation: chapter 09
  | pageWalkComplete (d : Nat) (client : W32) (asid va acc ns : Nat)
  | faultMessage
  | faultBatchClose
  | translateReplay (d asid page : Nat)
  | translateCancel (d asid page : Nat)
  | translateInvalidate (d asid va len : Nat)
  | translateAck (d : Nat) (client : W32)
  | accessCounterDecay (p : Nat)
  | packetRead (i : Nat) (p : Packet) (loc : Bool) (par : Parity) (d r : Nat)
  | packetWrite (i : Nat) (p : Packet) (loc : Bool) (par : Parity) (d r : Nat)
  | packetMemop (i : Nat) (p : Packet) (fmt : Nat) (par : Parity) (d r : Nat)
  | packetMarkWrite (i : Nat) (p : Packet) (par : Parity) (d r : Nat)
  | packetCircWrite (d r : Nat) (p : Packet) (par : Parity)
  | packetData (i : Nat)
  | packetAck (i : Nat)
  | packetCircAck (d r output : Nat) (p : Packet)
  | circularHeld (g : Nat)
  | requestTimeout (i : Nat) (tag : BitVec 12)
  | postInterrupt (hdr payload : W64)
  | postControl (hdr : W64) (payload : List W64)
  | broadcastStart (bytes : Nat)
  | broadcastCount (count : Nat)
  | broadcastEnd
  -- chiplet sites and bridges: chapter 11
  | capabilityBlockRead (n : Nat) (block : Bytes)
  | tBootTimeout (n : Nat)
  | grantOk (n : Nat)
  | grantOkTimeout (n : Nat)
  | siteTrainingDone (n : Nat) (wires : Tbl (List Nat))
  | siteLinkUp (n : Nat)
  | fwLoaded (n : Nat)
  | guestDigestReport (n : Nat) (digest : Bytes)
  | guestDigestTimeout (n : Nat)
  | siteFrame (n b : Nat) (seq : BitVec 12) (good : Bool) (ack : BitVec 12) (ackGood : Bool)
  | bundleRetrainDone (n b : Nat) (wires : List (List Nat))
  | bridgeFrame (br m : Nat) (seq : BitVec 12) (good : Bool) (ack : BitVec 12) (ackGood : Bool)
  | siteIngress (n a vc fmt : Nat) (p : Packet) (loc : Bool) (par : Parity) (d r : Nat)
  | guestPostMessage (n : Nat) (hdr : W64) (payload : List W64)
  | siteResetReq (n : Nat) (again : Bool)
  | quiesced (n : Nat)
  | sitePowerCheck (n watts : Nat)
  | guestGrantRequest (n watts : Nat)
  | siteRequestTimeout (n a : Nat) (tag : BitVec 12)
  | siteCreditTimeout (n : Nat)
  | siteCtlReset (n : Nat)
  | sitePowerGrantWrite (n value : Nat)
  | guestSiteReturnTimeout (n : Nat)
  -- scale-up links: chapter 12
  | signalDetect (l : Nat)
  | hello (l device port group : Nat) (mine theirs : BitVec 8) (inc : W32)
  | portRetry (l : Nat)
  | linkFlit (l : Nat) (flit : Bytes) (bad : Bool)
  | linkLoss (l : Nat)
  | retrainTimeout (l : Nat)
  | portDownReceived (l : Nat)
  | farewellReceived (l : Nat)
  | expressPost (l : Nat)
  | remoteRead (l : Nat)
  | remoteWrite (l : Nat)
  | remoteMemop (l : Nat)
  | remoteCircWrite (l : Nat)
  | remoteData (l : Nat)
  | remoteAck (l : Nat)
  | remoteCircAck (l : Nat)
  | credit (l : Nat)
  -- bulk and post networks: chapter 10
  | barrierArrive (d r port id : Nat)
  | barrierDepart (d r id : Nat)
  -- host interface: chapter 13
  | letterboxWrite (p f off : Nat) (data : Bytes)
  | trayStampRead (p f : Nat) (zero : List Bool)
  | trayFullReread (p f : Nat) (zero : List Bool)
  | msixModerationExpire (p f : Nat)
  | portReset (p : Nat) (cause : PortCause)
  | vfFlr (p f : Nat)
  | mctpLetter (letter : Bytes)
  | perstRelease (p : Nat)
  | pcieLinkUp (p rate width : Nat) (flit : Bool)
  | registerWrite (r : RegAt) (value : W64)
  | meterEvent
  -- letters: chapter 14
  | identify (src : LSrc)
  | capsGet (src : LSrc)
  | logRead (src : LSrc)
  | nvRecordRead (src : LSrc)
  | traySet (src : LSrc)
  | partitionSet (src : LSrc)
  | contextCreate (src : LSrc)
  | contextDestroy (src : LSrc)
  | contextSchedule (src : LSrc)
  | partitionReset (src : LSrc)
  | modelLoad (src : LSrc)
  | modelLoadComplete (model : Nat) (envelope : Bytes)
  | modelUnload (src : LSrc)
  | sessionOpen (src : LSrc)
  | signatureComplete
  | sessionKey (src : LSrc)
  | sessionKeyTimeout (session : Nat)
  | sessionClose (src : LSrc)
  | requestSubmit (src : LSrc)
  | promptUnseal (req : Nat) (record : Bytes)
  | requestCancel (src : LSrc)
  | bounceSetAdd (src : LSrc)
  | bounceSetWithdraw (src : LSrc)
  | memFill (src : LSrc)
  | mapRange (src : LSrc)
  | unmapRange (src : LSrc)
  | faultBagSet (src : LSrc)
  | windowSet (src : LSrc)
  | migrateHints (src : LSrc)
  | spreadSet (src : LSrc)
  | contractSet (src : LSrc)
  | histogramRead (src : LSrc)
  | receiptGet (src : LSrc)
  | statsRead (src : LSrc)
  | capacityStatement (src : LSrc)
  | attestGet (src : LSrc)
  | debugUnlock (src : LSrc) (token : Bytes)
  | certChainGet (src : LSrc)
  | fwStage (src : LSrc)
  | fwStageComplete (img : FwImage)
  | fwActivate (src : LSrc)
  | settingsSave (src : LSrc)
  | bistRun (src : LSrc)
  | bistRunComplete (sigs : Tbl Nat) (fails : Tbl (Nat × Nat)) (cols : List (Nat × Nat))
  | bistResult (src : LSrc)
  | flipMaskSet (src : LSrc)
  | powerCapSet (src : LSrc)
  | thermalRead (src : LSrc)
  | calUserSet (src : LSrc)
  | calUserSave (src : LSrc)
  | marginReport (src : LSrc)
  | bandwidthModeSet (src : LSrc)
  | linkStatus (src : LSrc)
  | linkRetrain (src : LSrc)
  | siteStatus (src : LSrc)
  -- serving: chapter 15
  | stepStart (p : Nat)
  | stepEnd (p : Nat) (logits : List (Nat × List W32))
  | contextSwitch (p ctx : Nat)
  | stepTimeout (p : Nat)
  | contractEvaluation
  -- security: chapter 16
  | drbgReseed
  | entropyHealthFail
  | entropyRestartTimeout
  | entropyTestsPass
  -- power, temperature and wear: chapters 05 and 17
  | housekeepingRound (rd : List (Nat × Option Int))
  | refreshStepApply (k : Nat)
  | comparatorSample (codes : Tbl Nat)
  | localPowerControl (n power : Nat)
  | vcompReached (n : Nat)
  | wearMeasureDone (slow : Tbl Int)
  | pohTick
  | powerReport (d : Nat) (flit : W64)
  | powerTemps (d first count : Nat) (payload : List W64)
  | powerBudget (n : Nat) (flit : W64)
  -- power, start, reset, faults: chapters 06, 17, 18, 19, 20
  | stackLost (k : Nat)
  | powerOnStart
  | bridgeTrained (off : List (BitVec 16))
  | hotStartRecheck (rd : List (Nat × Option Int))
  | stackTrainingDone (k : Nat) (ok : Bool)
  | readyAssert
  | wholeReset (cause : ResetCause)
  | powerDown
  | powerFail (lowest us : Nat) (complete : Bool)
  | thermtripClear
  | pllLockLost (unit : W32) (kind : Nat)
  | pllRelockHoldEnd
  | thermalRailsOff (complete : Bool)
  | inrushComplete
  | undervoltageLockout
  | modResetNRelease
  | logMessage
  | settingsWrite
  | faultBatchService
  | invalidationTimeout (d : Nat) (client : W32)
  | partitionFault (p : Nat)
  | drainEnd (scope : ScopeRef)
  | tagRetireExpire (i : Nat) (tag : BitVec 12)
  | partitionResetEnd (p : Nat)
  | unitReset (scope : ScopeRef)
  deriving DecidableEq, Repr

end Sys2Proof
end

