-- ==== Sys2Proof/Machine/Bits.lean ====
section
/-! DEFINITION. Bit fields, byte strings and numbered tables: the helpers every family's definitions use. -/
namespace Sys2Proof.Machine

/-! ## Bit fields -/

/-- Bits `[hi:lo]` of a number. -/
def nf (n hi lo : Nat) : Nat := (n >>> lo) % 2 ^ (hi + 1 - lo)

/-- Bits `[hi:lo]` of a register word. -/
def bf {w : Nat} (r : BitVec w) (hi lo : Nat) : Nat := nf r.toNat hi lo

/-- Bit `i` of a number. -/
def nbit (n i : Nat) : Bool := n.testBit i

/-- A number whose fields are given as (low bit, value); a value must fit its field. -/
def packN : List (Nat × Nat) → Nat
  | [] => 0
  | (lo, v) :: rest => (v <<< lo) ||| packN rest

/-- A register word of `w` bits whose fields are given as (low bit, value). -/
def pack (w : Nat) (l : List (Nat × Nat)) : BitVec w := BitVec.ofNat w (packN l)

/-- A Bool as a one-bit field. -/
def b2n (b : Bool) : Nat := if b then 1 else 0

/-- `n` with bits `[hi:lo]` replaced by `v`. -/
def setNf (n hi lo v : Nat) : Nat :=
  let m := 2 ^ (hi + 1 - lo)
  n - (nf n hi lo) <<< lo + (v % m) <<< lo

/-- A register word with bits `[hi:lo]` replaced by `v`. -/
def setBf {w : Nat} (r : BitVec w) (hi lo v : Nat) : BitVec w := BitVec.ofNat w (setNf r.toNat hi lo v)

/-- Add to a counter that saturates at its width (R175's gleaner counts, R91, R125, R202). -/
def satAdd {w : Nat} (r : BitVec w) (n : Nat) : BitVec w :=
  if r.toNat + n < 2 ^ w then BitVec.ofNat w (r.toNat + n) else BitVec.allOnes w

/-- Two's-complement value of the low `w` bits. -/
def sx (w n : Nat) : Int :=
  let m := n % 2 ^ w
  if 2 * m < 2 ^ w then (m : Int) else (m : Int) - (2 ^ w : Nat)

/-- The low `w` bits of an integer, as a number. -/
def wrapI (w : Nat) (i : Int) : Nat := (i % ((2 ^ w : Nat) : Int)).toNat

/-- Smallest multiple of `m` at or above `n`. -/
def roundUp (n m : Nat) : Nat := (n + m - 1) / m * m

/-! ## Byte strings -/

/-- `n` bytes of a number, little-endian (R11). -/
def le : Nat → Nat → Bytes
  | 0, _ => []
  | n + 1, v => BitVec.ofNat 8 v :: le n (v / 256)

/-- The number a little-endian byte string spells. -/
def unle : Bytes → Nat
  | [] => 0
  | b :: bs => b.toNat + 256 * unle bs

/-- `n` bytes from offset `off`; bytes beyond the end read as zero. -/
def slice (bs : Bytes) (off n : Nat) : Bytes :=
  let t := (bs.drop off).take n
  t ++ List.replicate (n - t.length) 0

/-- The little-endian field of `n` bytes at offset `off`. -/
def rd (bs : Bytes) (off n : Nat) : Nat := unle ((bs.drop off).take n)

/-- One byte at an offset, as a number. -/
def rdb (bs : Bytes) (off : Nat) : Nat := (bs.getD off 0).toNat

/-- Replace the bytes from offset `off` on; the string keeps its length. -/
def putBytes (bs : Bytes) (off : Nat) (new : Bytes) : Bytes :=
  (bs.take off ++ new ++ bs.drop (off + new.length)).take bs.length

/-- A record of `n` bytes, zero but for its fields (offset, size, value), each little-endian. -/
def recOf (n : Nat) (fields : List (Nat × Nat × Nat)) : Bytes :=
  fields.foldl (fun b f => putBytes b f.1 (le f.2.1 f.2.2)) (List.replicate n 0)

/-- Merge bytes under a byte mask: bit i of `mask` set takes byte i of `new`. -/
def mergeMask : Bytes → Bytes → Nat → Bytes
  | [], _, _ => []
  | o :: os, [], m => o :: mergeMask os [] (m / 2)
  | o :: os, n :: ns, m => (if m % 2 = 1 then n else o) :: mergeMask os ns (m / 2)

/-- A zero byte string. -/
def zeros (n : Nat) : Bytes := List.replicate n 0

/-- Bits of a byte string, bit 8i + b being bit b of byte i, flipped where `mask` has a one. -/
def flipBytes : Bytes → Nat → Bytes
  | [], _ => []
  | b :: bs, m => (b ^^^ BitVec.ofNat 8 m) :: flipBytes bs (m / 256)

/-! ## Tables of numbered things -/

/-- The entry of number `k`; `d` where none is listed. -/
def tget {α : Type} (d : α) : Tbl α → Nat → α
  | [], _ => d
  | (j, a) :: t, k => if j = k then a else tget d t k

/-- Set the entry of number `k`, keeping the keys rising. -/
def tset {α : Type} : Tbl α → Nat → α → Tbl α
  | [], k, v => [(k, v)]
  | (j, a) :: t, k, v =>
    if j = k then (k, v) :: t
    else if k < j then (k, v) :: (j, a) :: t
    else (j, a) :: tset t k v

/-- Remove the entry of number `k`. -/
def tdel {α : Type} (t : Tbl α) (k : Nat) : Tbl α := t.filter (fun e => e.1 != k)

/-- The listed entry of number `k`, if any. -/
def tfind {α : Type} (t : Tbl α) (k : Nat) : Option α := (t.find? (fun e => e.1 == k)).map (·.2)

/-- Insert a number into an ascending list without repeats. -/
def sins (k : Nat) : List Nat → List Nat
  | [] => [k]
  | j :: t => if k < j then k :: j :: t else if k = j then j :: t else j :: sins k t

/-- Remove a number from an ascending list. -/
def srem (k : Nat) (l : List Nat) : List Nat := l.filter (· != k)

/-- Replace or drop the first element that satisfies `p`. -/
def updFirst {α : Type} (p : α → Bool) (f : α → α) : List α → List α
  | [] => []
  | a :: t => if p a then f a :: t else a :: updFirst p f t

/-- Drop the first element that satisfies `p`. -/
def delFirst {α : Type} (p : α → Bool) : List α → List α
  | [] => []
  | a :: t => if p a then t else a :: delFirst p t

/-! ## Byte memory: address and byte pairs in canonical form -/

/-- One byte; an address that is not listed reads as zero. -/
def mget : List (Nat × Byte) → Nat → Byte
  | [], _ => 0
  | (j, b) :: t, a => if j = a then b else mget t a

/-- Write one byte, keeping addresses rising and listing no zero byte. -/
def mput : List (Nat × Byte) → Nat → Byte → List (Nat × Byte)
  | [], a, v => if v = 0 then [] else [(a, v)]
  | (j, b) :: t, a, v =>
    if j = a then (if v = 0 then t.filter (fun e => e.1 != a) else (a, v) :: t)
    else if a < j then (if v = 0 then (j, b) :: t.filter (fun e => e.1 != a) else (a, v) :: (j, b) :: t)
    else (j, b) :: mput t a v

/-- `n` bytes from address `a`. -/
def mread (m : List (Nat × Byte)) : Nat → Nat → Bytes
  | _, 0 => []
  | a, n + 1 => mget m a :: mread m (a + 1) n

/-- Write a byte string from address `a`. -/
def mwrite (m : List (Nat × Byte)) : Nat → Bytes → List (Nat × Byte)
  | _, [] => m
  | a, b :: bs => mwrite (mput m a b) (a + 1) bs

/-- The canonical form of a byte memory: addresses strictly rising from `lo`, no zero byte listed. -/
def mwfFrom : Nat → List (Nat × Byte) → Bool
  | _, [] => true
  | lo, (j, b) :: t => decide (lo ≤ j) && decide (b ≠ 0) && mwfFrom (j + 1) t

/-- The canonical form of a byte memory. -/
def Memory.wf (m : List (Nat × Byte)) : Bool := mwfFrom 0 m

end Sys2Proof.Machine
end

