-- ==== Sys2Proof/Machine/Float.lean ====
section
/-! DEFINITION. Exact binary floating-point values and their rounding: what the adders (R158), the arrays (R33–R35)
and the vector units (R105–R107) compute with. -/
namespace Sys2Proof.Machine

/-- An exact value: (−1)^neg × m × 2^e, an infinity or NaN. -/
inductive Fl where
  | nan
  | inf (neg : Bool)
  | fin (neg : Bool) (m : Nat) (e : Int)
  deriving DecidableEq, Repr

/-- Number of bits of a number: 0 for 0. -/
def bitLen (n : Nat) : Nat := if n = 0 then 0 else n.log2 + 1

/-- n ÷ 2^k rounded to nearest, ties to even. -/
def rneShift (n k : Nat) : Nat :=
  let q := n >>> k
  let r := n - q <<< k
  if 2 * r > 2 ^ k ∨ (2 * r = 2 ^ k ∧ q % 2 = 1) then q + 1 else q

/-- m × 2^e as a multiple of 2^f, exact when f ≤ e, rounded to nearest even otherwise. -/
def scaleTo (m : Nat) (e f : Int) : Nat :=
  if f ≤ e then m <<< (e - f).toNat else rneShift m (f - e).toNat

/-- Value of an IEEE-layout word with `eb` exponent and `mb` fraction bits. -/
def flOf (eb mb w : Nat) : Fl :=
  let neg := nbit w (eb + mb)
  let ex := nf w (eb + mb - 1) mb
  let fr := w % 2 ^ mb
  let bias : Int := 2 ^ (eb - 1) - 1
  if ex = 2 ^ eb - 1 then (if fr = 0 then .inf neg else .nan)
  else if ex = 0 then .fin neg fr (1 - bias - mb)
  else .fin neg (2 ^ mb + fr) ((ex : Int) - bias - mb)

/-- A finite value as a pair (q, biased exponent) rounded to nearest even in a format of `mb` fraction bits: the
encoding 2^mb × exponent + fraction without its sign, or the first encoding past the largest finite one. -/
def rndMag (eb mb : Nat) (m : Nat) (e : Int) : Nat :=
  if m = 0 then 0
  else
    let bias : Int := 2 ^ (eb - 1) - 1
    let emin : Int := 1 - bias - mb
    let top : Int := (bitLen m : Int) + e - 1 - mb
    let f := if top < emin then emin else top
    let q := scaleTo m e f
    -- q may have rounded up to 2^(mb+1): the carry then moves into the exponent by addition
    q + ((f - emin).toNat) * 2 ^ mb

/-- Word of an IEEE-layout format: rounded to nearest even, overflow to infinity, NaN as the quiet NaN with sign 0. -/
def flTo (eb mb : Nat) : Fl → Nat
  | .nan => (2 ^ eb - 1) * 2 ^ mb + 2 ^ (mb - 1)
  | .inf neg => b2n neg * 2 ^ (eb + mb) + (2 ^ eb - 1) * 2 ^ mb
  | .fin neg m e => b2n neg * 2 ^ (eb + mb) + min (rndMag eb mb m e) ((2 ^ eb - 1) * 2 ^ mb)

/-- Negation. -/
def Fl.neg : Fl → Fl
  | .nan => .nan
  | .inf n => .inf (!n)
  | .fin n m e => .fin (!n) m e

/-- The value as a signed multiple of 2^f, for f at most its exponent. -/
def finInt (neg : Bool) (m : Nat) (e f : Int) : Int :=
  let v : Int := (m <<< (e - f).toNat : Nat)
  if neg then -v else v

/-- Exact sum; a zero sum of operands of unlike sign is +0 (IEEE 754-2019, round to nearest). -/
def Fl.add : Fl → Fl → Fl
  | .nan, _ => .nan
  | _, .nan => .nan
  | .inf a, .inf b => if a = b then .inf a else .nan
  | .inf a, _ => .inf a
  | _, .inf b => .inf b
  | .fin a m e, .fin b n f =>
    let g := min e f
    let s := finInt a m e g + finInt b n f g
    if s = 0 then .fin (a && b) 0 g else .fin (decide (s < 0)) s.natAbs g

/-- Exact product. -/
def Fl.mul : Fl → Fl → Fl
  | .nan, _ => .nan
  | _, .nan => .nan
  | .inf a, .inf b => .inf (a != b)
  | .inf a, .fin b m _ => if m = 0 then .nan else .inf (a != b)
  | .fin a m _, .inf b => if m = 0 then .nan else .inf (a != b)
  | .fin a m e, .fin b n f => .fin (a != b) (m * n) (e + f)

/-- Numeric comparison of finite and infinite values: −1, 0 or 1; none with a NaN. -/
def Fl.cmp : Fl → Fl → Option Int
  | .nan, _ => none
  | _, .nan => none
  | .inf a, .inf b => some (if a = b then 0 else if a then -1 else 1)
  | .inf a, _ => some (if a then -1 else 1)
  | _, .inf b => some (if b then 1 else -1)
  | .fin a m e, .fin b n f =>
    let g := min e f
    let x := finInt a m e g
    let y := finInt b n f g
    some (if x < y then -1 else if y < x then 1 else 0)

/-- Is a value NaN. -/
def Fl.isNan : Fl → Bool
  | .nan => true
  | _ => false

/-- FP32 word of a value, rounded to nearest even. -/
def f32 (x : Fl) : Nat := flTo 8 23 x
/-- Value of an FP32 word. -/
def ofF32 (w : Nat) : Fl := flOf 8 23 w

end Sys2Proof.Machine
end

