-- ==== Sys2Proof/Config.lean ====
section
/-! DEFINITION. What the spec leaves open: free values, and the functions it takes from other standards by name.
Each is a constant with no body: nothing in Lean can evaluate one, and a claim about the model holds whatever it is. -/
namespace Sys2Proof.Config

/-- A free number, fresh for each value of the state's counter (log 6). -/
opaque freeNat : Nat → Nat
/-- A free byte: counter and index within the value (log 6). -/
opaque freeByte : Nat → Nat → Byte

/-- A free word that places a special function's result within its bound: counter and element
(R106 gives only bounds; log 22). -/
opaque ulpDev : Nat → Nat → Nat

/-- Which of a cluster's eight cores take a circular of a group at a local port of the cluster's router: group, cluster,
port (R250 and R259 give no rule; log 25). -/
opaque circCores : Nat → Nat → Nat → BitVec 8

/-- Port number under which scale-up port l appears in BAR_ENTRY of post router 3 of its field die (R315 gives none;
log 48). -/
opaque postPort : Nat → Nat

/-- Units of 512 bytes of a port's receiving queue, granted when the port comes UP (R302 and R306 give none; log 49). -/
opaque linkUnits : Nat → BitVec 16

/-- Port number under which the guest die of a site appears in BAR_ENTRY of the post router it hangs on (R287 gives none;
log 48). -/
opaque diePort : Nat → Nat

/-! ## Cryptographic functions, taken by name from the standards chapter 16 cites (log 7) -/

/-- SHA-256. -/
opaque sha256 : Bytes → Bytes
/-- HKDF-Extract with SHA-256: salt, input key material. -/
opaque hkdfExtract : Bytes → Bytes → Bytes
/-- HKDF-Expand with SHA-256: key, info, length. -/
opaque hkdfExpand : Bytes → Bytes → Nat → Bytes
/-- HMAC-SHA-256: key, message. -/
opaque hmac256 : Bytes → Bytes → Bytes
/-- AES-256-GCM encryption: key, nonce, additional data, plaintext; ciphertext and tag. -/
opaque gcmSeal : Bytes → Bytes → Bytes → Bytes → Bytes
/-- AES-256-GCM decryption: key, nonce, additional data, ciphertext and tag; none where the tag fails. -/
opaque gcmOpen : Bytes → Bytes → Bytes → Bytes → Option Bytes
/-- ML-KEM.KeyGen_internal(d, z): the encapsulation key. -/
opaque kemEk : Bytes → Bytes → Bytes
/-- ML-KEM.KeyGen_internal(d, z): the decapsulation key. -/
opaque kemDk : Bytes → Bytes → Bytes
/-- ML-KEM.Decaps. -/
opaque kemDecaps : Bytes → Bytes → Bytes
/-- SLH-DSA: public key of a 48-byte seed. -/
opaque slhPk : Bytes → Bytes
/-- SLH-DSA: signature by a seed's private key. -/
opaque slhSign : Bytes → Bytes → Bytes
/-- SLH-DSA: parameter set (1 128s, 2 128f, 3 192s, 4 192f, 5 256s, 6 256f), public key, message, signature. -/
opaque slhVerify : Nat → Bytes → Bytes → Bytes → Bool
/-- DER of a certificate the ROM signs: kind, public key, RTP firmware digest, security version. -/
opaque certDer : Nat → Bytes → Bytes → Nat → Bytes
/-- DER of a certificate of the identity area: 3 binding, 4 DeviceID, 5 device CA (R407). -/
opaque identityCert : Nat → Bytes
/-- The unique device secret, fused at manufacture (R405). -/
opaque uds : Bytes
/-- SHA-256 of the RTP ROM (R421). -/
opaque romDigest : Bytes
/-- Version of the RTP ROM (R352). -/
opaque romVersion : W32
/-- Varoft's firmware signing public key, whose digest the RTP ROM holds (R425). -/
opaque varoftPk : Bytes
/-- Varoft's IANA enterprise number (R352 gives no value). -/
opaque mfrId : W32
/-- Uniform draw i of the CTR_DRBG instance that a seed gives (R378). -/
opaque seededDraw : Nat → Nat → Nat

/-- Signature a die's MISR should hold after the logic test: firmware version, DIE_TYPE, DIE_REV, position of the disabled
cluster, and the die, 0–11 a site's and 12–15 a field die (R496). -/
opaque bistExpect : BitVec 96 → Nat → Nat → Nat → Nat → Nat

/-! ## The model's own formats, which Moushkit defines (R419) -/

/-- Tokens of a text under a manifest's tokeniser, with any start token it prescribes (R377). -/
opaque tokenise : Bytes → Bytes → List Nat
/-- Bytes of a token's text under a manifest's tokeniser (R380). -/
opaque tokenText : Bytes → Nat → Bytes
/-- Longest token text of a manifest's tokeniser (R365). -/
opaque maxTokenText : Bytes → Nat
/-- Which of the candidates a uniform draw chooses: TEMP, TOP_P, MIN_P and the penalised logits of the candidates in
descending order, as FP32 words (R378; the spec does not fix the arithmetic of its softmax, log 59). -/
opaque choose : W32 → W32 → W32 → List W32 → Nat → Nat

/-! ## Measured or fused quantities of one package (log 60) -/

/-- V_FUSE of a die at a ratio in mV: dies 0–11 the sites, 12–15 the field dies; ratios 8–16 (R458). -/
opaque vFuse : Nat → Nat → Nat
/-- A_WEAR of a die in µV per % (R458). -/
opaque aWear : Nat → Nat
/-- Power of a compute die at a ratio, in 0.125 W units (R455). -/
opaque ratioPower : Nat → Nat → Nat

end Sys2Proof.Config
end

