-- ==== Sys2Proof/Machine/State.lean ====
section
/-! DEFINITION. The state of the ZLV-H12: every register, queue, buffer, counter, mode and pin the spec gives it,
as plain data. A field's comment gives its width, the rule and file of spec/ that names it and where its reset
value comes from (S the spec, D<n> the log entry n, - a part of a record that holds no value at reset). -/
namespace Sys2Proof.Machine

/-- R282–R291: what the hub tells the die of a site. -/
inductive SiteMsg where
  | pwrOk
  | grant (block : Bytes)
  | linkUp
  | fwLoaded
  | resetReq
  | resetAssert
  | resetRelease
  | throttle (watts : Nat)
  deriving DecidableEq, Repr

/-- What the block sends: the model's own trace of its outputs (log 1). -/
inductive OutMsg where
  /-- R157: the adders answer an operation: issuer, status (0 done, 1 error response, 3 uncorrectable), old value. -/
  | memAnswer (unit : W32) (status val : Nat)
  /-- R112, R260: core g acknowledges a MARK write to its source, as CIRC_ACK when it came by circular. -/
  | markAck (g : Nat) (src : BitVec 16) (tag : BitVec 12) (group : Nat) (circ : Bool)
  /-- R95: the value of a load from core g's aperture. -/
  | apertureData (g val : Nat)
  /-- R207, R224: a write to host memory leaves through its port: function of the page's FUNC, aperture address, bytes. -/
  | hostWrite (func phys : Nat) (data : Bytes)
  /-- R300: a bulk, express or idle flit leaves a scale-up port. -/
  | linkFlit (l : Nat) (data : Bytes)
  /-- R307: a HELLO leaves a scale-up port: device, port, group, lanes, incarnation. -/
  | hello (l device group : Nat) (lanes : BitVec 8) (inc : W32)
  /-- R251: a response leaves its destination for network interface i. -/
  | response (i : Nat) (p : Packet)
  /-- R261, R262: network interface i reports a request's status to its issuer, with the data of a READ. -/
  | netDone (i : Nat) (tag : BitVec 12) (status : Nat) (data : Bytes)
  /-- R259: router r of die code d copies a circular to an output. -/
  | circCopy (d r output : Nat) (p : Packet)
  /-- R260: router r of die code d sends one combined CIRC_ACK back towards the source. -/
  | circAck (d r group code : Nat) (src : BitVec 16) (tag : BitVec 12)
  /-- R267: post router or stop r of die code d sends an arrival up through its PARENT port. -/
  | barUp (d r port id : Nat)
  /-- R267: post router r of die code d sends a departure down through a child port. -/
  | barDown (d r port id : Nat)
  /-- R282–R291: a message of the hub to the die of site n, on the sideband or the site control channel. -/
  | site (n : Nat) (m : SiteMsg)
  /-- R296: a request is delivered to attachment a of the die of site n. -/
  | dieRequest (n a typ addr : Nat) (tag : BitVec 12) (data : Bytes)
  /-- R290: the hub answers, or passes a response to, the die of site n on attachment a. -/
  | dieResponse (n a : Nat) (p : Packet)
  /-- R276, R278: a frame leaves bundle or module b of a site or bridge: SEQ, and the acknowledgement of the frame just
  received. -/
  | frame (unit : W32) (b : Nat) (seq ack : BitVec 12) (good : Bool)
  /-- R266: a post message leaves a unit. -/
  | postMsg (hdr : W64) (payload : List W64)
  /-- R332: bytes 0–55 of entry `idx` of the tray of function f of port p are written to host memory. -/
  | trayWrite (p f idx : Nat) (data : Bytes)
  /-- R332: the stamp of that entry is written, later and separately. -/
  | trayStamp (p f idx : Nat) (count : W32)
  /-- R335: an MSI-X message leaves function f of port p. -/
  | msix (p f vec : Nat)
  /-- R340: a reply message of subtype 0x02 leaves on I3C: the 64-byte entry and its reply data. -/
  | mgmtReply (entry data : Bytes)
  /-- R74, R191, R262: a router, a sieve unit or a register interface answers a write of a unit (0 for firmware) with a
  status: 0x00 done, 0x01 error response, 0x04 IN_RESET. -/
  | writeAnswer (by_ : W32) (unit : W32) (code : Nat)
  deriving DecidableEq, Repr
/-! ## Cores (chapters 02, 03, 04, 08, 10) -/

/-- R516: the type an accumulator column carries. -/
inductive ColType where
  | none | fp32 | int32 | int64
  deriving DecidableEq, Repr

/-- R50 (code 0x06): a tile loaded in the input store. -/
structure Tile where
  /-- [128 units R41/02 -] first unit (DST_BASE) -/
  base : Nat := 0
  /-- [0..128 R41/02 -] units occupied -/
  units : Nat := 0
  /-- [1..16 R39/02 -] rows loaded -/
  rows : Nat := 0
  /-- [13b R41/02 -] elements along K -/
  k : Nat := 0
  /-- [5b R29/02 -] format code -/
  fmt : Nat := 0
  deriving DecidableEq, Repr

/-- R69: one zero map of 1,024 slices, keyed by the tile's DST_BASE. -/
structure ZMap where
  /-- [7b R69/03 -] key -/
  base : Nat := 0
  /-- [1024b R68/03 -] bit s: slice s is zero -/
  bits : BitVec 1024 := 0
  deriving DecidableEq, Repr

/-- R45: a command that has left its array's queue and has not completed. -/
structure RunCmd where
  /-- [128b R42/02 -] the command word -/
  word : BitVec 128 := 0
  /-- [3 units R45/02 -] the unit that executes it -/
  unit : ArrUnit := .load
  /-- [1b R46/02 -] its work is done; only the completion is outstanding -/
  done : Bool := false
  /-- [Nat R37/02 -] next step of a sow -/
  step : Nat := 0
  /-- [cells R46/02 -] accumulator cells the sow has summed so far, by row × 256 + column -/
  work : Tbl Nat := []
  /-- [list R113/04 -] ring blocks passed and not yet FULL, to be cleared under CONSUME -/
  owed : List Nat := []
  /-- [type R516/02 -] type the sow gives its columns -/
  kind : ColType := .none
  /-- [list R486/19 -] column types, tiles and maps before the command, restored when it reads poison -/
  prevTypes : Tbl ColType := []
  /-- [list R486/19 -] tiles before the command -/
  prevTiles : List Tile := []
  /-- [opt R49/02 -] hopper block a started sow waits for -/
  waitBlk : Option Nat := none
  /-- [opt1024b R72/03 -] the zero map read when the sow left the queue -/
  zmap : Option (BitVec 1024) := none
  /-- [opt R37/02 -] tile the command names, as loaded when it left the queue -/
  tile : Option Tile := none
  /-- [1b R102/04 -] its completion waits for a free completion entry -/
  held : Bool := false
  deriving DecidableEq, Repr

/-- One matrix array (R25–R58). -/
structure ArrayState where
  /-- [<=16x128b R42/02 S] command queue, oldest first -/
  queue : List (BitVec 128) := []
  /-- [list R45/02 S] commands that left the queue and run, oldest first -/
  running : List RunCmd := []
  /-- [1b R50/02 S] ARRAY_STATUS.ERR; the queue is closed while it is set -/
  err : Bool := false
  /-- [1b R50/02 S] ARRAY_STATUS.GANG_ABORT -/
  gangAbort : Bool := false
  /-- [1b R34/02 S] ARRAY_STATUS.ISAT -/
  isat : Bool := false
  /-- [1b R33/02 S] ARRAY_STATUS.NAN_SEEN -/
  nanSeen : Bool := false
  /-- [8b R50/02 S] ARRAY_STATUS.ERR_CODE -/
  errCode : BitVec 8 := 0
  /-- [8b R42/02 S] ARRAY_STATUS.LAST_TAG -/
  lastTag : BitVec 8 := 0
  /-- [128b R50/02 S] ARRAY_ERR_CMD.WORD -/
  errCmd : BitVec 128 := 0
  /-- [64b R67/03 S] ARRAY_ACTIVE.COUNT -/
  active : W64 := 0
  /-- [64b R49/02 S] ARRAY_STALL.COUNT -/
  stall : W64 := 0
  /-- [1b R44/02 S] PASS_SET ACC64 -/
  acc64 : Bool := false
  /-- [5b R44/02 S] PASS_SET ISHIFT -/
  ishift : Nat := 0
  /-- [1b R44/02 S] PASS_SET NEG -/
  neg : Bool := false
  /-- [1b R44/02 S] PASS_SET A_UNS -/
  aUns : Bool := false
  /-- [1b R44/02 S] PASS_SET W_UNS -/
  wUns : Bool := false
  /-- [256xtype R516/02 S] accumulator column types; unlisted NONE -/
  colType : Tbl ColType := []
  /-- [list R50/02 S] tiles loaded -/
  tiles : List Tile := []
  /-- [<=8 R69/03 S] zero maps, most recently used first -/
  zmaps : List ZMap := []
  deriving DecidableEq, Repr

/-- The vector unit of a core (R104–R108). -/
structure VecState where
  /-- [<=16x128b R104/04 S] command queue, oldest first -/
  queue : List (BitVec 128) := []
  /-- [opt128b R105/04 S] the command executed and not yet completed -/
  run : Option (BitVec 128) := none
  /-- [1b R102/04 S] the executed command's completion waits for a free entry -/
  held : Bool := false
  /-- [1b R108/04 S] VEC_STATUS.ERR; the queue is closed while it is set -/
  err : Bool := false
  /-- [1b R106/04 S] VEC_STATUS.NAN_SEEN -/
  nanSeen : Bool := false
  /-- [8b R108/04 S] VEC_STATUS.ERR_CODE -/
  errCode : BitVec 8 := 0
  /-- [8b R108/04 S] VEC_STATUS.LAST_TAG -/
  lastTag : BitVec 8 := 0
  /-- [128b R108/04 D3] the command word that caused the error (R50 records it) -/
  errCmd : BitVec 128 := 0
  /-- [3x32b R104/04 S] scalar registers SC1–SC3; unlisted zero (R119) -/
  sc : Tbl W32 := []
  deriving DecidableEq, Repr

/-- One 32-byte sector held in a cache or granary line (R115, R137, R485). -/
structure Sec where
  /-- [1b R115/04 S] valid -/
  valid : Bool := false
  /-- [1b R115/04 S] dirty -/
  dirty : Bool := false
  /-- [1b R485/19 S] poison -/
  poison : Bool := false
  /-- [32B R115/04 S] data -/
  data : Bytes := []
  deriving DecidableEq, Repr

/-- One 128-byte line of a core cache, a cluster cache or a granary slice. -/
structure Line where
  /-- [Nat R115/04 -] address divided by 128 (virtual in caches, stack data address in a slice) -/
  tag : Nat := 0
  /-- [16b R116/04,R144/05 -] ASID that filled or allocated the line -/
  asid : Nat := 0
  /-- [Nat R241/09 -] caches: physical address of the line under the translation that filled it -/
  phys : Nat := 0
  /-- [2b R142/05 -] caches: hint of the page-table entry that translated it -/
  hint : Nat := 0
  /-- [opt R144/05 -] granary: partition whose KEEP quota protects it -/
  prot : Option Nat := none
  /-- [sec R115/04 -] sector 0 -/
  s0 : Sec := {}
  /-- [sec R115/04 -] sector 1 -/
  s1 : Sec := {}
  /-- [sec R115/04 -] sector 2 -/
  s2 : Sec := {}
  /-- [sec R115/04 -] sector 3 -/
  s3 : Sec := {}
  deriving DecidableEq, Repr

/-- What a control processor is stalled on. -/
inductive CpStall where
  | none
  /-- R100: AQ.PUSH waits for free entries. -/
  | aqPush (mask : BitVec 5) (word : BitVec 128) (rd : Nat)
  /-- R100: AQ.WAIT waits for an entry, a limit or an interrupt. -/
  | aqWait (rd limit : Nat)
  /-- R268: a read of BARRIER_WAIT waits for the departure. -/
  | barrier (rd : Nat)
  /-- R120: the submitting store waits for room in the core's queue. -/
  | cdma (value : W64)
  /-- R236: the instruction waits for a translation fault to be serviced. -/
  | fault (va : Nat) (acc : Nat)
  /-- R236/R240: the fault was cancelled; the instruction takes its page fault. -/
  | cancelled (va : Nat) (acc : Nat)
  /-- R313: the instruction waits for a remote answer. -/
  | remote
  /-- WFI of the profile of R98. -/
  | wfi
  deriving DecidableEq, Repr

/-- The control processor of a core (R98). -/
structure CpState where
  /-- [31x64b R98/04 D3] x1–x31; unlisted zero -/
  x : Tbl W64 := []
  /-- [64b R469/18 S] program counter: 0xF_FFFF_FF0B_0000 -/
  pc : W64 := 0xFFFFFFF0B0000
  /-- [1b R469/18 S] machine mode -/
  mach : Bool := true
  /-- [64b each R98/04,R208/08 S] CSRs by number; unlisted zero -/
  csr : Tbl W64 := []
  /-- [64b R98/04 D3] instructions retired -/
  instret : W64 := 0
  /-- [- R100/04 S] what the processor is stalled on -/
  stall : CpStall := .none
  /-- [1b R469/18 S] held in reset until the boot block is released -/
  inReset : Bool := true
  deriving DecidableEq, Repr

/-- R112: a MARK write held in a core's hopper ingress. -/
structure HeldMark where
  /-- [10b R112/04 -] block -/
  block : Nat := 0
  /-- [512B R112/04 -] its bytes -/
  data : Bytes := []
  /-- [1b R485/19 -] carries poison -/
  poison : Bool := false
  /-- [16b R260/10 -] sender, for the acknowledgement -/
  src : BitVec 16 := 0
  /-- [12b R251/10 -] tag, for the acknowledgement -/
  tag : BitVec 12 := 0
  /-- [16b R260/10 -] circular group -/
  group : Nat := 0
  /-- [1b R260/10 -] answered with CIRC_ACK (a circular) rather than ACK -/
  circ : Bool := false
  /-- [opt R124/04 -] the transfer engine whose descriptor (its slot is the tag) waits for the acknowledgement -/
  eng : Option EngRef := none
  /-- [opt R314/12 -] the scale-up port and tag whose CIRC_ACK waits for it -/
  link : Option (Nat × Nat) := none
  /-- [opt R251/10 -] the network interface whose packet waits for it -/
  iface : Option Nat := none
  /-- [8b R260/10 -] most severe status of that circular's other targets -/
  code : Nat := 0
  /-- [64b R260/10 -] timebase when it was held, or last logged as held for 1 ms -/
  since : Nat := 0
  deriving DecidableEq, Repr

/-- R102: who waits to post a completion. -/
inductive Holder where
  | arr (a : Nat) (u : ArrUnit) | vec | dma
  deriving DecidableEq, Repr

/-- One core (R93–R119). -/
structure CoreState where
  /-- [512K+256K+64K+256K bytes R93/04 S] hopper, vector memory, accumulators and input stores by core-local address; unlisted bytes zero -/
  mem : List Host.Cell := []
  /-- [1b per 32B R485/19 S] poisoned units (address div 32), ascending -/
  poison : List Nat := []
  /-- [4 R19/01 S] arrays A0–A3 -/
  arrays : Tbl ArrayState := []
  /-- [unit R104/04 S] vector unit -/
  vec : VecState := {}
  /-- [<=64x64b R102/04 S] completion queue, oldest first -/
  cq : List W64 := []
  /-- [list R102/04 S] completions waiting for a free entry, oldest first -/
  cqWait : List (W64 × Holder) := []
  /-- [1024x1b R113/04 S] FULL blocks, ascending -/
  full : List Nat := []
  /-- [64b R114/04 S] HOPPER_CTL in effect -/
  hctl : W64 := 1024
  /-- [opt64b R114/04 S] HOPPER_CTL written and not yet in effect -/
  hctlNew : Option W64 := none
  /-- [<=4KiB R112/04 S] MARK writes held in the ingress, oldest first -/
  heldMarks : List HeldMark := []
  /-- [1b R119/04 S] CORE_SCRUB.BUSY -/
  scrub : Bool := false
  /-- [64B R120/04 D3] CDMA_SUBMIT window -/
  cdmaWin : BitVec 512 := 0
  /-- [unit R98/04 S] control processor -/
  cp : CpState := {}
  /-- [64KiB R115/04 S] core cache, most recently used line first -/
  cache : List Line := []
  /-- [list R267/10 -] barrier arrivals sent and not yet at the stop -/
  barSent : List Nat := []
  /-- [opt R162/05 S] reserved sector: (stack, sector) -/
  resv : Option (Nat × Nat) := none
  /-- [1b R268/10 S] BARRIER_WAIT.DEPARTED -/
  departed : Bool := true
  /-- [8b R268/10 S] BARRIER_WAIT.ID -/
  barId : Nat := 0
  /-- [set R103/04 S] local interrupts pending in mip (16–20, 22; 21 is derived) -/
  mip : List Nat := []
  /-- [1b R477/18 S] in a reset scope between stop and clear -/
  stopped : Bool := false
  deriving DecidableEq, Repr

/-- R121–R125: a descriptor a transfer engine runs. -/
structure RunDesc where
  /-- [11b R120/04 -] submitting core (cluster DMA) or ring (hub DMA) -/
  core : Nat := 0
  /-- [64B R121/04 -] the descriptor -/
  desc : Bytes := []
  /-- [16b R120/04 -] ASID of the submitting core's context -/
  asid : Nat := 0
  /-- [opt8b R125/04 -] status once the transfer ended -/
  status : Option Nat := none
  /-- [20b R124/04 -] rows wholly written -/
  rows : Nat := 0
  /-- [list R125/04 -] parts still to be moved (row, offset, bytes); a faulting part stays here -/
  todo : List (Nat × Nat × Nat) := []
  /-- [1b R125/04 -] data read with an uncorrectable error so far -/
  unc : Bool := false
  /-- [8b R260/10 -] most severe status a target has answered -/
  code : Nat := 0
  /-- [12b R112/04 -] number among the engine's descriptors, for the writes it waits for -/
  slot : Nat := 0
  /-- [1b R478/18 -] its NOTIFY entry is discarded (the core was reset) -/
  mute : Bool := false
  /-- [1b R102/04 -] its completion waits for a free entry -/
  held : Bool := false
  deriving DecidableEq, Repr

/-- One transfer engine: a cluster DMA or a hub DMA engine (R120–R127). -/
structure DmaState where
  /-- [8x<=16x64B R120/04 S] descriptor queues by core in cluster (hub DMA: key 0), oldest first -/
  queues : Tbl (List Bytes) := []
  /-- [<=4 or <=8 R126/04 S] descriptors running, in order of start -/
  running : List RunDesc := []
  /-- [3b R120/04 D3] core whose queue is served next -/
  next : Nat := 0
  /-- [16b R125/04 S] CDMA_STATUS.ERR_COUNT -/
  errCount : BitVec 16 := 0
  /-- [8b R125/04 S] CDMA_STATUS.LAST_STATUS -/
  lastStatus : BitVec 8 := 0
  /-- [1b R477/18 S] in reset -/
  stopped : Bool := false
  deriving DecidableEq, Repr

/-- One cluster (R116–R126). -/
structure ClusterState where
  /-- [2MiB R116/04 S] cluster cache, most recently used line first -/
  cache : List Line := []
  /-- [16b R117/04 S] CC_OP.ASID -/
  ccAsid : BitVec 16 := 0
  /-- [2b R117/04 S] CC_OP.OP -/
  ccOp : BitVec 2 := 0
  /-- [1b R118/04 S] CC_OP.BUSY -/
  ccBusy : Bool := false
  /-- [unit R120/04 S] cluster DMA -/
  dma : DmaState := {}
  deriving DecidableEq, Repr

/-! ## Memory (chapters 05, 06) -/

/-- R150: one class's token bucket. -/
structure Bucket where
  /-- [64b R150/05 S] BW_BUCKET: DEPTH 4,096, BORROW 1, RATE 76,800 -/
  reg : W64 := 0x100000032C00
  /-- [opt64b R150/05 S] a write waiting for the next tick -/
  new : Option W64 := none
  /-- [17b R150/05 D3] tokens held -/
  tokens : Nat := 0
  deriving DecidableEq, Repr

/-- R177: one remap entry. -/
structure RemapEnt where
  /-- [1b R177/06 S] VALID -/
  valid : Bool := false
  /-- [31b R177/06 S] SECTOR -/
  sector : Nat := 0
  /-- [19b R177/06 S] SPARE_ROW -/
  spareRow : Nat := 0
  /-- [32b R177/06 S] CHECK bytes of the remapped sector -/
  check : W32 := 0
  deriving DecidableEq, Repr

/-- R153: a whole-sector write held by a controller. -/
structure HeldWrite where
  /-- [31b R153/05 -] sector number -/
  sector : Nat := 0
  /-- [32B R153/05 -] data -/
  data : Bytes := []
  /-- [1b R485/19 -] encoded with tag 0xFF -/
  poison : Bool := false
  /-- [3b R149/05 -] bandwidth class of the access it came from -/
  cls : Nat := 4
  deriving DecidableEq, Repr

/-- R183: retraining of a channel. -/
structure Retrain where
  /-- [1b R183/06 S] a retraining runs -/
  busy : Bool := false
  /-- [2b R183/06 S] successive failed retrainings -/
  fails : Nat := 0
  deriving DecidableEq, Repr

/-- R179–R181: the gleaner of a controller. -/
structure Gleaner where
  /-- [64b R181/06 S] GLEAN_CTL: MAX_LAP 3,600, ENABLE 1, PACE 64 -/
  ctl : W64 := 0xE1080000040
  /-- [31b R181/06 S] POSITION -/
  pos : Nat := 0
  /-- [32b R181/06 S] LAPS -/
  laps : W32 := 0
  /-- [1b R181/06 S] OVERDUE -/
  overdue : Bool := false
  /-- [32b R181/06 S] LAST_MS -/
  lastMs : W32 := 0
  /-- [16b R181/06 S] FIXED of the last lap -/
  fixed : BitVec 16 := 0
  /-- [16b R181/06 S] UNFIXED of the last lap -/
  unfixed : BitVec 16 := 0
  /-- [16b R181/06 S] FIXED of the running lap -/
  curFixed : BitVec 16 := 0
  /-- [16b R181/06 S] UNFIXED of the running lap -/
  curUnfixed : BitVec 16 := 0
  /-- [64b R181/06 S] timebase at the start of the running lap -/
  lapStart : Nat := 0
  /-- [list R176/06 S] sectors corrected in the last lap -/
  lastList : List Nat := []
  /-- [list R176/06 S] sectors corrected in the running lap -/
  curList : List Nat := []
  deriving DecidableEq, Repr

/-- One stack with its controller, adders and granary slice (R129–R184). -/
structure StackState where
  /-- [64GiB raw R166/06 S] bytes of the stack by raw address (pseudo-channel, row, slot, byte); unlisted bytes zero, as the fill of R167 leaves them -/
  raw : List Host.Cell := []
  /-- [1b R468/18 S] training at 9.6 Gb/s is done -/
  trained : Bool := false
  /-- [4b R155/05 S] MEM_MODE.REFRESH, the step in effect -/
  refresh : Nat := 1
  /-- [opt4b R155/05 S] refresh step decided and not yet in effect -/
  refreshNext : Option Nat := none
  /-- [2b R155/05 S] throttling by the stack's own temperature: 0, 1 or 2 -/
  thrStack : Nat := 0
  /-- [2b R445/17 S] throttling by its field die's THROTTLE state -/
  thrDie : Nat := 0
  /-- [2b R454/17 S] throttling by the power manager -/
  thrPower : Nat := 0
  /-- [5x64b R150/05 S] BW_BUCKET by class -/
  buckets : Tbl Bucket := []
  /-- [32b R152/05 S] PRIO_CTL -/
  prio : W32 := 16
  /-- [64b R145/05 S] GRAN_QUOTA -/
  quota : W64 := 0
  /-- [16b R146/05 S] GRAN_OP.ASID -/
  gAsid : BitVec 16 := 0
  /-- [2b R146/05 S] GRAN_OP.PART -/
  gPart : BitVec 2 := 0
  /-- [3b R146/05 S] GRAN_OP.OP -/
  gOp : BitVec 3 := 0
  /-- [1b R146/05 S] GRAN_OP.BUSY -/
  gBusy : Bool := false
  /-- [192MiB R137/05 S] granary lines, most recently used first -/
  lines : List Line := []
  /-- [6x64b R156/05 S] MEM_COUNT -/
  memCount : Tbl W64 := []
  /-- [4x64b R147/05 S] GRAN_COUNT -/
  granCount : Tbl W64 := []
  /-- [8x64b R175/06 S] INTEG_COUNT -/
  integ : Tbl W64 := []
  /-- [56x8b R168/06 S] block epochs; 0 until the fill ends -/
  epochs : Tbl Nat := []
  /-- [1b R167/06 S] INTEG_STATUS.FILL_DONE -/
  fillDone : Bool := false
  /-- [1b R183/06 S] INTEG_STATUS.LOST -/
  lost : Bool := false
  /-- [8b R183/06 S] INTEG_STATUS.LOSS_CAUSE -/
  lossCause : BitVec 8 := 0
  /-- [1b R177/06 S] INTEG_STATUS.REMAP_ERR -/
  remapErr : Bool := false
  /-- [1b R177/06 S] REMAP_OP.BUSY -/
  remapBusy : Bool := false
  /-- [64b R177/06 S] REMAP_OP as written -/
  remapReg : W64 := 0
  /-- [32 R177/06 S] remap entries by index -/
  remap : Tbl RemapEnt := []
  /-- [list R176/06 S] spare slots left behind by a move: (pseudo-channel, row) -/
  spentSpares : List (Nat × Nat) := []
  /-- [unit R179/06 S] gleaner -/
  glean : Gleaner := {}
  /-- [64b R182/06 S] FLIP_CTL -/
  flipCtl : W64 := 0
  /-- [256b R182/06 S] FLIP_DATA -/
  flipData : BitVec 256 := 0
  /-- [32b R182/06 S] FLIP_CHECK -/
  flipCheck : W32 := 0
  /-- [2b each R164/06 S] severity the stack's on-die ECC gives for a sector: 1 corrected, 2 not corrected; unlisted none -/
  ondie : Tbl Nat := []
  /-- [list R153/05 S] writes held by the controller, oldest first -/
  held : List HeldWrite := []
  /-- [32 R183/06 S] retraining by channel -/
  retrain : Tbl Retrain := []
  /-- [list R176/06 S] sectors judged to have a hard fault and not yet remapped -/
  hard : List Nat := []
  /-- [list R183/06 S] rows with uncorrectable reads: (pseudo-channel, row, timebase) -/
  badRows : List (Nat × Nat × Nat) := []
  deriving DecidableEq, Repr

/-! ## The page sieve and the winnow routers (chapters 03, 07) -/

/-- R77: one expert of a round's table, held from the opening to the close of the round. -/
structure Expert where
  /-- [16b R77/03 -] GROUP -/
  group : Nat := 0
  /-- [16b R77/03 -] CAPACITY -/
  capacity : Nat := 0
  /-- [16b R77/03 -] SLOT_BASE -/
  slotBase : Nat := 0
  /-- [16b R77/03 -] SEL_BIAS -/
  selBias : BitVec 16 := 0
  /-- [32b R77/03 -] HDR_OFF -/
  hdrOff : Nat := 0
  /-- [32b R77/03 -] ROW_OFF -/
  rowOff : Nat := 0
  /-- [32b R77/03 -] SCL_OFF -/
  sclOff : Nat := 0
  /-- [32b R77/03 -] END_OFF -/
  endOff : Nat := 0
  /-- [16b R77/03 -] ROW_PITCH, in 16 bytes -/
  rowPitch : Nat := 0
  /-- [1b R77/03 -] ENABLE, clear too for a GROUP outside the partition (R78) -/
  enable : Bool := false
  deriving DecidableEq, Repr

/-- R79: an accepted gate record waiting in the input buffer. -/
structure GateRec where
  /-- [16b R79/03 -] ROUND -/
  round : Nat := 0
  /-- [16b R79/03 -] TOKEN -/
  token : Nat := 0
  /-- [64b R79/03 -] ROW_ADDR -/
  rowAddr : Nat := 0
  /-- [<=512x16b R79/03 -] BF16 logits in table order -/
  logits : List (BitVec 16) := []
  deriving DecidableEq, Repr

/-- R85: one assignment, a token letter still to be sent. -/
structure Letter where
  /-- [16b R85/03 -] ROUND -/
  round : Nat := 0
  /-- [16b R85/03 -] TOKEN -/
  token : Nat := 0
  /-- [16b R85/03 -] EXPERT -/
  expert : Nat := 0
  /-- [16b R85/03 -] SLOT -/
  slot : Nat := 0
  /-- [32b R85/03 -] WEIGHT -/
  weight : W32 := 0
  /-- [3b R85/03 -] RANK -/
  rank : Nat := 0
  /-- [1b R85/03 -] REROUTED -/
  rerouted : Bool := false
  /-- [64b R79/03 -] ROW_ADDR -/
  rowAddr : Nat := 0
  deriving DecidableEq, Repr

/-- R88: a token's route report. -/
structure RouteReport where
  /-- [16b R88/03 -] TOKEN -/
  token : Nat := 0
  /-- [8b R88/03 -] FLAGS -/
  flags : BitVec 8 := 0
  /-- [8b R88/03 -] DROPPED -/
  dropped : Nat := 0
  /-- [32b R88/03 -] WSUM -/
  wsum : W32 := 0
  /-- [<=8 R88/03 -] ENTRY: (EXPERT, SLOT, WEIGHT) by descending score -/
  entries : List (Nat × Nat × W32) := []
  deriving DecidableEq, Repr

/-- R75–R88: an open round. -/
structure Round where
  /-- [16b R75/03 -] ROUND -/
  id : Nat := 0
  /-- [4b R75/03 -] K -/
  k : Nat := 0
  /-- [10b R75/03 -] EXPERTS -/
  experts : Nat := 0
  /-- [15b R75/03 -] TOKENS -/
  tokens : Nat := 0
  /-- [2b R75/03 -] NORM -/
  norm : Nat := 0
  /-- [1b R75/03 -] ORDER is INDEX -/
  byIndex : Bool := false
  /-- [11b R75/03 -] SCALE_BYTES -/
  scaleBytes : Nat := 0
  /-- [16b R75/03 -] ROW_BYTES -/
  rowBytes : Nat := 0
  /-- [64b R75/03 -] TABLE_ADDR -/
  tableAddr : Nat := 0
  /-- [64b R75/03 -] REPORT_ADDR -/
  reportAddr : Nat := 0
  /-- [64b R75/03 -] OUT_BASE -/
  outBase : Nat := 0
  /-- [32b R75/03 -] OUT_STRIDE -/
  outStride : Nat := 0
  /-- [32b R75/03 -] WSCALE -/
  wscale : W32 := 0
  /-- [64b R75/03 -] SUMMARY_ADDR -/
  summaryAddr : Nat := 0
  /-- [1b R76/03 -] the expert table has been read -/
  loaded : Bool := false
  /-- [<=512 R76/03 -] expert table -/
  table : List Expert := []
  /-- [set R80/03 -] tokens received -/
  received : List Nat := []
  /-- [set R84/03 -] tokens taken -/
  taken : List Nat := []
  /-- [512x13b R85/03 -] tokens assigned by expert -/
  assigned : Tbl Nat := []
  /-- [512x16b R88/03 -] choices overflowed by expert -/
  overflowed : Tbl Nat := []
  /-- [set R87/03 -] tokens declared missing -/
  missing : List Nat := []
  /-- [32b R88/03 -] tokens with BAD_LOGITS -/
  badLogits : Nat := 0
  /-- [list R88/03 -] route reports of the tokens taken -/
  reports : List RouteReport := []
  /-- [opt64b R87/03 -] close flag address, once ROUND_CLOSE has come -/
  closeFlag : Option Nat := none
  deriving DecidableEq, Repr

/-- One winnow router (R74–R92). -/
structure WinnowState where
  /-- [64b R90/03 S] WINNOW_CTX -/
  ctx : W64 := 0
  /-- [16b R91/03 S] WINNOW_STATUS.ERR_COUNT -/
  errCount : BitVec 16 := 0
  /-- [8b R91/03 S] WINNOW_STATUS.LAST_ERR -/
  lastErr : BitVec 8 := 0
  /-- [32b R92/03 S] WINNOW_COUNT.LETTERS -/
  letters : W32 := 0
  /-- [32b R92/03 S] WINNOW_COUNT.RECORDS -/
  records : W32 := 0
  /-- [<=16 R76/03 S] open rounds -/
  rounds : List Round := []
  /-- [<=256 R84/03 S] input buffer, in order of acceptance -/
  buf : List GateRec := []
  /-- [list R85/03 S] letters assigned and not yet sent -/
  sendq : List Letter := []
  /-- [1b R477/18 S] in a reset scope between stop and clear -/
  stopped : Bool := false
  deriving DecidableEq, Repr

/-- R192: a sieve request record accepted from a core's slot. -/
structure SieveReq where
  /-- [11b R191/07 -] core that owns the slot -/
  core : Nat := 0
  /-- [64B R192/07 -] the record -/
  record : Bytes := []
  deriving DecidableEq, Repr

/-- R198: one entry of a SELECT's result. -/
structure SieveEnt where
  /-- [64b R198/07 -] PAGE with its flags -/
  page : W64 := 0
  /-- [32b R198/07 -] INDEX -/
  index : Nat := 0
  /-- [32b R198/07 -] SCORE -/
  score : W32 := 0
  deriving DecidableEq, Repr

/-- R194–R199: a started sieve request with what it has read and scored, its result still to be written. -/
structure SieveRun where
  /-- [req R192/07 -] the request -/
  req : SieveReq := {}
  /-- [8b R198/07 -] STATUS -/
  status : Nat := 0
  /-- [8b R198/07 -] FLAGS without VALID -/
  flags : BitVec 8 := 0
  /-- [32b R198/07 -] SCORED -/
  scored : Nat := 0
  /-- [32b R198/07 -] UNSEALED -/
  unsealed : Nat := 0
  /-- [32b R198/07 -] THRESHOLD -/
  threshold : W32 := 0
  /-- [<=1024 R198/07 -] result entries -/
  entries : List SieveEnt := []
  deriving DecidableEq, Repr

/-- One page sieve unit (R185–R203). -/
structure SieveState where
  /-- [64b R201/07 S] SIEVE_CTX -/
  ctx : W64 := 0
  /-- [16b R202/07 S] SIEVE_STATUS.ERR_COUNT -/
  errCount : BitVec 16 := 0
  /-- [8b R202/07 S] SIEVE_STATUS.LAST_ERR -/
  lastErr : BitVec 8 := 0
  /-- [64b R202/07 S] SIEVE_PAGES.SCORED -/
  scored : W64 := 0
  /-- [32b R202/07 S] SIEVE_REQS.SELECTS -/
  selects : W32 := 0
  /-- [32b R202/07 S] SIEVE_REQS.SEALS -/
  seals : W32 := 0
  /-- [<=64 R193/07 S] requests accepted and not started -/
  queue : List SieveReq := []
  /-- [<=4 R194/07 S] requests running -/
  running : List SieveRun := []
  /-- [<=8 R194/07 S] requests set aside on a fault: (request, faulting page) -/
  heldReqs : List (SieveReq × Nat) := []
  /-- [1b R477/18 S] in a reset scope between stop and clear -/
  stopped : Bool := false
  deriving DecidableEq, Repr

/-! ## Translation (chapter 09) -/

/-- R233: one TLB entry. -/
structure TlbEnt where
  /-- [16b R233/09 -] ASID -/
  asid : Nat := 0
  /-- [52b R233/09 -] virtual base -/
  base : Nat := 0
  /-- [5b R233/09 -] log2 of the bytes mapped: 16, 21 or 29 -/
  log2 : Nat := 16
  /-- [64b R226/09 -] leaf entry -/
  leaf : W64 := 0
  deriving DecidableEq, Repr

/-- R233: one walker-cache entry (an L0 or L1 table entry). -/
structure WalkEnt where
  /-- [16b R233/09 -] ASID -/
  asid : Nat := 0
  /-- [1b R233/09 -] level -/
  level : Nat := 0
  /-- [23b R233/09 -] index -/
  index : Nat := 0
  /-- [64b R226/09 -] table entry -/
  entry : W64 := 0
  deriving DecidableEq, Repr

/-- R235/R236: a faulting access in a wait slot. -/
structure WaitSlot where
  /-- [32b R236/09 -] client -/
  client : W32 := 0
  /-- [16b R236/09 -] ASID -/
  asid : Nat := 0
  /-- [52b R236/09 -] faulting address -/
  va : Nat := 0
  /-- [8b R235/09 -] cause -/
  cause : Nat := 0
  /-- [4b R238/09 -] access kinds: bit 0 read, 1 write, 2 fetch, 3 memory-side operation -/
  acc : Nat := 0
  deriving DecidableEq, Repr

/-- R241: an invalidation a unit has passed to its clients and waits for. -/
structure InvalWait where
  /-- [16b R241/09 -] ASID -/
  asid : Nat := 0
  /-- [52b R241/09 -] first address -/
  va : Nat := 0
  /-- [53b R241/09 -] bytes -/
  len : Nat := 0
  /-- [list R241/09 -] clients that have not acknowledged -/
  clients : List W32 := []
  /-- [64b R241/09 -] timebase when the invalidation was sent -/
  sent : Nat := 0
  deriving DecidableEq, Repr

/-- One translation unit (R233–R247). -/
structure XlateState where
  /-- [1b R243/09 S] XLATE_CTL.PHYS_EN -/
  physEn : Bool := true
  /-- [64b R231/09 S] XLATE_ASID -/
  asidReg : W64 := 0
  /-- [4x64b R232/09 S] XLATE_FILTER by partition -/
  filter : Tbl W64 := []
  /-- [<=8192 R233/09 S] shared TLB, most recently used first -/
  tlb : List TlbEnt := []
  /-- [<=64 R233/09 S] walker cache, most recently used first -/
  wcache : List WalkEnt := []
  /-- [32 each R233/09 S] client TLBs by unit identifier -/
  ctlb : Tbl (List TlbEnt) := []
  /-- [<=64 R236/09 S] wait slots in use -/
  slots : List WaitSlot := []
  /-- [list R236/09 S] faults waiting at the unit for a slot -/
  overflow : List WaitSlot := []
  /-- [list R241/09 S] invalidations not yet acknowledged by every client -/
  invals : List InvalWait := []
  /-- [6x64b R241/09 S] XLATE_COUNT -/
  count : Tbl W64 := []
  deriving DecidableEq, Repr

/-- R238: a fault-bag entry. -/
structure FaultEnt where
  /-- [64b R238/09 -] PAGE -/
  page : Nat := 0
  /-- [16b R238/09 -] ASID -/
  asid : Nat := 0
  /-- [8b R238/09 -] CAUSE -/
  cause : Nat := 0
  /-- [8b R238/09 -] ACCESS -/
  access : Nat := 0
  /-- [16b R238/09 -] DIES -/
  dies : BitVec 16 := 0
  /-- [16b R238/09 -] COUNT, saturating -/
  count : BitVec 16 := 0
  /-- [32b R238/09 -] FIRST_UNIT -/
  firstUnit : W32 := 0
  /-- [64b R238/09 -] FIRST_TIME -/
  firstTime : Nat := 0
  deriving DecidableEq, Repr

/-- R237: a batch of the fault bag. -/
structure FaultBatch where
  /-- [64b R238/09 -] BATCH -/
  num : Nat := 0
  /-- [64b R238/09 -] CLOSE_TIME -/
  closeTime : Nat := 0
  /-- [<=64 R237/09 -] entries -/
  entries : List FaultEnt := []
  deriving DecidableEq, Repr

/-- R237: a fault message on its way to the collector or waiting there. -/
structure FaultMsg where
  /-- [64b R238/09 -] page -/
  page : Nat := 0
  /-- [16b R238/09 -] ASID -/
  asid : Nat := 0
  /-- [8b R235/09 -] cause -/
  cause : Nat := 0
  /-- [4b R238/09 -] access kinds -/
  acc : Nat := 0
  /-- [5b R238/09 -] unit's bit in DIES; 16 for a host port -/
  die : Nat := 0
  /-- [32b R238/09 -] client -/
  client : W32 := 0
  /-- [64b R238/09 -] timebase of the fault -/
  time : Nat := 0
  deriving DecidableEq, Repr

/-- The fault collector and the fault bag (R237–R240). -/
structure BagState where
  /-- [list R237/09 S] fault messages posted and not yet at the collector -/
  msgs : List FaultMsg := []
  /-- [opt<=64 R237/09 S] the open batch -/
  openB : Option (List FaultEnt) := none
  /-- [list R237/09 S] faults waiting because the open batch is full -/
  waiting : List FaultMsg := []
  /-- [64b R238/09 S] number of the next batch, from 1 -/
  nextBatch : Nat := 1
  /-- [ring R237/09 S] batches written to the bag and not yet serviced -/
  ring : List FaultBatch := []
  /-- [1b R237/09 S] the sorting office has been interrupted for a batch in the ring -/
  irq : Bool := false
  /-- [17b R369/14 S] ring size in entries, 4,096 by default -/
  size : Nat := 4096
  /-- [1b R369/14 S] FORWARD, set by default -/
  forward : Bool := true
  deriving DecidableEq, Repr

/-- R244: an access counter of a host port. -/
structure AccCounter where
  /-- [16b R244/09 -] ASID -/
  asid : Nat := 0
  /-- [46b R244/09 -] physical address of the region -/
  region : Nat := 0
  /-- [21b R244/09 -] sectors counted -/
  count : Nat := 0
  deriving DecidableEq, Repr

/-- R244, R245: the access counters of the host ports and the settings of MIGRATE_HINTS. -/
structure AccState where
  /-- [2x<=4096 R244/09 S] counters of each port, most recently incremented first -/
  ctrs : Tbl (List AccCounter) := []
  /-- [21b R245/09 S] THRESHOLD, 65,536 without MIGRATE_HINTS -/
  threshold : Nat := 65536
  /-- [27b R245/09 S] DECAY in ns, 1 ms without MIGRATE_HINTS -/
  decay : Nat := 1000000
  /-- [list R245/09 S] ASIDs counted -/
  asids : List Nat := []
  deriving DecidableEq, Repr

/-- R246: a window-table entry. -/
structure WindowEnt where
  /-- [8b R246/09 D3] FLAGS -/
  flags : BitVec 8 := 0
  /-- [8b R246/09 D3] FROM -/
  from_ : Nat := 0
  /-- [16b R246/09 D3] ASID -/
  asid : Nat := 0
  /-- [64b R246/09 D3] BASE -/
  base : Nat := 0
  /-- [64b R246/09 D3] SIZE -/
  size : Nat := 0
  deriving DecidableEq, Repr

/-! ## The logbook (chapter 19) -/

/-- R490–R493: a log message as a unit posts it. -/
structure LogMsg where
  /-- [16b R493/19 -] CODE -/
  code : Nat := 0
  /-- [8b R492/19 -] SEVERITY -/
  sev : Nat := 0
  /-- [8b R484/19 -] CLASS -/
  cls : Nat := 0xFF
  /-- [32b R22/01 -] UNIT -/
  unit : W32 := 0
  /-- [16b R492/19 -] CONTEXT -/
  ctx : Nat := 0xFFFF
  /-- [8b R492/19 -] PARTITION -/
  part : Nat := 0xFF
  /-- [32b R491/19 -] COUNT -/
  count : Nat := 1
  /-- [64b R492/19 -] TIME -/
  time : Nat := 0
  /-- [64b R492/19 -] ADDR -/
  addr : Nat := 0
  /-- [<=16B R492/19 -] DETAIL -/
  detail : Bytes := []
  deriving DecidableEq, Repr

/-- R490: an entry of the ring, numbered. -/
structure LogEntry where
  /-- [64b R490/19 -] SEQ -/
  seq : Nat := 0
  /-- [1b R492/19 -] FLAGS bit 0: EVENT reply sent -/
  event : Bool := false
  /-- [msg R490/19 -] the message -/
  msg : LogMsg := {}
  deriving DecidableEq, Repr

/-- R491: what a source keeps of a pair of CODE and UNIT. -/
structure LogRate where
  /-- [16b R491/19 -] CODE -/
  code : Nat := 0
  /-- [32b R491/19 -] UNIT -/
  unit : W32 := 0
  /-- [64b R491/19 -] time of the last entry written -/
  last : Nat := 0
  /-- [Nat R491/19 -] occurrences since -/
  pend : Nat := 0
  deriving DecidableEq, Repr

/-- The logbook controller and the sources' rate limits (R490–R494). -/
structure LogState where
  /-- [<=256 R490/19 S] intake, oldest first -/
  intake : List LogMsg := []
  /-- [32b R490/19 S] messages discarded since the last LOG_OVERFLOW -/
  dropped : Nat := 0
  /-- [16384x64B R490/19 S] ring, oldest entry first; empty after a whole reset -/
  ring : List LogEntry := []
  /-- [64b R490/19 S] SEQ of the next entry: 1 after a whole reset -/
  nextSeq : Nat := 1
  /-- [list R491/19 D3] occurrences counted by the sources -/
  rates : List LogRate := []
  deriving DecidableEq, Repr

/-! ## The bulk and post networks (chapter 10) -/

/-- R251: a request of a network interface that has no response yet. -/
structure OutReq where
  /-- [12b R251/10 -] TAG -/
  tag : BitVec 12 := 0
  /-- [4b R251/10 -] TYPE -/
  typ : BitVec 4 := 0
  /-- [64b R261/10 -] timebase when it was sent -/
  time : Nat := 0
  deriving DecidableEq, Repr

/-- A network interface (R254, R258, R270, R477). -/
structure NetIf where
  /-- [64x64b R254/10 S] ROUTE_ALT by die code × 4 + alternative -/
  alt : Tbl W64 := []
  /-- [128b R258/10 S] GUAR_CTL -/
  guar : BitVec 128 := 0
  /-- [list R257/10 S] requests outstanding -/
  reqs : List OutReq := []
  /-- [list R251/10 S] responses on their way to this interface, oldest first -/
  inbox : List Packet := []
  /-- [list R477/18 S] retired tags with the time of the stop -/
  retired : List (BitVec 12 × Nat) := []
  /-- [Nat R477/18 S] responses discarded because their tag was retired -/
  absorbed : Nat := 0
  /-- [22x64b R270/10 S] NET_STAT in offset order: BYTES_OUT, BYTES_IN, PACKETS_OUT, PACKETS_IN, CREDIT_WAIT, LAT_MAX, HIST 0–15 -/
  stat : Tbl W64 := []
  deriving DecidableEq, Repr

/-- R260: a tracker that counts the acknowledgements of a circular a router copied. -/
structure Tracker where
  /-- [12b R260/10 -] GROUP -/
  group : Nat := 0
  /-- [16b R260/10 -] SRC -/
  src : BitVec 16 := 0
  /-- [12b R260/10 -] TAG -/
  tag : BitVec 12 := 0
  /-- [11b R260/10 -] outputs whose CIRC_ACK is still to come -/
  left : List Nat := []
  /-- [8b R260/10 -] most severe status received -/
  code : Nat := 0
  deriving DecidableEq, Repr

/-- A bulk-network router (R258–R260). -/
structure RouterState where
  /-- [11x64b R258/10 S] GSLOT by output -/
  gslot : Tbl W64 := []
  /-- [4096x64b R259/10 S] CIRC_ENTRY by group -/
  circ : Tbl W64 := []
  /-- [<=256 R260/10 S] trackers in use -/
  trackers : List Tracker := []
  /-- [list R260/10 S] circular packets that wait for a free tracker, oldest first -/
  waiting : List Packet := []
  /-- [list R260/10 S] copies for cores whose ingress is full, oldest first -/
  stuck : List (Nat × Packet) := []
  deriving DecidableEq, Repr

/-- A post router or a post stop (R267). -/
structure PostState where
  /-- [256x64b R267/10 S] BAR_ENTRY by ID -/
  bar : Tbl W64 := []
  deriving DecidableEq, Repr

/-! ## Zelov links (chapter 12) -/

/-- R301: a packet record on a link. -/
structure LinkRec where
  /-- [32B R301/12 -] header -/
  hdr : Bytes := []
  /-- [<=512B R301/12 -] data -/
  data : Bytes := []
  deriving DecidableEq, Repr

/-- R313: a remote request of this device that has no answer yet. -/
structure RemoteReq where
  /-- [12b R301/12 -] the sending port's tag -/
  tag : Nat := 0
  /-- [8b R301/12 -] TYPE -/
  typ : Nat := 0
  /-- [- R313/12 -] the agent that asked -/
  iss : Issuer := { unit := 0, asid := 0, cls := 4 }
  /-- [8b R301/12 -] target device -/
  dev : Nat := 0
  /-- [8b R301/12 -] window -/
  window : Nat := 0
  /-- [44b R301/12 -] offset within the window -/
  off : Nat := 0
  /-- [10b R301/12 -] bytes -/
  len : Nat := 0
  /-- [opt R312/12 -] the record was forwarded for another device: (port it came from, its tag there) -/
  fwd : Option (Nat × Nat) := none
  /-- [opt R251/10 -] the packet it carries on: (network interface, tag) -/
  pkt : Option (Nat × Nat) := none
  deriving DecidableEq, Repr

/-- An answer to a remote read that its agent has not taken yet. -/
structure RemoteAns where
  /-- [- R313/12 -] the request answered -/
  req : RemoteReq := {}
  /-- [8b R301/12 -] CODE -/
  code : Nat := 0
  /-- [1b R301/12 -] POISON -/
  poison : Bool := false
  /-- [<=512B R301/12 -] data -/
  data : Bytes := []
  deriving DecidableEq, Repr

/-- R303: a flit in the replay buffer. -/
structure SentFlit where
  /-- [12b R300/12 -] SEQ -/
  seq : BitVec 12 := 0
  /-- [1b R300/12 -] express -/
  express : Bool := false
  /-- [248B R300/12 -] body -/
  body : Bytes := []
  deriving DecidableEq, Repr

/-- R319: STATE of a port. -/
inductive PortMode where
  | disabled | training | up | retraining | down
  deriving DecidableEq, Repr

/-- A scale-up port (R299–R320). -/
structure PortState where
  /-- [4b R319/12 S] STATE: TRAINING after reset, as a port trains whenever its partner drives signal (R306) -/
  mode : PortMode := .training
  /-- [4b R307/12 S] width in lanes -/
  width : Nat := 0
  /-- [8b R307/12 S] good lanes -/
  lanes : BitVec 8 := 0
  /-- [3b R310/12 D40] port group; kept in the saved settings -/
  group : Nat := 0
  /-- [8b R310/12 D40] lanes to leave unused; kept in the saved settings -/
  unused : BitVec 8 := 0
  /-- [8b R319/12 S] PARTNER, 0xFF none -/
  partner : Nat := 0xFF
  /-- [8b R319/12 S] PARTNER_PORT, 0xFF none -/
  partnerPort : Nat := 0xFF
  /-- [8b R319/12 S] DOWN_CAUSE -/
  cause : BitVec 8 := 0
  /-- [1b R319/12 S] PORT_DOWN sent -/
  pdSent : Bool := false
  /-- [32b R319/12 S] partner's INCARNATION -/
  inc : W32 := 0
  /-- [1b R306/12 S] signal seen: training step 1 has begun -/
  signal : Bool := false
  /-- [64b R308/12 S] timebase when RETRAINING or DOWN began -/
  since : Nat := 0
  /-- [12b R306/12 S] SEQ of the next flit sent; 0 when the port comes UP -/
  txSeq : BitVec 12 := 0
  /-- [<=1024 R303/12 S] replay buffer, oldest first -/
  replay : List SentFlit := []
  /-- [12b R303/12 S] SEQ expected next -/
  rxSeq : BitVec 12 := 0
  /-- [1b R303/12 S] NAK set -/
  nak : Bool := false
  /-- [bytes R301/12 S] record bytes received that do not yet make a record -/
  rxBytes : Bytes := []
  /-- [9 queues R302/12 S] records received and not yet served, oldest first -/
  rxQ : List LinkRec := []
  /-- [list R304/12 S] express entries received and not yet served, oldest first -/
  rxEx : List Bytes := []
  /-- [9x16b R302/12 D3] credits in 512-byte units by queue: class × 3 + HOPS -/
  credits : Tbl Nat := []
  /-- [list R302/12 S] records that wait for credits, with their queue, oldest first -/
  txQ : List (Nat × LinkRec) := []
  /-- [list R305/12 S] express entries that wait to be sent, oldest first -/
  txEx : List Bytes := []
  /-- [<=4096 R313/12 S] requests outstanding -/
  reqs : List RemoteReq := []
  /-- [64b R319/12 S] FEC_FIXED -/
  fecFixed : W64 := 0
  /-- [32b R319/12 S] FEC_UNFIXED -/
  fecUnfixed : W32 := 0
  /-- [32b R319/12 S] REPLAYS -/
  replays : W32 := 0
  /-- [32b R319/12 S] RETRAINS -/
  retrains : W32 := 0
  /-- [32b R319/12 S] SER -/
  ser : W32 := 0
  /-- [64b R319/12 S] BYTES_OUT -/
  bytesOut : W64 := 0
  /-- [64b R319/12 S] BYTES_IN -/
  bytesIn : W64 := 0
  /-- [32b R319/12 S] REFUSED -/
  refused : W32 := 0
  /-- [16b R319/12 S] EXPRESS_MAX in ns -/
  expressMax : BitVec 16 := 0
  deriving DecidableEq, Repr

/-- What the device holds for its links (R307, R310–R318). -/
structure LinkState where
  /-- [16 R19/01 S] ports by number l -/
  ports : Tbl PortState := []
  /-- [32b R307/12 S] this device's INCARNATION: its whole resets, kept in the boot flash -/
  ownInc : W32 := 0
  /-- [8b R310/12 S] device number, 0xFF unset; kept in the saved settings -/
  device : Nat := 0xFF
  /-- [5b R318/12 S] minimum of UP ports; kept in the saved settings -/
  minPorts : Nat := 0
  /-- [8x64x4b R311/12 S] port selection table by group × 64 + entry; unlisted none -/
  select : Tbl Nat := []
  /-- [256x3b R312/12 D3] forwarding table by device; unlisted no group -/
  fwd : Tbl Nat := []
  /-- [256 entries R314/12 D3] circular link table: local group to the group on the partner device -/
  circ : Tbl Nat := []
  /-- [list R314/12 D3] local groups opened to a sending device: (device, group) -/
  opened : List (Nat × Nat) := []
  /-- [list R317/12 S] devices fenced -/
  fenced : List Nat := []
  /-- [list R317/12 S] fenced devices from which a HELLO has come since -/
  greeted : List Nat := []
  /-- [1b R316/12 S] FAREWELL with a cause 0x01–0x04 has been sent -/
  farewell : Bool := false
  /-- [list R313/12 S] answers to remote reads not yet taken by their agents -/
  answers : List RemoteAns := []
  /-- [1b R318/12 S] fewer ports are UP than the minimum -/
  below : Bool := false
  deriving DecidableEq, Repr

/-! ## Contexts and partitions (chapters 14, 15, 18) -/

/-- R356: a context. -/
structure CtxState where
  /-- [16b R356/14 -] ASID the device chose -/
  asid : Nat := 0
  /-- [32b R356/14 -] MODEL -/
  model : Nat := 0
  /-- [2b R356/14 -] PARTITION -/
  part : Nat := 0
  /-- [1b R356/14 -] MULTI_MODULE -/
  multi : Bool := false
  /-- [1b R356/14 -] OVERFLOW: REROUTE -/
  reroute : Bool := false
  /-- [1b R356/14 -] RENORM -/
  renorm : Bool := false
  /-- [2b R356/14 -] PSIZE -/
  psize : Nat := 0
  /-- [4b R356/14 -] REROUTE_DEPTH -/
  depth : Nat := 0
  /-- [5b R356/14 -] SINKS -/
  sinks : Nat := 0
  /-- [7b R356/14 -] RECENT -/
  recent : Nat := 0
  /-- [10b R356/14 -] WEIGHT -/
  weight : Nat := 1
  /-- [25b R356/14 -] MAX_TOKENS -/
  maxTokens : Nat := 1
  /-- [17b R356/14 -] MAX_BATCH -/
  maxBatch : Nat := 1
  /-- [64b R356/14 -] FUNCS -/
  funcs : W64 := 0
  /-- [256b R356/14 -] PEERS -/
  peers : BitVec 256 := 0
  /-- [1b R357/14 -] suspended by CONTEXT_SCHEDULE -/
  suspended : Bool := false
  deriving DecidableEq, Repr

/-- R475, R479: where a partition's reset stands. -/
inductive ResetPhase where
  | none | stopped | cleared
  deriving DecidableEq, Repr

/-- A partition's fault and reset state (R358, R479, R489). -/
structure PartState where
  /-- [2b R479/18 S] phase of a partition reset -/
  phase : ResetPhase := .none
  /-- [1b R358/14 S] the reset restarts requests rather than aborting them -/
  restart : Bool := true
  /-- [64b R477/18 S] timebase of the stop -/
  stopTime : Nat := 0
  /-- [list R484/19 S] PARTITION errors reported to the sorting office and not yet handled: (CODE, timebase) -/
  reports : List (Nat × Nat) := []
  /-- [list R489/19 S] times of the PARTITION errors of the last 60 s -/
  errs : List Nat := []
  /-- [list R401/15 S] contexts not current whose state is poisoned: the error is taken when they next run -/
  later : List Nat := []
  deriving DecidableEq, Repr

/-! ## Chiplet sites and bridges (chapter 11) -/

/-- R298: STATE of a site. -/
inductive SiteMode where
  | off | negotiating | training | up | resetting | down
  deriving DecidableEq, Repr

/-- R283: what a site that comes up waits for. -/
inductive SiteWait where
  | none | block | grantOk | wires | linkUp
  deriving DecidableEq, Repr

/-- R286, R291: a request that the hub delivered to a guest die and that is still open. -/
structure DieReq where
  /-- [5b R296/11 -] attachment -/
  att : Nat := 0
  /-- [12b R251/10 -] TAG -/
  tag : BitVec 12 := 0
  /-- [4b R251/10 -] TYPE -/
  typ : Nat := 0
  /-- [52b R296/11 -] ADDR as the die receives it -/
  addr : Nat := 0
  /-- [10b R251/10 -] data bytes asked for or sent -/
  len : Nat := 0
  /-- [opt R272/10 -] the network interface whose packet it was -/
  iface : Option Nat := none
  /-- [opt R120/04 -] the transfer engine and descriptor number whose part it is -/
  eng : Option (EngRef × Nat) := none
  /-- [64b R295/11 -] timebase when it was delivered -/
  since : Nat := 0
  deriving DecidableEq, Repr

/-- Data that a guest die returned to a transfer engine and that its descriptor has not taken. -/
structure DieAns where
  /-- [- R296/11 -] the request answered -/
  req : DieReq := {}
  /-- [8b R251/10 -] CODE -/
  code : Nat := 0
  /-- [1b R251/10 -] POISON -/
  poison : Bool := false
  /-- [<=512B R251/10 -] data -/
  data : Bytes := []
  deriving DecidableEq, Repr

/-- R276, R278: the framing of one bundle of a site, or of one bridge module. -/
structure FrameLink where
  /-- [12b R274/11 S] frame sequence number expected next -/
  rxSeq : BitVec 12 := 0
  /-- [3b R276/11 S] times in a row that the expected frame has failed its check -/
  fails : Nat := 0
  /-- [12b R274/11 S] frame sequence number sent next -/
  txSeq : BitVec 12 := 0
  /-- [<=64 R276/11 S] frames in the replay buffer, oldest first -/
  replay : List (BitVec 12) := []
  /-- [1b R276/11 S] the bundle retrains -/
  retrain : Bool := false
  deriving DecidableEq, Repr

/-- One site (R273–R298). -/
structure SiteState where
  /-- [4b R298/11 S] SITE_CTL.STATE: OFF -/
  mode : SiteMode := .off
  /-- [- R283/11 S] the step that a site coming up waits for -/
  wait : SiteWait := .none
  /-- [8b R298/11 S] Moush version negotiated, 0 none -/
  version : Nat := 0
  /-- [256B R280/11 S] capability block read, empty if none -/
  block : Bytes := []
  /-- [64B R282/11 S] grant block last sent, empty if none -/
  grant : Bytes := []
  /-- [8b R298/11 S] DOWN_CAUSE -/
  cause : BitVec 8 := 0
  /-- [16b R298/11 S] ARRAY -/
  array : Nat := 0xFFFF
  /-- [24b R291/11 S] SITE_CTL.ATTACH_EN -/
  attachEn : BitVec 24 := 0
  /-- [1b R291/11 S] SITE_CTL.FENCE -/
  fence : Bool := false
  /-- [1b R291/11 S] the handshake brings the site up again afterwards -/
  again : Bool := false
  /-- [16b R282/11 S] SITE_POWER.P_GRANT -/
  pGrant : Nat := 0
  /-- [16b R292/11 S] SITE_POWER.P_NOW -/
  pNow : Nat := 0
  /-- [<=16x16b R292/11 S] power samples of the last 1 ms, newest first -/
  samples : List Nat := []
  /-- [1b R292/11 S] SITE_POWER.OVER -/
  ovr : Bool := false
  /-- [64b R292/11 S] timebase when the excess led to THROTTLE -/
  overSince : Nat := 0
  /-- [1b R292/11 S] SITE_POWER.THROTTLED -/
  throttled : Bool := false
  /-- [10b R280/11 S] VCOMP in mV, 0 off -/
  vcomp : Nat := 0
  /-- [10b R280/11 S] VSRAM in mV, 0 off -/
  vsram : Nat := 0
  /-- [6x64b R291/11 S] SITE_ERR -/
  err : Tbl W64 := []
  /-- [128x<=8x9b R275/11 S] faulty wires steered to spares, by bundle × 2 + direction (sending 0) -/
  spares : Tbl (List Nat) := []
  /-- [64 R276/11 S] framing by bundle -/
  frames : Tbl FrameLink := []
  /-- [1b R284/11 S] FW_LOADED was sent and the digest report is awaited -/
  fwWait : Bool := false
  /-- [32B R284/11 S] digest reported, empty if none -/
  digest : Bytes := []
  /-- [list R286/11 S] requests delivered to the die and open -/
  reqs : List DieReq := []
  /-- [list R295/11 S] data returned to transfer engines and not taken -/
  answers : List DieAns := []
  /-- [list R295/11 S] times of the 2 ms answers of the last 1 s -/
  late : List Nat := []
  /-- [16b R288/11 S] hottest reading of the last round, in 0.1 °C -/
  temp : Nat := 0
  /-- [2b R293/11 S] rounds in a row without a report -/
  silent : Nat := 0
  deriving DecidableEq, Repr

/-- One bridge (R277, R278). -/
structure BridgeState where
  /-- [1b R468/18 S] trained -/
  trained : Bool := false
  /-- [16b R277/11 S] modules disabled -/
  disabled : BitVec 16 := 0
  /-- [16 R278/11 S] framing by module -/
  frames : Tbl FrameLink := []
  deriving DecidableEq, Repr

/-- A post message that stands at the unit it is addressed to (R266). -/
structure PostMail where
  /-- [64b R266/10 -] header flit -/
  hdr : W64 := 0
  /-- [<=3x64b R266/10 -] payload flits -/
  payload : List W64 := []
  deriving DecidableEq, Repr

/-- R469: the circular firmware load in progress. -/
structure BcastState where
  /-- [1b R469/18 S] announced by START and not ended -/
  active : Bool := false
  /-- [64b R469/18 S] byte count of START -/
  bytes : Nat := 0
  /-- [64b R266/10 S] count of the last COUNT message -/
  count : Nat := 0
  deriving DecidableEq, Repr

/-- The identity fuses of the package (R5, R279, R465). -/
structure FuseState where
  /-- [32b R6/00 D4] POPULATION: the standard build -/
  population : W32 := 0x10000000
  /-- [32b R279/11 D4] PACKAGE -/
  package : W32 := 0
  /-- [4x2b R279/11 D4] FIELD of each field die that disagrees with its position; unlisted the position -/
  field : Tbl Nat := []
  /-- [4x32b R279/11 D4] POPULATION of each field die that differs from F0's; unlisted the same -/
  popCopy : Tbl Nat := []
  deriving DecidableEq, Repr

/-! ## Power, temperature and wear (chapter 17) -/

/-- Power and thermal state of a die: 0–11 the die of site n, 12–15 field die f. -/
structure PowerDie where
  /-- [1b R445/17 S] WARNING -/
  warn : Bool := false
  /-- [1b R445/17 S] THROTTLE -/
  thr : Bool := false
  /-- [Nat R445/17 S] rounds spent in THROTTLE -/
  thrRounds : Nat := 0
  /-- [Nat R454/17 S] steps of 10% of P_MAX − P_MIN by which its share is cut -/
  cut : Nat := 0
  /-- [4b R436/17 D3] ratio 16 − k: k edges of every 16 withheld -/
  k : Nat := 0
  /-- [opt4b R436/17 S] a lower k that waits for VCOMP -/
  kNext : Option Nat := none
  /-- [1b R455/17 S] ACLK and SCLK stopped: an interval of R455, or for good (R434, R439, R447) -/
  stopped : Bool := false
  /-- [1b R453/17 S] THROTTLED of the next REPORT: budget below the power at 8/16 -/
  duty : Bool := false
  /-- [16b R453/17 D3] BUDGET in 0.125 W units -/
  budget : Nat := 0
  /-- [5b R453/17 S] RATIO_MAX -/
  ratioMax : Nat := 16
  /-- [2b R456/17 S] rounds in a row without a BUDGET -/
  noBudget : Nat := 0
  /-- [list R455/17 S] power of the last 64 µs intervals of 1 ms, newest first, in 0.125 W units -/
  samples : List Nat := []
  /-- [16b R453/17 S] POWER of the last REPORT, in 0.125 W units -/
  power : Nat := 0
  /-- [12b R453/17 S] hottest temperature code of the last REPORT; 0xFFF none -/
  hottest : Nat := 0xFFF
  /-- [4b R453/17 S] FLAGS of the last REPORT -/
  flags : Nat := 0
  /-- [16b R453/17 S] REQUEST of the last REPORT, in W -/
  request : Nat := 0
  /-- [1b R453/17 S] a REPORT came since the last round -/
  reported : Bool := false
  /-- [0.125 W R454/17 S] share of the last division -/
  share : Nat := 0
  /-- [32b R458/17 S] largest slowdown S in parts per 10^6 -/
  slow : Nat := 0
  /-- [16b R458/17 D3] V(16/16) in mV, or the planned VHUB -/
  plan : Nat := 0
  /-- [5b R458/17 S] RATIO_MAX of the plan -/
  planMax : Nat := 16
  /-- [12b R460/17 S] junction temperature code at the last measurement -/
  measTemp : Nat := 0xFFF
  deriving DecidableEq, Repr

/-- The housekeeping round and the power manager (R440–R462). -/
structure PowerState where
  /-- [16 R440/17 S] dies -/
  dies : Tbl PowerDie := []
  /-- [484 R440/17 S] last reading of each channel after factory calibration: temperature code, slowdown in parts per 10^6,
  µV or mA; unlisted none -/
  raw : Tbl Int := []
  /-- [484 R461/17 S] calibrated values of the last completed round -/
  vals : Tbl Int := []
  /-- [484 R462/17 S] user offsets; unlisted none -/
  user : Tbl Int := []
  /-- [64b R461/17 S] rounds completed -/
  rounds : Nat := 0
  /-- [64b R461/17 S] timebase of the last round -/
  roundTime : Nat := 0
  /-- [288x2b R443/17 S] rounds in a row a sensor lay off its neighbours' median -/
  off : Tbl Nat := []
  /-- [300x2b R443/17 S] rounds in a row a sensor gave no reading -/
  gone : Tbl Nat := []
  /-- [list R443/17 S] sensors marked suspect, ascending -/
  suspect : List Nat := []
  /-- [16b R371/14 S] the operator's cap in W: 4,000 without a saved one -/
  capOp : Nat := 4000
  /-- [16b R371/14 S] the management path's cap in W: none lower than 4,000 -/
  capMg : Nat := 4000
  /-- [16b R456/17 S] the cap in effect for the division -/
  cap : Nat := 4000
  /-- [2b R454/17 S] controllers throttled for want of power: 0, 1 (32 of 64 slots) or 2 (16 of 64) -/
  short : Nat := 0
  /-- [64b R460/17 S] timebase of the last wear measurement -/
  measured : Nat := 0
  /-- [1b R457/17 S] a wear measurement runs -/
  measuring : Bool := false
  /-- [list R461/17 S] channels whose last CAL_USER_SET entry was clamped -/
  clamped : List Nat := []
  deriving DecidableEq, Repr

/-! ## The boot flash (chapters 16, 17, 18) -/

/-- R470: one copy of the saved settings. -/
structure SavedCopy where
  /-- [1b R470/18 D5] valid -/
  valid : Bool := false
  /-- [64b R470/18 D5] SAVE_SEQ -/
  seq : Nat := 0
  /-- [32b R470/18 D5] PACKAGE -/
  package : W32 := 0
  /-- [32b R470/18 D5] POPULATION -/
  population : W32 := 0
  /-- [<=16 R471/18 D5] sections by TYPE -/
  sections : Tbl Bytes := []
  deriving DecidableEq, Repr

/-- R464: what the boot flash holds. -/
structure FlashState where
  /-- [1b R465/18 D5] ACTIVE -/
  active : Nat := 0
  /-- [1b R465/18 D5] TRIAL -/
  trial : Bool := false
  /-- [8b R465/18 D5] TRIES -/
  tries : Nat := 0
  /-- [8b R465/18 D5] STAGED -/
  staged : BitVec 8 := 0
  /-- [2x32MiB R464/18 D5] firmware slots; unlisted erased -/
  slots : Tbl FwImage := [(0, {})]
  /-- [16b R466/18 D4] fused security version -/
  fusedSv : Nat := 0
  /-- [32b R464/18 D5] power-on hours -/
  poh : Nat := 0
  /-- [64x256B R449/17 D5] event record slots; unlisted erased -/
  nv : Tbl Bytes := []
  /-- [6b R449/17 D5] slot of the next event record -/
  nvPos : Nat := 0
  /-- [64b R450/17 D5] SEQ of the next event record -/
  nvSeq : Nat := 1
  /-- [4KiB R463/17 D5] user calibration page, if it holds a valid one: (CHANNEL, OFFSET) -/
  calPage : Option (List (Nat × Int)) := none
  /-- [1b R463/17 D5] the page was left invalid by a power failure -/
  calBad : Bool := false
  /-- [2x512KiB R470/18 D5] saved settings, copies A and B -/
  copies : Tbl SavedCopy := []
  deriving DecidableEq, Repr

/-- R352, R468: the device's state. -/
inductive DevMode where
  | off | starting | ready | unfit | shuttingDown
  deriving DecidableEq, Repr

/-- The module's input, its sideband contacts and the progress of its start (R439, R447, R468, R505–R508). -/
structure BoardState where
  /-- [1b R505/20 S] input capacitance charged -/
  inrush : Bool := false
  /-- [1b R506/20 D4] PWR_EN -/
  pwrEn : Bool := false
  /-- [1b R507/20 D4] MOD_RESET_N -/
  modResetN : Bool := true
  /-- [2x1b R506/20 D4] PERST0_N and PERST1_N high -/
  perstN : Tbl Bool := []
  /-- [1b R468/18 S] PWR_GOOD -/
  pwrGood : Bool := false
  /-- [1b R468/18 S] READY -/
  ready : Bool := false
  /-- [1b R447/17 S] THERMTRIP_N asserted and latched -/
  thermtrip : Bool := false
  /-- [1b R448/17 S] ALERT_N asserted while a hot start is held -/
  hotHold : Bool := false
  /-- [1b R448/17 S] the HOT_START record of this start has been written -/
  hotRec : Bool := false
  /-- [5b R468/18 S] last step of R468 completed -/
  stage : Nat := 0
  /-- [1b R468/18 S] the start was ended without READY -/
  halted : Bool := false
  /-- [1b R434/17 S] held in whole reset until every PLL has locked -/
  pllHold : Bool := false
  /-- [1b R447/17 S] a thermal shutdown proceeds -/
  tripping : Bool := false
  /-- [32b R450/17 S] UNIT of the record of that shutdown -/
  tripUnit : W32 := 0
  /-- [<=64B R451/17 S] DETAIL of the record of that shutdown -/
  tripDetail : Bytes := []
  /-- [1b R439/17 S] the rails went off for a power failure: only PWR_EN asserted again, or the input lost and back, starts again -/
  failed : Bool := false
  /-- [1b R467/18 S] FW_ACTIVATE has been executed and its whole reset is due -/
  resetDue : Bool := false
  deriving DecidableEq, Repr

/-! ## The host interface (chapters 13, 14) -/

/-- A reply that has not been written to its tray (R331, R334). -/
structure HostReply where
  /-- [56B R331/13 -] bytes 0–55 of the entry -/
  entry : Bytes := []
  /-- [opt6b R329/13 -] the slot that its stamp frees -/
  slot : Option Nat := none
  /-- [1b R325/13 -] NO_INTR -/
  noIntr : Bool := false
  /-- [opt R364/14 -] TOKENS reply: its request -/
  req : Option Nat := none
  /-- [8b R372/14 -] TOKENS reply: COUNT -/
  tokens : Nat := 0
  /-- [2x32b R364/14 -] TOKENS reply: offset and bytes of its record in the output range -/
  span : Nat × Nat := (0, 0)
  /-- [32b R364/14 -] TOKENS reply: where the record would have begun had it fitted before the end of the range -/
  back : Nat := 0
  /-- [1b R372/14 -] FIRST_TOKEN -/
  first : Bool := false
  /-- [1b R372/14 -] FINAL -/
  final : Bool := false
  deriving DecidableEq, Repr

/-- A reply tray and the result region set with it (R330, R342). -/
structure Tray where
  /-- [43b R330/13 -] TRAY_BUS -/
  bus : Nat := 0
  /-- [17b R330/13 -] N -/
  n : Nat := 64
  /-- [16b R330/13 -] index written next -/
  next : Nat := 0
  /-- [32b R330/13 -] stamp count of the next entry -/
  count : W32 := 1
  /-- [17b R333/13 -] entries of the first lap whose stamp has not been read -/
  virgin : Nat := 0
  /-- [list R333/13 -] entries written and not known to be given back, oldest first: the request and the output bytes of a
  TOKENS reply, and its FINAL -/
  used : List (Option (Nat × (Nat × Nat) × Bool)) := []
  /-- [17b R333/13 -] entries known to be free -/
  ahead : Nat := 0
  /-- [1b R334/13 -] full -/
  full : Bool := false
  /-- [43b R342/14 -] RESULT_BUS -/
  resBus : Nat := 0
  /-- [27b R342/14 -] RESULT_LEN -/
  resLen : Nat := 0
  deriving DecidableEq, Repr

/-- R336: a registered bounce buffer. -/
structure BounceBuf where
  /-- [43b R336/13 -] bus address -/
  bus : Nat := 0
  /-- [31b R336/13 -] bytes -/
  len : Nat := 0
  /-- [32b R336/13 -] session that owns it, 0 for the function as a whole -/
  session : Nat := 0
  deriving DecidableEq, Repr

/-- One PCIe function's letterbox, tray, buffers and status registers (R322–R336). -/
structure HostFunc where
  /-- [256KiB R323/13 S] letterbox bytes; LENGTH is zero in every slot after a port reset, the rest D3 -/
  lb : List Host.Cell := []
  /-- [64 R327/13 S] copies of the letters taken, by slot -/
  taken : Tbl Bytes := []
  /-- [64x(16b,16b) R329/13 S] SLOT_STATE: STATUS and SEQ of the last letter answered -/
  last : Tbl (Nat × Nat) := []
  /-- [16b R329/13 S] LB_STATUS.DISCARDED -/
  discarded : W16 := 0
  /-- [16b R328/13 S] LB_STATUS.REJECTED -/
  rejected : W16 := 0
  /-- [opt R330/13 S] reply tray -/
  tray : Option Tray := none
  /-- [<=4096 R334/13 S] replies held for the tray, oldest first -/
  held : List HostReply := []
  /-- [16b R335/13 S] INTR_CTL.MODERATE -/
  moderate : W16 := 0
  /-- [opt64b R335/13 S] timebase of the last message of vector 0 -/
  lastMsi : Option Nat := none
  /-- [1b R335/13 S] a message of vector 0 waits for the end of the interval -/
  msiPend : Bool := false
  /-- [8x64b R324/13 D55] MSI-X table: address and data words of the 4 vectors; unlisted zero, but for the mask bits -/
  msix : Tbl W64 := []
  /-- [4b R324/13 D55] MSI-X pending bits -/
  pba : BitVec 4 := 0
  /-- [<=64 R336/13 S] bounce buffers by INDEX -/
  bufs : Tbl BounceBuf := []
  deriving DecidableEq, Repr

/-- A PCIe host port (R321). -/
structure HostPort where
  /-- [1b R321/13 S] the link is up -/
  up : Bool := false
  /-- [4b R321/13 S] PORT_LINK.RATE -/
  rate : Nat := 1
  /-- [5b R321/13 S] PORT_LINK.WIDTH -/
  width : Nat := 0
  /-- [1b R321/13 S] PORT_LINK.FLIT -/
  flit : Bool := false
  deriving DecidableEq, Repr

/-- R348, R349: a letter taken and not yet answered. -/
structure LetterQ where
  /-- [- R322/13 -] where it came from -/
  src : LSrc := .mgmt 0
  /-- [1b R423/16 -] its work has begun and its answer waits -/
  busy : Bool := false
  /-- [64b R390/15 -] number of a REQUEST_SUBMIT letter at the meter -/
  serial : Nat := 0
  deriving DecidableEq, Repr

/-- R349: lasting work that runs after an ACCEPTED answer. -/
inductive WorkKind where
  | modelLoad (model : Nat) | fwStage | bist (scope : Nat)
  deriving DecidableEq, Repr

/-- Lasting work, with the letter whose final reply it owes. -/
structure Work where
  /-- [- R349/14 -] the work -/
  kind : WorkKind := .fwStage
  /-- [1b R340/13 -] port -/
  p : Nat := 0
  /-- [5b R340/13 -] function -/
  f : Nat := 0
  /-- [bytes R325/13 -] the letter -/
  letter : Bytes := []
  /-- [1b R338/13 -] a port reset discarded its final reply -/
  mute : Bool := false
  deriving DecidableEq, Repr

/-- The management path (R340). -/
structure MgmtState where
  /-- [4xbytes R340/13 S] letters taken, by slot -/
  taken : Tbl Bytes := []
  /-- [32b R340/13 S] stamp count of the next reply -/
  count : W32 := 1
  deriving DecidableEq, Repr

/-! ## Serving (chapter 15) -/

/-- Device memory that MAP_RANGE or MODEL_LOAD allocated (R369, R420). -/
structure Alloc where
  /-- [16b R369/14 -] ASID of the context that maps it; 0 for a model -/
  asid : Nat := 0
  /-- [32b R359/14 -] model whose weights it holds; 0 for a mapping -/
  model : Nat := 0
  /-- [4b R369/14 -] REGION: 0–11 a local window, 12 the spread window -/
  region : Nat := 0
  /-- [64b R369/14 -] virtual address mapped -/
  va : Nat := 0
  /-- [52b R369/14 -] device physical address -/
  phys : Nat := 0
  /-- [64b R369/14 -] bytes -/
  len : Nat := 0
  deriving DecidableEq, Repr

/-- A page table in firmware memory (R225, R230). -/
structure PtTable where
  /-- [14b R230/09 -] place in firmware's pool of tables -/
  slot : Nat := 0
  /-- [16b R231/09 -] ASID -/
  asid : Nat := 0
  /-- [2b R225/09 -] level: 0, 1 or 2 -/
  level : Nat := 0
  /-- [52b R225/09 -] first virtual address it covers -/
  base : Nat := 0
  deriving DecidableEq, Repr

/-- R359, R420: a model. -/
structure ModelState where
  /-- [2b R359/14 -] partition whose spread share holds the weights -/
  part : Nat := 0
  /-- [1b R359/14 -] its MODEL_LOAD has completed -/
  loaded : Bool := false
  /-- [64b R418/16 -] WEIGHT_BYTES -/
  weights : Nat := 0
  /-- [32B R418/16 -] owner-key digest -/
  owner : Bytes := []
  /-- [32B R418/16 -] envelope digest -/
  digest : Bytes := []
  /-- [bytes R419/16 -] manifest: serving profile, section table and sections -/
  manifest : Bytes := []
  deriving DecidableEq, Repr

/-- R360–R362, R411–R414: a session. -/
structure SessState where
  /-- [1b R322/13 -] port -/
  p : Nat := 0
  /-- [5b R322/13 -] function -/
  f : Nat := 0
  /-- [6b R360/14 -] context -/
  ctx : Nat := 0
  /-- [64b R360/14 -] timebase of SESSION_OPEN -/
  opened : Nat := 0
  /-- [1568B R410/16 -] encapsulation key -/
  ek : Bytes := []
  /-- [3168B R409/16 -] decapsulation key; empty once erased -/
  dk : Bytes := []
  /-- [32B R411/16 -] H_R; empty until the report is returned -/
  hr : Bytes := []
  /-- [152B R411/16 -] okm: the session's keys and IVs; empty until SESSION_KEY -/
  okm : Bytes := []
  /-- [64b R414/16 -] SEQ of the next TOKENS record -/
  tokSeq : Nat := 0
  /-- [opt64b R414/16 -] highest SEQ accepted of a prompt record -/
  high : Option Nat := none
  /-- [list R414/16 -] SEQs accepted within the window of 64 -/
  win : List Nat := []
  deriving DecidableEq, Repr

/-- R363–R385: where a request stands. -/
inductive ReqPhase where
  | pulling | waiting | prefill | decoding | ended
  deriving DecidableEq, Repr

/-- R363: a request. -/
structure ReqState where
  /-- [1b R322/13 -] port -/
  p : Nat := 0
  /-- [5b R322/13 -] function -/
  f : Nat := 0
  /-- [6b R363/14 -] context -/
  ctx : Nat := 0
  /-- [32b R363/14 -] session -/
  sess : Nat := 0
  /-- [16b R331/13 -] SEQ of the letter -/
  seq : Nat := 0
  /-- [64b R331/13 -] COOKIE of the letter -/
  cookie : Nat := 0
  /-- [1b R325/13 -] NO_INTR of the letter -/
  noIntr : Bool := false
  /-- [64b R390/15 -] number at the meter -/
  serial : Nat := 0
  /-- [64b R363/14 -] PROMPT_BUS -/
  promptBus : Nat := 0
  /-- [32b R363/14 -] PROMPT_LEN -/
  promptLen : Nat := 0
  /-- [32b R363/14 -] MAX_OUT -/
  maxOut : Nat := 0
  /-- [64b R363/14 -] OUT_BUS -/
  outBus : Nat := 0
  /-- [32b R363/14 -] OUT_LEN -/
  outLen : Nat := 0
  /-- [16b R363/14 -] PER_REPLY -/
  perReply : Nat := 1
  /-- [- R383/15 -] phase -/
  phase : ReqPhase := .pulling
  /-- [224B R376/15 -] head of the prompt record: sampling settings and stop conditions -/
  head : Bytes := []
  /-- [list R377/15 -] tokens of the prompt -/
  prompt : List Nat := []
  /-- [list R378/15 -] tokens sampled and not discarded -/
  outp : List Nat := []
  /-- [Nat R364/14 -] of those, tokens sealed in records -/
  sealed : Nat := 0
  /-- [Nat R402/15 -] of those, tokens delivered: the reply of their record is stamped -/
  delivered : Nat := 0
  /-- [Nat R383/15 -] tokens prefilled since its admission -/
  filled : Nat := 0
  /-- [64b R383/15 -] number of its admission, 0 not admitted -/
  admitted : Nat := 0
  /-- [64b R383/15 -] place in the waiting queue: lower numbers first -/
  place : Int := 0
  /-- [3b R403/15 -] restarts -/
  restarts : Nat := 0
  /-- [4b R385/15 -] stack that holds its KV pages -/
  stack : Nat := 0
  /-- [32b R364/14 -] offset of the next record in the output range -/
  outOff : Nat := 0
  /-- [list R386/15 -] places of its offloaded 64 KiB pages in the context's spill space -/
  spilled : List Nat := []
  /-- [list R364/14 -] records (offset, bytes) whose TOKENS reply has not been given back -/
  outUsed : List (Nat × Nat) := []
  /-- [Nat R403/15 -] most tokens processed before its last restart or preemption -/
  seen : Nat := 0
  /-- [1b R364/14 -] waits for its output range -/
  held : Bool := false
  /-- [opt16b R366/14 -] status of its end, decided and not yet sent in the final reply -/
  fin : Option Nat := none
  /-- [1b R367/14 -] the final reply has been written -/
  finSent : Bool := false
  deriving DecidableEq, Repr

/-- R392: a period of the meter. -/
structure Period where
  /-- [64b R392/15 S] START -/
  start : Nat := 0
  /-- [64b R392/15 S] END, once closed -/
  stop : Nat := 0
  /-- [64b R392/15 S] TOKENS -/
  tokens : Nat := 0
  /-- [64b R392/15 S] REPREFILLED -/
  reprefilled : Nat := 0
  /-- [64b R392/15 S] BUSY_NS -/
  busy : Nat := 0
  /-- [64b R392/15 S] HELD_NS -/
  heldNs : Nat := 0
  /-- [8x32b R392/15 S] ARRIVED, ENDED, RESTARTS, PREEMPTED, ABORTED, CANCELLED, OVERRUN, WARNINGS -/
  counts : Tbl W32 := []
  /-- [160x64b R391/15 S] TTFT -/
  ttft : Tbl Nat := []
  /-- [160x64b R391/15 S] ITL -/
  itl : Tbl Nat := []
  deriving DecidableEq, Repr

/-- R394: a receipt period closed by CONTEXT_DESTROY with what its receipt needs. -/
structure LastReceipt where
  /-- [- R392/15 -] period -/
  period : Period := {}
  /-- [2b R394/15 -] PARTITION -/
  part : Nat := 0
  /-- [32b R394/15 -] MODEL -/
  model : Nat := 0
  /-- [32B R394/15 -] MODEL_DIGEST -/
  digest : Bytes := []
  /-- [64b R394/15 -] GENERATION at END -/
  generation : Nat := 0
  deriving DecidableEq, Repr

/-- The meter's state of a context ID (R390–R395). -/
structure MeterCtx where
  /-- [- R392/15 S] current window -/
  cur : Period := {}
  /-- [- R392/15 S] last window -/
  last : Period := {}
  /-- [- R395/15 S] receipt period -/
  rcpt : Period := {}
  /-- [opt64b R390/15 S] timebase since when the context is busy -/
  busySince : Option Nat := none
  /-- [3x1b R393/15 S] kinds warned of in this window: 1 rate, 2 time to first token, 3 inter-token gap -/
  warned : List Nat := []
  /-- [24B R370/14 S] CONTRACT_SET bytes 32–55 in effect; empty for none -/
  contract : Bytes := []
  /-- [64b R394/15 S] CONTRACT_SINCE -/
  since : Nat := 0
  /-- [list R388/15 S] declared mix: (CONTEXT_TOKENS, SHARE) -/
  mix : List (Nat × Nat) := []
  /-- [64b R394/15 S] RECEIPT of the next receipt -/
  nextRcpt : Nat := 1
  /-- [32B R394/15 S] digest of the previous receipt; empty if none -/
  prevDigest : Bytes := []
  /-- [1b R394/15 S] CONTRACT_CHANGED in the receipt period -/
  changed : Bool := false
  /-- [opt R395/15 S] last receipt period of a destroyed context -/
  lastRcpt : Option LastReceipt := none
  deriving DecidableEq, Repr

/-- R390: kinds of meter events. -/
inductive MeterKind where
  | arrive | first | token | hold | unhold
  /-- status of the end, and whether a final reply was stamped -/
  | end_ (status : Nat) (reply : Bool)
  deriving DecidableEq, Repr

/-- R390: what the meter keeps of a request. -/
structure MeterReq where
  /-- [6b R390/15 -] context -/
  ctx : Nat := 0
  /-- [64b R390/15 -] ARRIVE -/
  arrive : Nat := 0
  /-- [opt64b R390/15 -] last TOKEN -/
  lastTok : Option Nat := none
  /-- [opt64b R390/15 -] HOLD in progress -/
  holdAt : Option Nat := none
  /-- [64b R390/15 -] held time inside the running gap -/
  heldGap : Nat := 0
  deriving DecidableEq, Repr

/-- R381–R383: a step that runs. -/
structure StepRun where
  /-- [6b R383/15 -] context -/
  ctx : Nat := 0
  /-- [list R383/15 -] decode rows: requests -/
  rows : List Nat := []
  /-- [list R383/15 -] prefill rows: request and prompt tokens -/
  fill : List (Nat × Nat) := []
  /-- [64b R489/19 -] timebase of its start -/
  start : Nat := 0
  /-- [64b R489/19 -] predicted time in ns -/
  pred : Nat := 0
  deriving DecidableEq, Repr

/-- The sorting office's schedule of a partition (R381–R384). -/
structure SchedState where
  /-- [64b R381/15 S] timebase of the round's start -/
  roundStart : Nat := 0
  /-- [list R381/15 S] contexts that took their step in this round -/
  ran : List Nat := []
  /-- [64xns R381/15 S] deficits of the contexts without a target -/
  deficit : Tbl Nat := []
  /-- [opt R383/15 S] the step that runs -/
  run : Option StepRun := none
  deriving DecidableEq, Repr

/-- The sorting office and the service meter (chapter 15). -/
structure ServeState where
  /-- [<=16 R359/14 S] models by MODEL -/
  models : Tbl ModelState := []
  /-- [32b R359/14 S] MODEL of the next load -/
  nextModel : Nat := 1
  /-- [list R230/09 S] page tables in firmware memory -/
  tables : List PtTable := []
  /-- [list R369/14 S] device memory allocated -/
  allocs : List Alloc := []
  /-- [<=4096 R360/14 S] sessions by SESSION -/
  sessions : Tbl SessState := []
  /-- [32b R360/14 S] SESSION of the next session -/
  nextSess : Nat := 1
  /-- [<=16384 R363/14 S] requests by REQUEST, those ended kept until their final reply is given back -/
  reqs : Tbl ReqState := []
  /-- [32b R363/14 S] REQUEST of the next request -/
  nextReq : Nat := 1
  /-- [64b R383/15 S] number of the next admission -/
  nextAdmit : Nat := 1
  /-- [64b R383/15 S] place at the end of the waiting queue -/
  nextPlace : Int := 0
  /-- [64b R390/15 S] number of the next REQUEST_SUBMIT letter at the meter -/
  nextSerial : Nat := 1
  /-- [64 R390/15 S] meter by context ID -/
  meter : Tbl MeterCtx := []
  /-- [list R390/15 S] the meter's requests by number -/
  mreqs : Tbl MeterReq := []
  /-- [list R390/15 S] events posted and not yet stamped, oldest first: kind, number, context -/
  events : List (MeterKind × Nat × Nat) := []
  /-- [4 R381/15 S] schedule by partition -/
  sched : Tbl SchedState := []
  /-- [1b R184/06 S] all scheduling has stopped -/
  stopped : Bool := false
  deriving DecidableEq, Repr

/-! ## The root-of-trust processor (chapter 16) -/

/-- R424: debug states. -/
inductive DebugState where
  | locked | operator | vendor
  deriving DecidableEq, Repr

/-- R423: what a signature is for. -/
inductive SigKind where
  | attest | session (id : Nat) (chain : Bool) | receipt (ctx : Nat)
  deriving DecidableEq, Repr

/-- R423: a report or receipt to be signed for a letter. -/
structure SigJob where
  /-- [- R423/16 -] the letter -/
  src : LSrc := .mgmt 0
  /-- [- R423/16 -] kind -/
  kind : SigKind := .attest
  /-- [bytes R423/16 -] the snapshot, once the signature has started -/
  snap : Bytes := []
  /-- [1b R338/13 -] a port reset discarded its letter -/
  mute : Bool := false
  deriving DecidableEq, Repr

/-- What the RTP holds (R405–R426). -/
structure SecState where
  /-- [48B R405/16 S] attestation seed; empty before the ROM has run and once erased -/
  att : Bytes := []
  /-- [48B R405/16 S] debug seed -/
  dbg : Bytes := []
  /-- [64B R405/16 S] binding seed -/
  bind : Bytes := []
  /-- [bytes R406/16 S] DeviceID public key -/
  devPk : Bytes := []
  /-- [2xDER R406/16 S] certificates the ROM signed: 1 attestation, 2 debug -/
  certs : Tbl Bytes := []
  /-- [1b R406/16 S] UDS fuses locked -/
  udsLock : Bool := false
  /-- [2b R424/16 S] debug state -/
  debug : DebugState := .locked
  /-- [1b R424/16 D4] debug fuse blown -/
  debugFuse : Bool := false
  /-- [opt R423/16 S] the signature in progress -/
  sig : Option SigJob := none
  /-- [list R423/16 S] signatures that wait, in the order of their letters -/
  sigQ : List SigJob := []
  /-- [opt R426/16 S] a DEBUG_UNLOCK to VENDOR_DEBUG with a valid token that waits for the signature in progress -/
  unlock : Option LSrc := none
  /-- [opt R423/16 S] an FW_ACTIVATE that waits for the signature in progress -/
  activate : Option LSrc := none
  /-- [1b R410/16 S] a health test failed: the DRBG is stopped -/
  drbgStop : Bool := false
  /-- [64b R410/16 S] timebase when the source was restarted -/
  restartAt : Nat := 0
  /-- [64b R410/16 S] timebase of the last reseed -/
  reseeded : Nat := 0
  /-- [21b R410/16 S] generate requests since the last reseed -/
  generates : Nat := 0
  /-- [64x32B R409/16 S] context offload keys by context -/
  offload : Tbl Bytes := []
  /-- [64x64b R414/16 S] SEQ of the next PAGE record by context -/
  pageSeq : Tbl Nat := []
  /-- [bytes R496/19 S] result of the last BIST_RUN; empty if none -/
  bistResult : Bytes := []
  /-- [64b R496/19 S] timebase when the running BIST_RUN started -/
  bistStart : Nat := 0
  deriving DecidableEq, Repr

/-! ## The device as a whole (chapters 00, 01, 05, 18) -/

/-- Settings and status that belong to the whole device. -/
structure DevState where
  /-- [3b R352/14 S] off, starting, READY, UNFIT or SHUTTING_DOWN -/
  mode : DevMode := .off
  /-- [8b R352/14 S] UNFIT_CAUSE -/
  unfitCause : BitVec 8 := 0
  /-- [64b R422/16 S] GENERATION of the report: 0 until READY -/
  generation : Nat := 0
  /-- [img R466/18 S] firmware that runs -/
  image : FwImage := {}
  /-- [3b R23/01 S] partition layout: 1, 2 or 4 -/
  layout : Nat := 1
  /-- [6b R136/05 S] S in GiB: 0 without saved values -/
  spreadS : Nat := 0
  /-- [4x2x16b R135/05 S] spread shares (start, end) in GiB by partition; unlisted empty -/
  shares : Tbl (Nat × Nat) := []
  /-- [1b R148/05 S] bandwidth mode in effect: PRIORITY without a saved mode -/
  priority : Bool := true
  /-- [8064x17b R56/02 S] bad physical columns of each array in effect; unlisted none -/
  badCols : Tbl (List Nat) := []
  /-- [4x16b R399/15 S] ASID of the context that runs on each partition; unlisted 0, none -/
  partAsid : Tbl Nat := []
  /-- [12x5b R20/01 D4] physical position of the disabled cluster by site; unlisted 21 -/
  deadPos : Tbl Nat := []
  /-- [1b R495/19 S] a self-test is in progress -/
  bist : Bool := false
  /-- [list R473/18 S] sections of the saved settings, by TYPE, that a write is due for -/
  saveSecs : List Nat := []
  /-- [list R58/02 S] columns found failing since the start, by array: recorded, and in effect from the next start -/
  newCols : Tbl (List Nat) := []
  deriving DecidableEq, Repr

/-! ## The machine -/

/-- The state of the block. -/
structure State where
  /-- [list task D1 -] commands waiting, first in first out (the MODEL's own field) -/
  pending : List Instr := []
  /-- [Nat D6 -] free values taken so far (the MODEL's own field; no statement rests on it) -/
  fresh : Nat := 0
  /-- [list task D1 -] what the block has sent, newest first (the MODEL's own field: the trace of its outputs) -/
  out : List OutMsg := []
  /-- [64b R435/17 S] timebase in ns, counted in steps of 10 ns -/
  time : Nat := 0
  /-- [unit R23/01 S] the device as a whole -/
  dev : DevState := {}
  /-- [2016 R19/01 S] cores by number g -/
  cores : Tbl CoreState := []
  /-- [252 R19/01 S] clusters by number c -/
  clusters : Tbl ClusterState := []
  /-- [12 R19/01 S] stacks by number k -/
  hbm : Tbl StackState := []
  /-- [32 R19/01 S] hub DMA engines -/
  hubDma : Tbl DmaState := []
  /-- [392 R272/10 S] network interfaces by index -/
  netIf : Tbl NetIf := []
  /-- [672 R248/10 S] bulk routers by die code × 4096 + number -/
  routers : Tbl RouterState := []
  /-- [388 R272/10 S] post routers and stops by die code × 64 + number -/
  posts : Tbl PostState := []
  /-- [12 R19/01 S] sites by number n -/
  sites : Tbl SiteState := []
  /-- [4 R22/01 S] bridges: B01, B23, B02, B13 -/
  bridges : Tbl BridgeState := []
  /-- [unit R279/11 D4] fuses -/
  fuse : FuseState := {}
  /-- [unit R440/17 S] housekeeping and power -/
  pwr : PowerState := {}
  /-- [unit R464/18 D5] boot flash -/
  flash : FlashState := {}
  /-- [unit R506/20 D4] contacts and start -/
  board : BoardState := {}
  /-- [list R266/10 S] post messages that stand at the unit they are addressed to, oldest first -/
  mail : List PostMail := []
  /-- [unit R469/18 S] circular firmware load -/
  bcast : BcastState := {}
  /-- [<=64 R356/14 S] contexts by ID -/
  ctxs : Tbl CtxState := []
  /-- [4 R23/01 S] partitions' fault and reset state -/
  pstate : Tbl PartState := []
  /-- [unit R310/12 S] scale-up links -/
  links : LinkState := {}
  /-- [4 R19/01 S] winnow routers -/
  winnow : Tbl WinnowState := []
  /-- [16 R19/01 S] page sieve units -/
  sieve : Tbl SieveState := []
  /-- [16 R233/09 S] translation units -/
  xlate : Tbl XlateState := []
  /-- [unit R237/09 S] fault collector and fault bag -/
  bag : BagState := {}
  /-- [unit R244/09 S] access counters -/
  acc : AccState := {}
  /-- [256x32B R246/09 S] window table; unlisted invalid -/
  windows : Tbl WindowEnt := []
  /-- [64 R322/13 S] host functions by port × 32 + function -/
  hostFn : Tbl HostFunc := []
  /-- [2 R321/13 S] host ports -/
  hostPorts : Tbl HostPort := []
  /-- [unit R340/13 S] management path -/
  mgmt : MgmtState := {}
  /-- [list R348/14 S] letters taken and not yet answered, in the order taken -/
  letters : List LetterQ := []
  /-- [list R349/14 S] lasting work that runs -/
  works : List Work := []
  /-- [unit R374/15 S] sorting office and meter -/
  serve : ServeState := {}
  /-- [unit R404/16 S] root-of-trust processor -/
  sec : SecState := {}
  /-- [unit R490/19 S] logbook -/
  log : LogState := {}
  deriving DecidableEq, Repr

/-- The machine right after reset. -/
def State.reset : State := {}

/-- Why the machine stops with a fault. -/
inductive Fault where
  /-- Raised by a command that names a unit or a field value the package does not have (R19): no such command can
  reach the block. Safe: the model stops where the hardware has nothing to act on. -/
  | noSuchUnit (what : String) (n : Nat)
  deriving DecidableEq, Repr

/-- Why a command has no meaning. -/
inductive Refusal where
  /-- Raised by an arm of exec whose command is not modelled. Safe: the model stops. -/
  | notModelled (mnemonic : String)
  deriving DecidableEq, Repr

end Sys2Proof.Machine
end

