-- ==== Sys2Proof/Machine/Ops.lean ====
section
/-! DEFINITION. The named operations over the state: units by number, free values, unit identifiers and log messages. -/
namespace Sys2Proof.Machine

/-- What a command answers. -/
abbrev Out := Host.Outcome State Fault Refusal

/-! ## Units by number (R19) -/

/-- Core g. -/
def State.core (s : State) (g : Nat) : CoreState := tget {} s.cores g
/-- Replace core g. -/
def State.setCore (s : State) (g : Nat) (c : CoreState) : State := { s with cores := tset s.cores g c }
/-- Cluster c. -/
def State.cluster (s : State) (c : Nat) : ClusterState := tget {} s.clusters c
/-- Replace cluster c. -/
def State.setCluster (s : State) (c : Nat) (x : ClusterState) : State := { s with clusters := tset s.clusters c x }
/-- Stack k. -/
def State.stack (s : State) (k : Nat) : StackState := tget {} s.hbm k
/-- Replace stack k. -/
def State.setStack (s : State) (k : Nat) (x : StackState) : State := { s with hbm := tset s.hbm k x }
/-- Hub DMA engine e. -/
def State.hdma (s : State) (e : Nat) : DmaState := tget {} s.hubDma e
/-- Replace hub DMA engine e. -/
def State.setHdma (s : State) (e : Nat) (x : DmaState) : State := { s with hubDma := tset s.hubDma e x }
/-- Array a of a core. -/
def CoreState.arr (c : CoreState) (a : Nat) : ArrayState := tget {} c.arrays a
/-- Replace array a of a core. -/
def CoreState.setArr (c : CoreState) (a : Nat) (x : ArrayState) : CoreState := { c with arrays := tset c.arrays a x }
/-- Array a of core g. -/
def State.arr (s : State) (g a : Nat) : ArrayState := (s.core g).arr a
/-- Replace array a of core g. -/
def State.setArr (s : State) (g a : Nat) (x : ArrayState) : State := s.setCore g ((s.core g).setArr a x)

/-- Cluster of core g (R19). -/
def clusterOf (g : Nat) : Nat := g / 8
/-- Site of core g (R19). -/
def siteOfCore (g : Nat) : Nat := g / 168
/-- Field die of core g (R19). -/
def dieOfCore (g : Nat) : Nat := g / 504

/-- Answer a next state when a unit number is below its count, a fault by name otherwise. -/
def atUnit (what : String) (n count : Nat) (s : State) : Out :=
  if n < count then .next s else .fault (.noSuchUnit what n)

/-! ## Free values -/

/-- A fresh free number. -/
def State.freeNat (s : State) : Nat × State := (Config.freeNat s.fresh, { s with fresh := s.fresh + 1 })

/-- A fresh free byte string of n bytes. -/
def State.freeBytes (s : State) (n : Nat) : Bytes × State :=
  ((List.range n).map (Config.freeByte s.fresh), { s with fresh := s.fresh + 1 })

/-! ## Unit identifiers (R22) -/

/-- Unit identifier of CLASS and INDEX. -/
def uid (cls idx : Nat) : W32 := BitVec.ofNat 32 (cls * 2 ^ 24 + idx)

/-- Identifier of a stack. -/
def uidStack (k : Nat) : W32 := uid 0x09 k
/-- Identifier of a core. -/
def uidCore (g : Nat) : W32 := uid 0x04 g
/-- Identifier of a cluster. -/
def uidCluster (c : Nat) : W32 := uid 0x03 c
/-- Identifier of the root-of-trust processor. -/
def uidRtp : W32 := uid 0x11 0

/-! ## Log messages (R490–R493) -/

/-- SEVERITY of a code (R493). -/
def logSev : Nat → Nat
  | 0x0101 | 0x0105 | 0x0201 | 0x0202 | 0x0203 | 0x0301 | 0x0305 | 0x0401 | 0x0406 | 0x0502 | 0x0504
  | 0x0601 | 0x0602 | 0x0603 | 0x0605 => 2
  | 0x0106 | 0x0109 | 0x0701 | 0x0702 => 0
  | 0x010A | 0x0607 => 3
  | _ => 1

/-- Codes that also go as an EVENT reply (R493). -/
def logEvent : Nat → Bool
  | 0x0107 | 0x0108 | 0x010A | 0x0206 | 0x0401 | 0x0405 | 0x0406 | 0x0407 | 0x0501 | 0x0504 | 0x0601 | 0x0603
  | 0x0604 | 0x0605 | 0x0607 | 0x0702 => true
  | _ => false

/-- CLASS of a code (DEDUCED from the examples of R484, log 20): 0xFF for events that are not errors. -/
def logClass : Nat → Nat
  | 0x0101 | 0x0102 | 0x0103 | 0x0105 => 1
  | 0x0204 | 0x0205 | 0x0301 | 0x0302 | 0x0305 | 0x0402 => 2
  | 0x0201 | 0x0202 | 0x0203 | 0x0401 | 0x0406 | 0x0601 | 0x0602 | 0x0603 => 3
  | 0x010A | 0x0607 => 4
  | _ => 0xFF

/-- A message of a code about a unit, at the code's severity and class. -/
def mkMsg (code : Nat) (unit : W32) (addr : Nat) (detail : Bytes) : LogMsg :=
  { code := code, sev := logSev code, cls := logClass code, unit := unit, addr := addr, detail := detail }

/-- A message enters the controller's intake; with 256 waiting it is discarded and counted (R490). -/
def LogState.enter (l : LogState) (m : LogMsg) : LogState :=
  if l.intake.length < 256 then { l with intake := l.intake ++ [m] } else { l with dropped := l.dropped + 1 }

/-- A source's post: at most one entry per millisecond for each pair of CODE and UNIT, the occurrences in between
counted into the next; FATAL and PARTITION entries are never held back (R491). -/
def LogState.post (l : LogState) (now : Nat) (m : LogMsg) : LogState :=
  let m := { m with time := now }
  let key : LogRate → Bool := fun r => r.code == m.code && r.unit == m.unit
  match l.rates.find? key with
  | none =>
    LogState.enter { l with rates := l.rates ++ [{ code := m.code, unit := m.unit, last := now, pend := 0 }] } m
  | some r =>
    if now - r.last < 1000000 ∧ m.cls ≠ 3 ∧ m.cls ≠ 4 then
      { l with rates := updFirst key (fun r => { r with pend := r.pend + 1 }) l.rates }
    else
      LogState.enter { l with rates := updFirst key (fun r => { r with last := now, pend := 0 }) l.rates }
        { m with count := m.count + r.pend }

/-- Post a log message, its TIME stamped at the source. -/
def State.post (s : State) (m : LogMsg) : State := { s with log := s.log.post s.time m }

/-- Post a message of a code about a unit. -/
def State.logAt (s : State) (code : Nat) (unit : W32) (addr : Nat) (detail : Bytes) : State :=
  s.post (mkMsg code unit addr detail)

/-! ## Errors that a partition takes (R484, R486) -/

/-- Partition of field die f (R23). -/
def State.partOfDie (s : State) (f : Nat) : Nat := if s.dev.layout = 4 then f else if s.dev.layout = 2 then f / 2 else 0

/-- A partition's fault and reset state. -/
def State.part (s : State) (p : Nat) : PartState := tget {} s.pstate p
/-- Replace a partition's fault and reset state. -/
def State.setPart (s : State) (p : Nat) (x : PartState) : State := { s with pstate := tset s.pstate p x }

/-- A PARTITION error is reported to the sorting office (R484, R489); one that meets a reset joins it (R481). -/
def State.reportPart (s : State) (p code : Nat) : State :=
  let x := s.part p
  if x.phase = .none then s.setPart p { x with reports := x.reports ++ [(code, s.time)] } else s

/-- An agent of partition p that works for an ASID has consumed poison: the entry is logged, and the partition takes the
error; where the ASID is another context's than the one that runs, it takes it when that context next runs (R486, R401).
An issuer outside the partitions (p ≥ 4) has none to reset. -/
def State.consume (s : State) (p asid : Nat) (unit : W32) (consumer err addr : Nat) : State :=
  let ctx := (s.ctxs.find? (fun c => c.2.asid == asid && asid != 0)).map (·.1)
  let s := s.post { mkMsg 0x0201 unit addr (le 1 consumer ++ le 1 err) with ctx := ctx.getD 0xFFFF, part := if p < 4 then p else 0xFF }
  if 4 ≤ p then s
  else if asid = 0 ∨ asid = tget 0 s.dev.partAsid p then s.reportPart p 0x0201
  else match ctx with
    | some c => s.setPart p { s.part p with later := sins c (s.part p).later }
    | none => s

/-- Record a message sent. -/
def State.emit (s : State) (m : OutMsg) : State := { s with out := m :: s.out }

/-- A change that a section of the saved settings records (R473). -/
def State.trigSettings (s : State) (typ : Nat) : State := { s with dev := { s.dev with saveSecs := (typ :: s.dev.saveSecs.filter (· != typ)) } }

end Sys2Proof.Machine
end

