-- ==== Sys2Proof/Machine/Mem.lean ====
section
/-! DEFINITION. Device memory: the controllers' code (R165–R172), held writes, the granary slices (R137–R144),
the address map (R133, R134) and the memory-side adders (R157–R162). -/
namespace Sys2Proof.Machine

/-! ## The Reed–Solomon code of R165 -/

/-- Multiply by α in GF(2^8) with polynomial 0x11D. -/
def gfX (a : Nat) : Nat := if a < 128 then 2 * a else (2 * a) ^^^ 0x11D

/-- Shift-and-add product, one bit of `b` a step. -/
def gfMulN : Nat → Nat → Nat → Nat
  | 0, _, _ => 0
  | n + 1, a, b => (if b % 2 = 1 then a else 0) ^^^ gfMulN n (gfX a) (b / 2)

/-- Product in GF(2^8). -/
def gfMul (a b : Nat) : Nat := gfMulN 8 a b

/-- a^n. -/
def gfPow (a : Nat) : Nat → Nat
  | 0 => 1
  | n + 1 => gfMul a (gfPow a n)

/-- α^i. -/
def gfAlpha (i : Nat) : Nat := gfPow 2 i

/-- Inverse: a^254 = a^2 · a^4 · … · a^128. -/
def gfInv (a : Nat) : Nat :=
  let a2 := gfMul a a
  let a4 := gfMul a2 a2
  let a8 := gfMul a4 a4
  let a16 := gfMul a8 a8
  let a32 := gfMul a16 a16
  let a64 := gfMul a32 a32
  let a128 := gfMul a64 a64
  gfMul a2 (gfMul a4 (gfMul a8 (gfMul a16 (gfMul a32 (gfMul a64 a128)))))

/-- One step of the division by g(x), highest coefficient first; the remainder is (r3, r2, r1, r0). -/
def rsStep (r : Nat × Nat × Nat × Nat) (c : Nat) : Nat × Nat × Nat × Nat :=
  let fb := c ^^^ r.1
  (r.2.1 ^^^ gfMul 0x0F fb, r.2.2.1 ^^^ gfMul 0x36 fb, r.2.2.2 ^^^ gfMul 0x78 fb, gfMul 0x40 fb)

/-- The four check bytes of a sector with write tag T (R165). -/
def rsCheck (data : Bytes) (tag : Nat) : Bytes :=
  let r := ((data.map BitVec.toNat).reverse).foldl rsStep (rsStep (0, 0, 0, 0) tag)
  [BitVec.ofNat 8 r.2.2.2, BitVec.ofNat 8 r.2.2.1, BitVec.ofNat 8 r.2.1, BitVec.ofNat 8 r.1]

/-- Value of the word at α^j: coefficients lowest first. -/
def rsEval (x : Nat) : List Nat → Nat
  | [] => 0
  | c :: cs => c ^^^ gfMul x (rsEval x cs)

/-- The outcome of a read (R169). -/
inductive RdKind where
  | clean | corrected (n : Nat) | unwritten | poisoned | data
  deriving DecidableEq, Repr

/-- Position below 37 whose locator is x. -/
def rsPos (x : Nat) : Option Nat := (List.range 37).find? (fun i => gfAlpha i == x)

/-- The error pattern of at most two symbols with these syndromes, as (position, value); none when decoding fails. -/
def rsErrors (s0 s1 s2 s3 : Nat) : Option (List (Nat × Nat)) :=
  if s0 = 0 ∧ s1 = 0 ∧ s2 = 0 ∧ s3 = 0 then some []
  else
    let det := gfMul s0 s2 ^^^ gfMul s1 s1
    if det = 0 then
      if s0 = 0 then none
      else
        let x := gfMul s1 (gfInv s0)
        if gfMul s1 x = s2 ∧ gfMul s2 x = s3 then (rsPos x).map (fun p => [(p, s0)]) else none
    else
      let di := gfInv det
      let a := gfMul (gfMul s1 s2 ^^^ gfMul s0 s3) di
      let b := gfMul (gfMul s1 s3 ^^^ gfMul s2 s2) di
      match (List.range 37).filter (fun i => let x := gfAlpha i; gfMul x x ^^^ gfMul a x ^^^ b == 0) with
      | [p, q] =>
        let x := gfAlpha p
        let y := gfAlpha q
        let e2 := gfMul (s1 ^^^ gfMul s0 x) (gfInv (x ^^^ y))
        let e1 := s0 ^^^ e2
        if e1 = 0 ∨ e2 = 0 then none else some [(p, e1), (q, e2)]
      | _ => none

/-- XOR an error into the data bytes; positions 0–3 are check bytes and 36 the tag. -/
def rsFix (data : Bytes) (es : List (Nat × Nat)) : Bytes :=
  es.foldl (fun d e => if 4 ≤ e.1 ∧ e.1 < 36 then d.set (e.1 - 4) ((d.getD (e.1 - 4) 0) ^^^ BitVec.ofNat 8 e.2) else d) data

/-- Decode a sector and its check bytes with the block's epoch as T (R168, R169). -/
def rsDecode (data check : Bytes) (epoch : Nat) : RdKind × Bytes :=
  let word := check.map BitVec.toNat ++ data.map BitVec.toNat ++ [epoch]
  match rsErrors (rsEval 1 word) (rsEval 2 word) (rsEval 4 word) (rsEval 8 word) with
  | none => (.data, data)
  | some es =>
    match es.find? (fun e => e.1 == 36) with
    | some e => (if e.2 ^^^ epoch = 0xFF then .poisoned else .unwritten, rsFix data es)
    | none => (if es = [] then .clean else .corrected es.length, rsFix data es)

/-! ## Placement in the stack (R131, R166, R177) -/

/-- Pseudo-channel of a sector. -/
def secPc (sn : Nat) : Nat := sn % 64
/-- Controller row of a sector. -/
def secRow (sn : Nat) : Nat := sn / 64 / 56
/-- Data-sector slot of a sector within its row. -/
def secSlot (sn : Nat) : Nat := sn / 64 % 56
/-- Number of the model's raw byte: pseudo-channel, row, slot of 32 bytes, byte. -/
def rawAddr (pc row slot byte : Nat) : Nat := ((pc * 524288 + row) * 64 + slot) * 32 + byte

/-- Valid remap entry that redirects a sector. -/
def StackState.remapOf (st : StackState) (sn : Nat) : Option (Nat × RemapEnt) :=
  st.remap.find? (fun e => e.2.valid && e.2.sector == sn)

/-- Epoch of a sector's block (R168). -/
def StackState.epochOf (st : StackState) (sn : Nat) : Nat := tget 0 st.epochs (sn / 2 ^ 25)

/-- A sector as stored: data and check bytes, through the remap table. -/
def StackState.rawSec (st : StackState) (sn : Nat) : Bytes × Bytes :=
  match st.remapOf sn with
  | some (_, e) => (mread st.raw (rawAddr (secPc sn) e.spareRow 63 0) 32, le 4 e.check.toNat)
  | none =>
    (mread st.raw (rawAddr (secPc sn) (secRow sn) (secSlot sn) 0) 32,
     mread st.raw (rawAddr (secPc sn) (secRow sn) 56 (4 * secSlot sn)) 4)

/-- Store a sector's data and check bytes, through the remap table. -/
def StackState.setRawSec (st : StackState) (sn : Nat) (data check : Bytes) : StackState :=
  match st.remapOf sn with
  | some (i, e) =>
    { st with
      raw := mwrite st.raw (rawAddr (secPc sn) e.spareRow 63 0) data
      remap := tset st.remap i { e with check := BitVec.ofNat 32 (unle check) } }
  | none =>
    { st with
      raw := mwrite (mwrite st.raw (rawAddr (secPc sn) (secRow sn) (secSlot sn) 0) data)
        (rawAddr (secPc sn) (secRow sn) 56 (4 * secSlot sn)) check }

/-- Add to one counter of a table of 64-bit counters. -/
def cnt (t : Tbl W64) (i n : Nat) : Tbl W64 := tset t i (tget 0 t i + BitVec.ofNat 64 n)

/-- Spend n tokens of a class's bucket in REGULATED mode (R150). -/
def StackState.spend (st : StackState) (priority : Bool) (cls n : Nat) : StackState :=
  if priority then st
  else
    let b := tget {} st.buckets cls
    { st with buckets := tset st.buckets cls { b with tokens := b.tokens - n } }

/-- A burst that writes a sector: encoded with the block's epoch, or with tag 0xFF for poison (R168, R485), with the
armed flip mask applied after encoding (R182). -/
def StackState.burstWrite (st : StackState) (sn : Nat) (data : Bytes) (poison : Bool) : StackState :=
  let check := rsCheck data (if poison then 0xFF else st.epochOf sn)
  let armed := st.flipCtl.getLsbD 63 && (st.flipCtl.getLsbD 62 || bf st.flipCtl 30 0 == sn)
  let st := { st with memCount := cnt st.memCount 1 1, ondie := tdel st.ondie sn }
  if armed then
    StackState.setRawSec { st with flipCtl := setBf st.flipCtl 63 63 0 } sn (flipBytes data st.flipData.toNat)
      (flipBytes check st.flipCheck.toNat)
  else st.setRawSec sn data check

/-- Counter of INTEG_COUNT that an outcome advances. -/
def RdKind.counter : RdKind → Option Nat
  | .clean => none
  | .corrected n => some (if n = 1 then 0 else 1)
  | .data => some 2
  | .unwritten => some 3
  | .poisoned => some 4

/-- Is the outcome one of the three that return an uncorrectable error. -/
def RdKind.bad : RdKind → Bool
  | .clean | .corrected _ => false
  | _ => true

/-- A burst that reads a sector and decodes it; outcome and on-die severity are counted (R164, R175). -/
def StackState.burstRead (st : StackState) (sn : Nat) : RdKind × Bytes × StackState :=
  let (d, c) := st.rawSec sn
  let (kind, data) := rsDecode d c (st.epochOf sn)
  let i1 := match kind.counter with
    | some i => cnt st.integ i 1
    | none => st.integ
  let i2 := match tget 0 st.ondie sn with
    | 1 => cnt i1 5 1
    | 2 => cnt i1 6 1
    | _ => i1
  (kind, data, { st with integ := i2, memCount := cnt st.memCount 0 1 })

/-- Issue the held writes of which `p` holds, oldest first (R153). -/
def StackState.issueHeld (st : StackState) (p : HeldWrite → Bool) : StackState :=
  (st.held.filter p).foldl (fun st h => st.burstWrite h.sector h.data h.poison)
    { st with held := st.held.filter (fun h => !p h) }

/-- A whole-sector write reaches the controller and is held (R153). -/
def StackState.holdWrite (st : StackState) (priority : Bool) (cls sn : Nat) (data : Bytes) (poison : Bool) : StackState :=
  StackState.spend { st with held := st.held ++ [{ sector := sn, data := data, poison := poison, cls := cls }] } priority cls 1

/-! ## The address map (R133, R134) -/

/-- Bytes of one GiB. -/
def gib : Nat := 2 ^ 30

/-- Where a device physical address lies. -/
inductive Place where
  | dev (k a : Nat) | hub (off : Nat) | host (off : Nat) | remote (off : Nat) | none
  deriving DecidableEq, Repr

/-- Stack and stack data address of a spread offset (R134). -/
def spreadPlace (S o : Nat) : Place :=
  let granule := o / 4096
  .dev (granule % 12) ((56 - S) * gib + granule / 12 * 4096 + o % 4096)

/-- The address map of R133. -/
def place (S phys : Nat) : Place :=
  if phys < 0xC000000000 then
    if phys % 2 ^ 36 < (56 - S) * gib then .dev (phys / 2 ^ 36) (phys % 2 ^ 36) else .none
  else if phys < 0xF000000000 then
    if phys - 0xC000000000 < min (12 * S) 192 * gib then spreadPlace S (phys - 0xC000000000) else .none
  else if phys < 0xF100000000 then .hub (phys - 0xF000000000)
  else if phys < 0x100000000000 then
    if phys - 0xF100000000 < (12 * S - 192) * gib then spreadPlace S (phys - 0xF100000000 + 192 * gib) else .none
  else if phys < 0x200000000000 then .host (phys - 0x100000000000)
  else if phys < 0x400000000000 then .remote (phys - 0x200000000000)
  else .none

/-- Device physical address of a stack data address. -/
def physOf (S k a : Nat) : Nat :=
  if a < (56 - S) * gib then k * 2 ^ 36 + a
  else
    let x := a - (56 - S) * gib
    let o := (x / 4096 * 12 + k) * 4096 + x % 4096
    if o < 192 * gib then 0xC000000000 + o else 0xC100000000 + o

/-! ## Reads and writes at the controller -/

/-- What reading one sector gave: its bytes, whether they are poisoned, and the outcome. -/
structure SecRd where
  data : Bytes
  poison : Bool
  deriving DecidableEq, Repr

/-- Rows of a pseudo-channel with uncorrectable reads in the last 100 ms; at 16 the stack is lost (R183). -/
def StackState.badRow (st : StackState) (now sn : Nat) : StackState :=
  let pc := secPc sn
  let recent := st.badRows.filter (fun r => now - r.2.2 < 100000000 && !(r.1 == pc && r.2.1 == secRow sn))
  let rows := (pc, secRow sn, now) :: recent
  if (rows.filter (fun r => r.1 == pc)).length ≥ 16 ∧ ¬ st.lost then
    { st with badRows := rows, lost := true, lossCause := 3 }
  else { st with badRows := rows }

/-- A sector is judged to have a hard fault: it waits to be remapped, or with all 32 entries valid is only logged
(R176, R178). -/
def State.judge (s : State) (k sn : Nat) : State :=
  let st := s.stack k
  if (st.remap.filter (fun e => e.2.valid)).length ≥ 32 ∧ (st.remapOf sn).isNone then
    s.logAt 0x0107 (uidStack k) (physOf s.dev.spreadS k (sn * 32)) []
  else s.setStack k { st with hard := sins sn st.hard }

/-- Log a read outcome and the on-die report (R164, R175). -/
def State.logRead (s : State) (k sn : Nat) (kind : RdKind) (reader : W32) : State :=
  let addr := physOf s.dev.spreadS k (sn * 32)
  let s := match kind with
    | .data => ((s.logAt 0x0101 (uidStack k) addr (le 4 reader.toNat)).setStack k ((s.stack k).badRow s.time sn)).judge k sn
    | .unwritten => s.logAt 0x0102 (uidStack k) addr (le 4 reader.toNat)
    | .poisoned => s.logAt 0x0103 (uidStack k) addr (le 4 reader.toNat)
    | _ => s
  if tget 0 (s.stack k).ondie sn = 2 then
    s.logAt 0x0104 (uidStack k) addr (le 1 (secPc sn) ++ le 4 (secRow sn))
  else s

/-- A controller read of a sector: a waiting write answers it (R139), otherwise a burst; an uncorrectable outcome
returns free bytes marked poisoned (R169, R175; log 6). -/
def State.ctlRead (s : State) (k sn : Nat) (iss : Issuer) : RdKind × SecRd × State :=
  let st := s.stack k
  match (st.held.reverse.find? (fun h => h.sector == sn)) with
  | some h => (if h.poison then .poisoned else .clean, { data := h.data, poison := h.poison }, s)
  | none =>
    let (kind, data, st) := (st.spend s.dev.priority iss.cls 1).burstRead sn
    let s := (s.setStack k st).logRead k sn kind iss.unit
    if kind.bad then
      let (d, s) := s.freeBytes 32
      (kind, { data := d, poison := true }, s)
    else (kind, { data := data, poison := false }, s)

/-- The masked write of R171 and R172: one unit of a read and a write at the controller. Answers whether an
uncorrectable error is reported to the issuer. -/
def State.maskedWrite (s : State) (k sn : Nat) (new : Bytes) (mask : Nat) (poison : Bool) (iss : Issuer) : Bool × State :=
  let s := s.setStack k ((s.stack k).issueHeld (fun h => h.sector == sn))
  let (kind, r, s) := s.ctlRead k sn iss
  let base := if kind = .unwritten then zeros 32 else r.data
  let st := s.stack k
  let st := StackState.spend { st with integ := cnt st.integ 7 1 } s.dev.priority iss.cls 1
  let s := s.setStack k (st.burstWrite sn (mergeMask base new mask) (poison || kind.bad))
  if kind.bad && !poison then
    (true, s.logAt 0x0105 (uidStack k) (physOf s.dev.spreadS k (sn * 32)) (le 4 iss.unit.toNat))
  else (false, s)

/-! ## The granary slice -/

/-- Sector i of a line. -/
def Line.sec (l : Line) : Nat → Sec
  | 0 => l.s0
  | 1 => l.s1
  | 2 => l.s2
  | _ => l.s3

/-- Replace sector i of a line. -/
def Line.setSec (l : Line) (i : Nat) (x : Sec) : Line :=
  match i with
  | 0 => { l with s0 := x }
  | 1 => { l with s1 := x }
  | 2 => { l with s2 := x }
  | _ => { l with s3 := x }

/-- Has the line a valid sector. -/
def Line.live (l : Line) : Bool := l.s0.valid || l.s1.valid || l.s2.valid || l.s3.valid

/-- The sectors of a line that are valid and dirty, as (sector index, sector). -/
def Line.dirtySecs (l : Line) : List (Nat × Sec) :=
  [(0, l.s0), (1, l.s1), (2, l.s2), (3, l.s3)].filter (fun x => x.2.valid && x.2.dirty)

/-- Every sector of a line clean. -/
def Line.clean (l : Line) : Line :=
  { l with s0 := { l.s0 with dirty := false }, s1 := { l.s1 with dirty := false },
           s2 := { l.s2 with dirty := false }, s3 := { l.s3 with dirty := false } }

/-- Set of a line number in a slice (R137). -/
def granSet (tag : Nat) : Nat := (tag % 65536) ^^^ (tag / 65536 % 65536)

/-- Quota of a partition in lines of 128 bytes (R145). -/
def StackState.quotaLines (st : StackState) (p : Nat) : Nat := bf st.quota (8 * p + 7) (8 * p) * 8192

/-- Protected lines of a partition. -/
def StackState.keepUsed (st : StackState) (p : Nat) : Nat := (st.lines.filter (fun l => l.prot == some p)).length

/-- Write the dirty sectors of a line to the controller, counted as written back. -/
def StackState.evictLine (st : StackState) (priority : Bool) (cls : Nat) (l : Line) : StackState :=
  l.dirtySecs.foldl
    (fun st x => StackState.holdWrite { st with granCount := cnt st.granCount 2 1 } priority cls (l.tag * 4 + x.1) x.2.data x.2.poison) st

/-- Protect a line under KEEP for a partition with quota left and fewer than 16 protected ways in its set (R144). -/
def StackState.protect (st : StackState) (iss : Issuer) (l : Line) : Line :=
  if iss.cls < 4 ∧ l.prot = none ∧ st.keepUsed iss.cls < st.quotaLines iss.cls
      ∧ (st.lines.filter (fun x => granSet x.tag == granSet l.tag && x.prot.isSome)).length < 16 then
    { l with prot := some iss.cls }
  else l

/-- Hint codes of R141. -/
def hintNormal : Nat := 0
/-- STREAM -/
def hintStream : Nat := 1
/-- KEEP -/
def hintKeep : Nat := 2
/-- LAST -/
def hintLast : Nat := 3

/-- Make a line the most recent of its slice, evicting the least recently used unprotected way of a full set. -/
def StackState.putFront (st : StackState) (priority : Bool) (cls : Nat) (l : Line) : StackState :=
  let others := st.lines.filter (fun x => x.tag != l.tag)
  let way := others.filter (fun x => granSet x.tag == granSet l.tag)
  if way.length < 24 then { st with lines := l :: others }
  else
    match (way.reverse.find? (fun x => x.prot.isNone)) with
    | some v => { st.evictLine priority cls v with lines := l :: others.filter (fun x => x.tag != v.tag) }
    | none => { st with lines := l :: others }

/-- Replace a line in place, dropping it when it has no valid sector left. -/
def StackState.putLine (st : StackState) (l : Line) : StackState :=
  { st with lines := if l.live then st.lines.map (fun x => if x.tag == l.tag then l else x)
                     else st.lines.filter (fun x => x.tag != l.tag) }

/-- The line of a sector, if the slice holds one. -/
def StackState.lineOf (st : StackState) (sn : Nat) : Option Line := st.lines.find? (fun l => l.tag == sn / 4)

/-- A read of one sector at the slice, by its hint (R141, R143, R144, R175). -/
def State.sliceRead (s : State) (k sn hint : Nat) (iss : Issuer) : SecRd × State :=
  let st := s.stack k
  let pr := s.dev.priority
  match st.lineOf sn with
  | some l =>
    let x := l.sec (sn % 4)
    if x.valid then
      let st := { st with granCount := cnt st.granCount 0 1 }
      let r : SecRd := { data := x.data, poison := x.poison }
      if hint = hintLast then
        let st := if x.dirty then { st with granCount := cnt st.granCount 3 1 } else st
        (r, s.setStack k (st.putLine (l.setSec (sn % 4) {})))
      else if hint = hintStream then (r, s.setStack k st)
      else (r, s.setStack k (st.putFront pr iss.cls (if hint = hintKeep then st.protect iss l else l)))
    else
      let (kind, r, s) := (s.setStack k { st with granCount := cnt st.granCount 1 1 }).ctlRead k sn iss
      if kind.bad ∨ hint = hintStream ∨ hint = hintLast then (r, s)
      else
        let l := l.setSec (sn % 4) { valid := true, data := r.data, poison := r.poison }
        (r, s.setStack k ((s.stack k).putFront pr iss.cls (if hint = hintKeep then (s.stack k).protect iss l else l)))
  | none =>
    let (kind, r, s) := (s.setStack k { st with granCount := cnt st.granCount 1 1 }).ctlRead k sn iss
    if kind.bad ∨ hint = hintStream ∨ hint = hintLast then (r, s)
    else
      let l := ({ tag := sn / 4, asid := iss.asid } : Line).setSec (sn % 4) { valid := true, data := r.data, poison := r.poison }
      (r, s.setStack k ((s.stack k).putFront pr iss.cls (if hint = hintKeep then (s.stack k).protect iss l else l)))

/-- A write or memory-side operation clears every reservation on its sector (R162). -/
def State.clearResv (s : State) (k sn : Nat) : State :=
  { s with cores := s.cores.map (fun e => if e.2.resv == some (k, sn) then (e.1, { e.2 with resv := none }) else e) }

/-- Every byte of a sector. -/
def fullMask : Nat := 2 ^ 32 - 1

/-- A write of the bytes of one sector that `mask` names, at the slice, by its hint (R141, R171, R172, R485). Answers
whether an uncorrectable error is reported. -/
def State.sliceWrite (s : State) (k sn hint : Nat) (new : Bytes) (mask : Nat) (poison : Bool) (iss : Issuer) : Bool × State :=
  let s := s.clearResv k sn
  let st := s.stack k
  let pr := s.dev.priority
  let full := mask = fullMask
  match st.lineOf sn with
  | some l =>
    let x := l.sec (sn % 4)
    if full ∨ x.valid then
      let data := mergeMask (if x.valid then x.data else zeros 32) new mask
      let pz := if full then poison else poison || x.poison
      let l' := l.setSec (sn % 4) { valid := true, dirty := true, poison := pz, data := data }
      if hint = hintLast then
        (false, s.setStack k ((st.holdWrite pr iss.cls sn data pz).putLine (l.setSec (sn % 4) {})))
      else if hint = hintStream then (false, s.setStack k (st.putLine l'))
      else (false, s.setStack k (st.putFront pr iss.cls (if hint = hintKeep then st.protect iss l' else l')))
    else s.maskedWrite k sn new mask poison iss
  | none =>
    if full then
      if hint = hintStream ∨ hint = hintLast then (false, s.setStack k (st.holdWrite pr iss.cls sn new poison))
      else
        let l := ({ tag := sn / 4, asid := iss.asid } : Line).setSec (sn % 4) { valid := true, dirty := true, poison := poison, data := new }
        (false, s.setStack k (st.putFront pr iss.cls (if hint = hintKeep then st.protect iss l else l)))
    else s.maskedWrite k sn new mask poison iss

/-- The bytes a sector holds now: granary copy, write held by the controller, or memory. -/
def StackState.peekSec (st : StackState) (sn : Nat) : Bytes :=
  match (st.lineOf sn).map (fun l => l.sec (sn % 4)) with
  | some x => if x.valid then x.data else peekMem
  | none => peekMem
where
  /-- Below the granary. -/
  peekMem : Bytes :=
    match st.held.reverse.find? (fun h => h.sector == sn) with
    | some h => h.data
    | none => let (d, c) := st.rawSec sn; (rsDecode d c (st.epochOf sn)).2

/-- May stack k serve accesses: filled (R167) and not lost (R184). -/
def StackState.serves (st : StackState) : Bool := st.fillDone && !st.lost

/-- A memory-side operation on one sector (R159, R160): on a valid granary copy, or on memory as one unit. `f` maps the
sector's bytes to the new ones. Answers the old bytes and whether an error is reported. -/
def State.memopSector (s : State) (k sn : Nat) (f : Bytes → Bytes) (iss : Issuer) : Bytes × Bool × State :=
  let st := s.stack k
  let fail (s : State) : State :=
    s.consume iss.cls iss.asid (uidStack k) 4 3 (physOf s.dev.spreadS k (sn * 32))
  let copy := (st.lineOf sn).bind (fun l => if (l.sec (sn % 4)).valid then some (l, l.sec (sn % 4)) else none)
  match copy with
  | some (l, x) =>
    if x.poison then (x.data, true, fail s)
    else
      (x.data, false,
        s.setStack k (st.putLine (l.setSec (sn % 4) { x with dirty := true, data := f x.data })))
  | none =>
    let s := s.setStack k (st.issueHeld (fun h => h.sector == sn))
    let (kind, r, s) := s.ctlRead k sn iss
    let st := (s.stack k).spend s.dev.priority iss.cls 1
    if kind.bad then
      (r.data, true, fail (s.setStack k (st.burstWrite sn r.data true)))
    else (r.data, false, s.setStack k (st.burstWrite sn (f r.data) false))

/-! ## Accesses of any length -/

/-- How an access ended: well, with an uncorrectable error (status 0x03), refused by a remote device (0x05), with an
error response (0x01), or not yet: it waits for a remote answer. -/
inductive MemSt where
  | ok | unc | rem | err | wait
  deriving DecidableEq, Repr

/-- Rank of an ending. -/
def MemSt.rank : MemSt → Nat
  | .ok => 0
  | .unc => 1
  | .rem => 2
  | .err => 3
  | .wait => 4

/-- The worse of two endings. -/
def MemSt.join (a b : MemSt) : MemSt := if a.rank < b.rank then b else a

/-- The sector parts of a byte range: (address of the part, its length), at most `fuel` of them. -/
def parts (unit : Nat) : Nat → Nat → Nat → List (Nat × Nat)
  | 0, _, _ => []
  | fuel + 1, a, len =>
    if len = 0 then []
    else
      let n := min len (unit - a % unit)
      (a, n) :: parts unit fuel (a + n) (len - n)

/-- The sector parts of a byte range. -/
def secParts (a len : Nat) : List (Nat × Nat) := parts 32 (len / 32 + 2) a len

/-- Bytes with one poison mark each. -/
abbrev PBytes := List (Byte × Bool)

/-- Bytes all carrying one mark. -/
def mark (p : Bool) (bs : Bytes) : PBytes := bs.map (fun b => (b, p))

/-- Read a range of device memory by physical address. -/
def State.devRead (s : State) (iss : Issuer) (phys len hint : Nat) : PBytes × MemSt × State :=
  (secParts phys len).foldl
    (fun (acc : PBytes × MemSt × State) p =>
      let (bs, st, s) := acc
      match place s.dev.spreadS p.1 with
      | .dev k a =>
        if (s.stack k).serves then
          let (r, s) := s.sliceRead k (a / 32) hint iss
          (bs ++ mark r.poison (slice r.data (a % 32) p.2), st.join (if r.poison then .unc else .ok), s)
        else (bs ++ mark false (zeros p.2), .err, s)
      | _ => (bs ++ mark false (zeros p.2), .err, s))
    ([], .ok, s)

/-- Write a range of device memory by physical address; byte i is written when bit i of `mask` is set. -/
def State.devWriteM (s : State) (iss : Issuer) (phys : Nat) (bs : PBytes) (mask : Nat) (hint : Nat) : MemSt × State :=
  (secParts phys bs.length).foldl
    (fun (acc : MemSt × State) p =>
      let (st, s) := acc
      let off := p.1 - phys
      let m := (mask >>> off) % 2 ^ p.2
      match place s.dev.spreadS p.1 with
      | .dev k a =>
        if (s.stack k).serves then
          if m = 0 then acc
          else
            let part := (bs.drop off).take p.2
            let new := zeros (a % 32) ++ part.map (·.1) ++ zeros (32 - a % 32 - p.2)
            let (e, s) := s.sliceWrite k (a / 32) hint new (m <<< (a % 32)) (part.any (·.2)) iss
            (st.join (if e then .unc else .ok), s)
        else (.err, s)
      | _ => (.err, s))
    (.ok, s)

/-- Write every byte of a range. -/
def State.devWrite (s : State) (iss : Issuer) (phys : Nat) (bs : PBytes) (hint : Nat) : MemSt × State :=
  s.devWriteM iss phys bs (2 ^ bs.length - 1) hint

/-- One memory-side operation on an element of `n` bytes (R157, R159): `f` maps the old element to the new one. An element
that crosses a sector is applied as two parts of one read-modify-write each, the second at `phys2`. Answers the old
element. -/
def State.memop2 (s : State) (iss : Issuer) (phys phys2 n : Nat) (f : Nat → Nat) : Nat × MemSt × State :=
  match place s.dev.spreadS phys with
  | .dev k a =>
    if (s.stack k).serves then
      let s := s.clearResv k (a / 32)
      if a % 32 + n ≤ 32 then
        let g (b : Bytes) : Bytes := putBytes b (a % 32) (le n (f (rd b (a % 32) n)))
        let (old, e, s) := s.memopSector k (a / 32) g iss
        (rd old (a % 32) n, if e then .unc else .ok, s)
      else
        match place s.dev.spreadS phys2 with
        | .dev k2 a2 =>
          if (s.stack k2).serves then
            let n1 := 32 - a % 32
            let s := s.clearResv k2 (a2 / 32)
            -- the whole old element fixes both parts
            let old := unle (slice ((s.stack k).peekSec (a / 32)) (a % 32) n1 ++ slice ((s.stack k2).peekSec (a2 / 32)) 0 (n - n1))
            let new := le n (f old)
            let (_, e1, s) := s.memopSector k (a / 32) (fun b => putBytes b (a % 32) (new.take n1)) iss
            let (_, e2, s) := s.memopSector k2 (a2 / 32) (fun b => putBytes b 0 (new.drop n1)) iss
            (old, if e1 || e2 then .unc else .ok, s)
          else (0, .err, s)
        | _ => (0, .err, s)
    else (0, .err, s)
  | _ => (0, .err, s)

/-- A memory-side operation on an element at consecutive physical addresses. -/
def State.memop (s : State) (iss : Issuer) (phys n : Nat) (f : Nat → Nat) : Nat × MemSt × State :=
  s.memop2 iss phys (phys / 32 * 32 + 32) n f

end Sys2Proof.Machine
end

