-- ==== Sys2Proof/Machine/CoreMem.lean ====
section
/-! DEFINITION. Core-local memory (R93), its poison marks (R485), the hopper's FULL bits and ring (R111–R114), and the
completion queue (R102). -/
namespace Sys2Proof.Machine

/-- Core-local bases of R93. -/
def clHopEnd : Nat := 0x80000
/-- Start of vector memory. -/
def clVm : Nat := 0x80000
/-- End of vector memory. -/
def clVmEnd : Nat := 0xC0000
/-- Cell (row, column) of array a's accumulator. -/
def clAcc (a r c : Nat) : Nat := 0xC0000 + a * 0x4000 + r * 1024 + c * 4
/-- Byte x of array a's input store. -/
def clIn (a x : Nat) : Nat := 0x100000 + a * 0x10000 + x

/-- Read n bytes of core-local memory. -/
def CoreState.rdm (c : CoreState) (a n : Nat) : Bytes := mread c.mem a n

/-- Does a range touch a poisoned 32-byte unit. -/
def CoreState.pzAny (c : CoreState) (a n : Nat) : Bool :=
  n != 0 && c.poison.any (fun u => a / 32 ≤ u && u ≤ (a + n - 1) / 32)

/-- Bytes with their unit's poison mark. -/
def CoreState.rdp (c : CoreState) (a n : Nat) : PBytes :=
  (c.rdm a n).zipIdx.map (fun x => (x.1, c.poison.contains ((a + x.2) / 32)))

/-- The poison list after a write of `n` bytes at `a` carrying mark `p`, a unit at a time: a write of a whole unit sets or
clears the mark, a partial one keeps a mark already there (R485). -/
def pzWrite (l : List Nat) (a n : Nat) (p : Bool) : List Nat :=
  (parts 32 (n / 32 + 2) a n).foldl
    (fun l x => if p then sins (x.1 / 32) l else if x.2 = 32 then srem (x.1 / 32) l else l) l

/-- Write bytes that carry no poison. -/
def CoreState.wrm (c : CoreState) (a : Nat) (bs : Bytes) : CoreState :=
  { c with mem := mwrite c.mem a bs, poison := pzWrite c.poison a bs.length false }

/-- Write bytes with marks, a 32-byte unit at a time. -/
def CoreState.wrp (c : CoreState) (a : Nat) (bs : PBytes) : CoreState :=
  (parts 32 (bs.length / 32 + 2) a bs.length).foldl
    (fun c x =>
      let p := ((bs.drop (x.1 - a)).take x.2)
      { c with mem := mwrite c.mem x.1 (p.map (·.1)), poison := pzWrite c.poison x.1 x.2 (p.any (·.2)) }) c

/-! ## The hopper -/

/-- The ring in use: (base block, blocks), none when RING_EN is clear or the ring is treated as clear (R113, R114). -/
def CoreState.ring (c : CoreState) : Option (Nat × Nat) :=
  let base := bf c.hctl 29 20
  let n := bf c.hctl 10 0
  if c.hctl.getLsbD 31 && n != 0 && decide (base + n ≤ 1024) then some (base, n) else none

/-- Does a hopper address lie in the ring. -/
def CoreState.inRing (c : CoreState) (a : Nat) : Bool :=
  match c.ring with
  | some (b, n) => decide (b * 512 ≤ a ∧ a < (b + n) * 512)
  | none => false

/-- Address `off` bytes along a stream that begins at `start`, wrapping when it begins in the ring (R113). -/
def CoreState.streamAddr (c : CoreState) (start off : Nat) : Nat :=
  match c.ring with
  | some (b, n) => if c.inRing start then b * 512 + (start - b * 512 + off) % (n * 512) else start + off
  | none => start + off

/-- n bytes of a stream from offset `off`. -/
def CoreState.streamRead (c : CoreState) (start off n : Nat) : Bytes :=
  (List.range n).map (fun i => mget c.mem (c.streamAddr start (off + i)))

/-- Blocks that bytes off … off+n−1 of a stream lie in. -/
def CoreState.streamBlocks (c : CoreState) (start off n : Nat) : List Nat :=
  (List.range n).foldl (fun l i => sins (c.streamAddr start (off + i) / 512) l) []

/-- Is any unit of a stream range poisoned. -/
def CoreState.streamPz (c : CoreState) (start off n : Nat) : Bool :=
  (List.range n).any (fun i => c.poison.contains (c.streamAddr start (off + i) / 32))

/-! ## The completion queue (R102, R103) -/

/-- A completion entry. -/
def cqEntry (status source tag : Nat) : W64 := pack 64 [(24, status), (16, source), (0, tag)]

/-- The value AQ.POLL returns for an empty queue. -/
def cqEmpty : W64 := pack 64 [(63, 1)]

/-- A NOTIFY is posted, or waits when the queue holds 64 entries or another completion waits already. Answers whether it
was posted. -/
def CoreState.notify (c : CoreState) (e : W64) (h : Holder) : Bool × CoreState :=
  if c.cq.length < 64 ∧ c.cqWait = [] then (true, { c with cq := c.cq ++ [e] })
  else (false, { c with cqWait := c.cqWait ++ [(e, h)] })

/-- A local interrupt becomes pending. -/
def CoreState.irq (c : CoreState) (n : Nat) : CoreState := { c with mip := sins n c.mip }

end Sys2Proof.Machine
end

