-- ==== Sys2Proof/Machine/Formats.lean ====
section
/-! DEFINITION. The element formats of R28 and R29: sizes, values, conversions to output formats (R35, R106) and MX
quantisation (R107). -/
namespace Sys2Proof.Machine

/-- Width class of an activation or weight format (R25). -/
inductive WClass where
  | q | b | h
  deriving DecidableEq, Repr

/-- Format codes of R29 that may be activations and weights. -/
def isActFmt (f : Nat) : Bool := f ≤ 5 || (8 ≤ f && f ≤ 0xD)

/-- MX formats (R29). -/
def isMx (f : Nat) : Bool := 8 ≤ f && f ≤ 0xD

/-- Integer operand formats (R29). -/
def isIntFmt (f : Nat) : Bool := f == 2 || f == 3

/-- Element width in bits (R28, R29). -/
def fmtBits : Nat → Nat
  | 0x00 | 0x01 | 0x02 | 0x08 | 0x09 | 0x0D => 8
  | 0x03 | 0x0C => 4
  | 0x04 | 0x05 => 16
  | 0x07 | 0x0E => 32
  | 0x0A | 0x0B => 6
  | 0x0F => 64
  | _ => 8

/-- Width class (R25). -/
def fmtClass (f : Nat) : WClass := if f == 3 || f == 0xC then .q else if f == 4 || f == 5 then .h else .b

/-- K step of a class (R25). -/
def WClass.step : WClass → Nat
  | .q => 16
  | .b => 8
  | .h => 4

/-- Value of a small float without infinities: `eb` exponent and `mb` fraction bits, bias `bias`. -/
def miniVal (eb mb : Nat) (bias : Int) (w : Nat) : Fl :=
  let neg := nbit w (eb + mb)
  let ex := nf w (eb + mb - 1) mb
  let fr := w % 2 ^ mb
  if ex = 0 then .fin neg fr (1 - bias - mb) else .fin neg (2 ^ mb + fr) ((ex : Int) - bias - mb)

/-- Value of a floating-point or MX element code (R28); an MX element before its scale. -/
def eltVal (f w : Nat) : Fl :=
  match f with
  | 0x00 | 0x08 => if w % 128 = 127 then .nan else miniVal 4 3 7 w
  | 0x01 | 0x09 => flOf 5 2 w
  | 0x0A => miniVal 2 3 1 w
  | 0x0B => miniVal 3 2 3 w
  | 0x0C => miniVal 2 1 1 w
  | 0x0D => let i := sx 8 w; .fin (decide (i < 0)) i.natAbs (-6)
  | 0x04 => flOf 8 7 w
  | 0x05 => flOf 5 10 w
  | _ => flOf 8 23 w

/-- Is an element code zero for a zero map (R68); negative zero counts except for MXINT8, whose only zero is 0x00. -/
def eltZero (f w : Nat) : Bool :=
  if f == 2 || f == 3 || f == 0xD then w == 0
  else w % 2 ^ (fmtBits f - 1) == 0

/-- Row bytes of R41, rounded up to a whole byte: elements and MX scales. -/
def rowBytes (f k : Nat) : Nat := (k * fmtBits f + 7) / 8 + (if isMx f then (k + 31) / 32 else 0)

/-- Bytes of the K packed elements of a row. -/
def eltBytes (f k : Nat) : Nat := (k * fmtBits f + 7) / 8

/-- Largest K of one IN_LOAD (R41). -/
def maxK (f : Nat) : Nat := if f == 8 || f == 9 || f == 0xD then 3968 else if f == 4 || f == 5 then 2048 else 4096

/-- Element number e of a packed byte string of a format (R36, R39). -/
def eltAt (f : Nat) (bs : Bytes) (e : Nat) : Nat :=
  let b := fmtBits f
  let lo := e * b
  let n := unle ((bs.drop (lo / 8)).take ((b + 15) / 8))
  (n >>> (lo % 8)) % 2 ^ b

/-- Number a list of element codes packs to, each of `b` bits, lowest first. -/
def packNat (b : Nat) : List Nat → Nat
  | [] => 0
  | c :: cs => c % 2 ^ b + 2 ^ b * packNat b cs

/-- Pack element codes of a format into bytes. -/
def packElts (f : Nat) (codes : List Nat) : Bytes := le (eltBytes f codes.length) (packNat (fmtBits f) codes)

/-! ## Rounding into output formats (R35) -/

/-- A magnitude rounded to nearest even with `mb` fraction bits and smallest exponent of `bias`, its exponent range
unbounded above: as exponent × 2^mb + fraction. -/
def rndMini (mb : Nat) (bias : Int) (m : Nat) (e : Int) : Nat :=
  if m = 0 then 0
  else
    let emin : Int := 1 - bias - mb
    let top : Int := (bitLen m : Int) + e - 1 - mb
    let f := if top < emin then emin else top
    scaleTo m e f + ((f - emin).toNat) * 2 ^ mb

/-- Conversion of a value to a small format whose largest finite code is `big`: beyond it `over` when SAT is clear. -/
def miniTo (eb mb : Nat) (bias : Int) (big ovr nan : Nat) (sat : Bool) : Fl → Nat
  | .nan => nan
  | .inf neg => if sat then b2n neg * 2 ^ (eb + mb) + big else (if ovr = nan then nan else b2n neg * 2 ^ (eb + mb) + ovr)
  | .fin neg m e =>
    let q := rndMini mb bias m e
    if q ≤ big then b2n neg * 2 ^ (eb + mb) + q
    else if sat then b2n neg * 2 ^ (eb + mb) + big
    else (if ovr = nan then nan else b2n neg * 2 ^ (eb + mb) + ovr)

/-- Conversion of a value to a floating output format (R35): E4M3, E5M2, BF16, FP16 or FP32. -/
def toFmt (f : Nat) (sat : Bool) (x : Fl) : Nat :=
  match f with
  | 0x00 => miniTo 4 3 7 0x7E 0x7F 0x7F sat x
  | 0x01 => miniTo 5 2 15 0x7B 0x7C 0x7E sat x
  | 0x04 => flTo 8 7 x
  | 0x05 => flTo 5 10 x
  | _ => f32 x

/-- Saturate an integer to w bits, two's complement. -/
def satI (w : Nat) (i : Int) : Int :=
  if i > 2 ^ (w - 1) - 1 then 2 ^ (w - 1) - 1 else if i < -(2 ^ (w - 1)) then -(2 ^ (w - 1)) else i

/-- An integer as an exact value. -/
def intFl (i : Int) : Fl := .fin (decide (i < 0)) i.natAbs 0

/-- A value rounded to the nearest integer, ties to even. -/
def flInt : Fl → Int
  | .fin neg m e => let n : Int := (scaleTo m e 0 : Nat); if neg then -n else n
  | _ => 0

/-! ## MX elements (R107) -/

/-- Element rounded to nearest even and saturated to the largest finite magnitude. -/
def mxElt (f : Nat) (x : Fl) : Nat :=
  match f with
  | 0x08 => miniTo 4 3 7 0x7E 0x7F 0x7F true x
  | 0x09 => miniTo 5 2 15 0x7B 0x7C 0x7E true x
  | 0x0A => miniTo 2 3 1 0x1F 0x1F 0x1F true x
  | 0x0B => miniTo 3 2 3 0x1F 0x1F 0x1F true x
  | 0x0C => miniTo 2 1 1 0x7 0x7 0x7 true x
  | _ =>
    match x with
    | .fin neg m e =>
      let n : Int := (scaleTo m e (-6) : Nat)
      wrapI 8 (if neg then -(min n 127) else min n 127)
    | _ => 0

/-- emax of R107. -/
def mxEmax : Nat → Int
  | 0x08 => 8
  | 0x09 => 15
  | 0x0A => 2
  | 0x0B => 4
  | 0x0C => 2
  | _ => 0

/-- floor(log2) of a nonzero magnitude. -/
def flLog2 : Fl → Int
  | .fin _ m e => (bitLen m : Int) - 1 + e
  | _ => 0

/-- Is a value finite and zero. -/
def Fl.isZero : Fl → Bool
  | .fin _ m _ => m == 0
  | _ => false

/-- Is a value NaN or an infinity. -/
def Fl.special : Fl → Bool
  | .fin _ _ _ => false
  | _ => true

/-- Value times 2^k. -/
def Fl.scale (x : Fl) (k : Int) : Fl :=
  match x with
  | .fin n m e => .fin n m (e + k)
  | y => y

/-- Quantise one block of 32 values: the scale byte and the element codes (R107). -/
def mxBlock (f : Nat) (xs : List Fl) : Nat × List Nat :=
  if xs.any Fl.special then (0xFF, xs.map (fun _ => 0))
  else
    let amax : Option Int := (xs.filter (fun x => !x.isZero)).foldl
      (fun acc x => match acc with
        | none => some (flLog2 x)
        | some a => some (max a (flLog2 x))) none
    match amax with
    | none => (127, xs.map (fun _ => 0))
    | some l =>
      let X := max (-127) (min 127 (l - mxEmax f))
      ((X + 127).toNat, xs.map (fun x => mxElt f (x.scale (-X))))

end Sys2Proof.Machine
end

