-- ==== Sys2Proof/Machine/Operands.lean ====
section
/-! DEFINITION. The fields of command words and the checks a word must pass (R42–R44, R50, R59, R65, R66, R516). -/
namespace Sys2Proof.Machine

/-- A 128-bit command word. -/
abbrev CW := BitVec 128

/-- OP of a word (R42). -/
def cwOp (w : CW) : Nat := bf w 7 0
/-- TAG of a word. -/
def cwTag (w : CW) : Nat := bf w 15 8
/-- NOTIFY of a word. -/
def cwNotify (w : CW) : Bool := w.getLsbD 16
/-- FENCE of a word. -/
def cwFence (w : CW) : Bool := w.getLsbD 17

/-- Unit that executes an array operation (R45). -/
def opUnit (op : Nat) : ArrUnit := if op = 1 ∨ op = 2 ∨ op = 0x20 then .load else if op = 0x31 then .drain else .sow

/-- Is an OP a SOW or SOW_SPARSE. -/
def isSow (op : Nat) : Bool := op == 0x10 || op == 0x11

/-- Units a tile occupies (R41). -/
def tileUnits (f k rows : Nat) : Nat := (rows * rowBytes f k + 511) / 512

/-- Logical width of array a of core g: min(16, 17 − bad columns) (R56). -/
def State.width (s : State) (g a : Nat) : Nat := min 16 (17 - (tget [] s.dev.badCols (g * 4 + a)).length)

/-- The activation and weight pairs of R30; `two` when the weight sector lasts 2 ACLK. -/
inductive Pair where
  | bad | one | two
  deriving DecidableEq, Repr

/-- The table of R30. -/
def pairOf (f wf : Nat) : Pair :=
  let fp8 (x : Nat) : Bool := x ≤ 1
  let mx86 (x : Nat) : Bool := 8 ≤ x && x ≤ 0xB
  if fp8 f && fp8 wf then .one
  else if mx86 f && mx86 wf then .one
  else if f == 0xC && wf == 0xC then .one
  else if mx86 f && wf == 0xC then .two
  else if f == 0xD && wf == 0xD then .one
  else if f == 2 && wf == 2 then .one
  else if f == 3 && wf == 3 then .one
  else if f == 2 && wf == 3 then .two
  else if f == 4 && wf == 4 then .one
  else if f == 5 && wf == 5 then .one
  else if (f == 4 || f == 5) && fp8 wf then .two
  else .bad

/-- Pairs SOW_SPARSE may use: sectors of 1 ACLK, no MXFP6 weights (R59). -/
def sparseOk (f wf : Nat) : Bool := pairOf f wf == .one && wf != 0xA && wf != 0xB

/-- Bytes of a weight sector (R36). -/
def sectorBytes (wf : Nat) : Nat := if wf == 0xA || wf == 0xB then 24 else 32

/-- Dense K positions a weight sector covers: its class's K step, times 2 or 4 when sparse (R61). -/
def sectorCover (wf pat : Nat) : Nat := (fmtClass wf).step * (if pat = 1 then 2 else if pat = 2 then 4 else 1)

/-- Metadata bytes of a sector (R62). -/
def metaBytes (wf pat : Nat) : Nat := (fmtClass wf).step * 4 / 2 * (if pat = 1 then 4 else 6) / 8

/-- Bytes a source element occupies in a row, in bits (R51: a split load reads a wider source). -/
def srcBits (f split : Nat) : Nat := if split = 0 then fmtBits f else if f = 4 then 32 else 16

/-- Bytes that n source elements occupy. -/
def srcBytes (f split n : Nat) : Nat := (n * srcBits f split + 7) / 8

/-- A byte range within the hopper or within vector memory. -/
def regionOk (lo n : Nat) : Bool := (decide (lo + n ≤ clHopEnd)) || (decide (clVm ≤ lo ∧ lo + n ≤ clVmEnd))

/-- Fields of IN_LOAD and IN_LOAD_T. -/
structure LoadF where
  src : Nat
  scale : Nat
  stride : Nat
  dst : Nat
  k : Nat
  rows : Nat
  fmt : Nat
  split : Nat
  zbuild : Bool
  deriving DecidableEq, Repr

/-- Decode the load layout. -/
def loadF (w : CW) : LoadF :=
  { src := bf w 127 104, scale := bf w 103 80, stride := bf w 79 64, dst := bf w 63 57, k := bf w 56 44,
    rows := bf w 43 39, fmt := bf w 38 34, split := bf w 33 32, zbuild := w.getLsbD 28 }

/-- Fields of SOW and SOW_SPARSE. -/
structure SowF where
  waddr : Nat
  wsaddr : Nat
  inBase : Nat
  k : Nat
  n : Nat
  col : Nat
  wfmt : Nat
  gang : Nat
  overwrite : Bool
  zskip : Bool
  pat : Nat
  metaBlk : Nat
  deriving DecidableEq, Repr

/-- Decode the sow layout. -/
def sowF (w : CW) : SowF :=
  { waddr := bf w 127 104, wsaddr := bf w 103 80, inBase := bf w 79 73, k := bf w 72 60, n := bf w 59 51,
    col := bf w 50 43, wfmt := bf w 42 38, gang := bf w 37 34, overwrite := w.getLsbD 33, zskip := w.getLsbD 32,
    pat := bf w 31 30, metaBlk := bf w 29 20 }

/-- Fields of ACC_DRAIN; N and ACC_COL also of ACC_CLEAR. -/
structure DrainF where
  dst : Nat
  stride : Nat
  n : Nat
  col : Nat
  ofmt : Nat
  sat : Bool
  clear : Bool
  rows : Nat
  deriving DecidableEq, Repr

/-- Decode the drain layout. -/
def drainF (w : CW) : DrainF :=
  { dst := bf w 127 104, stride := bf w 79 64, n := bf w 59 51, col := bf w 50 43, ofmt := bf w 42 38,
    sat := w.getLsbD 37, clear := w.getLsbD 36, rows := bf w 35 31 }

/-- Latest loaded tile at a base (R50, code 0x06). -/
def ArrayState.tileAt (x : ArrayState) (base : Nat) : Option Tile := x.tiles.find? (fun t => t.base == base)

/-- Type a pair gives its columns (R516). -/
def ArrayState.pairKind (x : ArrayState) (wf : Nat) : ColType :=
  if isIntFmt wf then (if x.acc64 then .int64 else .int32) else .fp32

/-- 32-bit columns that `n` columns from `col` occupy. -/
def colCells (wide : Bool) (col n : Nat) : List Nat :=
  if wide then (List.range (2 * n)).map (· + 2 * col) else (List.range n).map (· + col)

/-- Type of a 32-bit column. -/
def ArrayState.ctype (x : ArrayState) (c : Nat) : ColType := tget .none x.colType c

/-- Codes a load breaks (R29, R39–R43, R51, R55). -/
def chkLoad (t : Bool) (width : Nat) (w : CW) : List Nat :=
  let f := loadF w
  let res := (if bf w 31 29 != 0 || bf w 27 20 != 0 || f.split == 3 || (f.scale != 0 && !isMx f.fmt) then [2] else [])
  if !isActFmt f.fmt || (f.split != 0 && f.fmt != 4 && f.fmt != 2) then 5 :: res
  else
    let per := srcBytes f.fmt f.split (if t then f.rows else f.k)
    let lines := if t then f.k else f.rows
    res
      ++ (if t && (f.fmt == 3 || f.fmt == 0xC || f.fmt == 0xA || f.fmt == 0xB) then [0xA] else [])
      ++ (if f.k = 0 ∨ f.k > maxK f.fmt ∨ (isMx f.fmt ∧ f.k % 32 ≠ 0) ∨ f.rows = 0 ∨ f.stride * 16 < per then [4] else [])
      ++ (if f.rows > width then [8] else [])
      ++ (if f.src % 32 ≠ 0 ∨ f.scale % 4 ≠ 0 ∨ !regionOk f.src ((lines - 1) * (f.stride * 16) + per)
            ∨ (isMx f.fmt ∧ !regionOk f.scale (f.rows * ((f.k + 31) / 32))) then [3] else [])
      ++ (if f.dst + tileUnits f.fmt f.k f.rows > 128 then [6] else [])

/-- Streams of a sow: (start, bytes) of weights, scales and metadata (R37, R38, R63). -/
def sowStreams (f : SowF) (sparse : Bool) : List (Nat × Nat) :=
  let pat := if sparse then f.pat else 0
  let cover := sectorCover f.wfmt pat
  let ns := (f.k + cover - 1) / cover
  let groups := (f.n + 3) / 4
  [(f.waddr, ns * groups * sectorBytes f.wfmt)]
    ++ (if isMx f.wfmt then [(f.wsaddr, 4 * groups * ((ns * cover + 31) / 32))] else [])
    ++ (if sparse then [(f.metaBlk * 512, ns * groups * metaBytes f.wfmt pat)] else [])

/-- Codes a sow breaks on its own (R30, R43, R50, R59, R65, R66). -/
def chkSow (c : CoreState) (a : Nat) (x : ArrayState) (w : CW) : List Nat :=
  let f := sowF w
  let sparse := cwOp w == 0x11
  let tile := x.tileAt f.inBase
  let pairBad := match tile with
    | some t => if sparse then !sparseOk t.fmt f.wfmt else pairOf t.fmt f.wfmt == .bad
    | none => false
  let lim := if x.pairKind f.wfmt = .int64 then 128 else 256
  let tk := match tile with
    | some t => t.k
    | none => 8191
  let c2 := if (!sparse && (f.pat != 0 || f.metaBlk != 0)) || (f.wsaddr != 0 && !isMx f.wfmt) then [2] else []
  let c5 := if !isActFmt f.wfmt || pairBad then [5] else []
  let c4 := if (sparse && (f.pat == 0 || f.pat == 3)) || f.k = 0 || f.k > tk || f.n = 0 || f.n > lim then [4] else []
  let c3a := if f.waddr % 32 ≠ 0 ∨ f.wsaddr % 4 ≠ 0 ∨ f.waddr ≥ clHopEnd ∨ f.wsaddr ≥ clHopEnd then [3] else []
  let c6 := (if tile.isNone then [6] else []) ++ (if f.col + f.n > lim then [6] else [])
  let c7 := if f.gang.testBit a then [] else [7]
  let c3b := if c5 = [] ∧ c4 = [] ∧
      (sowStreams f sparse).any (fun s => !c.inRing s.1 && decide (s.1 + s.2 > clHopEnd)) then [3] else []
  c2 ++ c5 ++ c4 ++ c3a ++ c3b ++ c6 ++ c7

/-- Codes a ZMAP breaks (R70). -/
def chkZmap (x : ArrayState) (w : CW) : List Nat :=
  let zop := bf w 21 20
  let addr := bf w 127 104
  (if bf w 103 80 != 0 || bf w 72 22 != 0 || zop == 3 then [2] else [])
    ++ (if zop ≠ 0 ∧ (addr % 32 ≠ 0 ∨ addr < clVm ∨ addr + 128 > clVmEnd) then [3] else [])
    ++ (if zop = 2 ∧ (x.tileAt (bf w 79 73)).isNone then [6] else [])

/-- What a drain's columns hold (R516): their common type, or a mix of FP32 and INT32; and whether any is read with the
other mode's type. -/
def drainKind (x : ArrayState) (f : DrainF) : Option ColType × Bool :=
  let ts := (colCells x.acc64 f.col f.n).map x.ctype
  if x.acc64 then (some .int64, ts.any (fun t => t == .fp32 || t == .int32))
  else
    let hasF := ts.contains .fp32
    let hasI := ts.contains .int32
    let undef := ts.contains .int64
    if hasF && hasI then (none, undef)
    else if hasF then (some .fp32, undef)
    else if hasI then (some .int32, undef)
    else (some .none, undef)

/-- Outputs a column type permits (R516). -/
def drainOut (k : ColType) (o : Nat) : Bool :=
  let fp := o == 0 || o == 1 || o == 4 || o == 5 || o == 7
  let it := o == 0xE || o == 7 || o == 4
  match k with
  | .fp32 => fp
  | .int32 => it
  | .int64 => o == 0xF
  | .none => fp || it

/-- Codes ACC_CLEAR or ACC_DRAIN breaks (R50, R516). -/
def chkAcc (x : ArrayState) (width : Nat) (w : CW) : List Nat :=
  let f := drainF w
  let drain := cwOp w == 0x31
  let lim := if x.acc64 then 128 else 256
  let res := if drain then bf w 103 80 != 0 || bf w 63 60 != 0 || bf w 30 20 != 0
             else bf w 127 60 != 0 || bf w 42 20 != 0
  let (kind, _) := drainKind x f
  (if res then [2] else [])
    ++ (if drain then (match kind with | some k => if drainOut k f.ofmt then [] else [5] | none => [5]) else [])
    ++ (if f.n = 0 ∨ f.n > lim ∨ (drain ∧ f.rows = 0) then [4] else [])
    ++ (if drain ∧ f.rows > width then [8] else [])
    ++ (if drain ∧ (f.dst % 32 ≠ 0 ∨ f.dst < clVm
          ∨ f.dst + (f.rows - 1) * (f.stride * 16) + f.n * (fmtBits f.ofmt / 8) > clVmEnd) then [3] else [])
    ++ (if f.col + f.n > lim then [6] else [])

/-- Codes PASS_SET breaks (R44). -/
def chkPass (w : CW) : List Nat :=
  (if bf w 127 29 != 0 then [2] else []) ++ (if bf w 27 23 ≠ 0 ∧ bf w 27 23 ≠ 8 ∧ bf w 27 23 ≠ 16 then [4] else [])

/-- The first code in the order of R50; 0 for none. -/
def firstCode (l : List Nat) : Nat :=
  (([1, 2, 5, 0xA, 4, 8, 3, 6, 7].find? (fun c => l.contains c)).getD 0)

/-- The code of a word at the head of array a's queue (R50); 0 for none. -/
def arrCheck (c : CoreState) (a width : Nat) (x : ArrayState) (w : CW) : Nat :=
  let common := if bf w 19 18 != 0 then [2] else []
  match cwOp w with
  | 0x01 => firstCode (common ++ chkLoad false width w)
  | 0x02 => firstCode (common ++ chkLoad true width w)
  | 0x10 | 0x11 => firstCode (common ++ chkSow c a x w)
  | 0x20 => firstCode (common ++ chkZmap x w)
  | 0x30 | 0x31 => firstCode (common ++ chkAcc x width w)
  | 0x40 => firstCode (common ++ chkPass w)
  | _ => 1

end Sys2Proof.Machine
end

