-- ==== Sys2Proof/Machine/ArrayOps.lean ====
section
/-! DEFINITION. The work of the matrix arrays: loads and zero maps (R39–R41, R51, R55, R68–R70), sowing (R26–R38, R59–R73),
clears and drains (R35, R516), conflicts (R45) and command errors (R50). -/
namespace Sys2Proof.Machine

/-! ## Command errors (R50) -/

/-- Array a of a core records a command error: the code and the word, its queue discarded and closed, its exception
pending (R50, R103). -/
def CoreState.arrErr (c : CoreState) (a code : Nat) (w : CW) (abort : Bool) : CoreState :=
  let x := c.arr a
  (c.setArr a { x with err := true, errCode := BitVec.ofNat 8 code, errCmd := w, queue := []
                       gangAbort := x.gangAbort || abort }).irq (16 + a)

/-- Remove the running command of a unit. -/
def ArrayState.dropRun (x : ArrayState) (u : ArrUnit) : ArrayState :=
  { x with running := x.running.filter (fun r => r.unit != u) }

/-- Running command of a unit. -/
def ArrayState.run (x : ArrayState) (u : ArrUnit) : Option RunCmd := x.running.find? (fun r => r.unit == u)

/-- Replace the running command of a unit. -/
def ArrayState.setRun (x : ArrayState) (r : RunCmd) : ArrayState :=
  { x with running := x.running.map (fun q => if q.unit == r.unit then r else q) }

/-- A running command stops on an error: its result is not written, and what its issue changed is as before: the tiles
of a load, the types of a sow's columns (R50, R486). -/
def CoreState.abortRun (c : CoreState) (a code : Nat) (r : RunCmd) (abort : Bool) : CoreState :=
  let x := (c.arr a).dropRun r.unit
  let f := sowF r.word
  let x := if isSow (cwOp r.word) then
      { x with colType := (colCells (r.kind == .int64) f.col f.n).foldl (fun t i => tset t i (tget .none r.prevTypes i)) x.colType }
    else { x with tiles := r.prevTiles }
  (c.setArr a x).arrErr a code r.word abort

/-- A control processor, matrix array or vector unit consumed poison for its partition's current context (R486). -/
def State.logPoison (s : State) (unit : W32) (consumer err addr : Nat) : State :=
  let idx := bf unit 23 0
  let p := s.partOfDie (dieOfCore (if bf unit 31 24 = 5 then idx / 4 else idx))
  s.consume p (tget 0 s.dev.partAsid p) unit consumer err addr

/-! ## Loads -/

/-- Source element number e of line l, as its code. -/
def srcElt (c : CoreState) (f : LoadF) (l e : Nat) : Nat :=
  let b := srcBits f.fmt f.split
  let lo := e * b
  unle (c.rdm (f.src + l * (f.stride * 16) + lo / 8) ((b + 7) / 8 + (if b < 8 then 1 else 0))) >>> (lo % 8) % 2 ^ b

/-- The part a split load keeps (R51). -/
def splitElt (f : LoadF) (w : Nat) : Nat :=
  if f.split = 0 then w
  else if f.fmt = 2 then (if f.split = 1 then w / 256 else w % 256)
  else
    let v := ofF32 w
    let hiW := match v with
      | .fin neg m e => b2n neg * 2 ^ 15 + min (rndMag 8 7 m e) 0x7F7F
      | x => flTo 8 7 x
    if f.split = 1 then hiW
    else
      match v with
      | .nan => 0x7FC0
      | .inf _ => 0
      | v => flTo 8 7 (Fl.add v (flOf 8 7 hiW).neg)

/-- Element codes of tile row r. -/
def loadRow (c : CoreState) (f : LoadF) (t : Bool) (r : Nat) : List Nat :=
  (List.range f.k).map (fun k => splitElt f (if t then srcElt c f k r else srcElt c f r k))

/-- Scale bytes of tile row r (R39). -/
def loadScales (c : CoreState) (f : LoadF) (r : Nat) : Bytes :=
  if isMx f.fmt then c.rdm (f.scale + r * ((f.k + 31) / 32)) ((f.k + 31) / 32) else []

/-- The tile's bytes in the input store, its last unit filled with zeros (R515). -/
def tileBytes (c : CoreState) (f : LoadF) (t : Bool) : Bytes :=
  let b := (List.range f.rows).flatMap (fun r => packElts f.fmt (loadRow c f t r) ++ loadScales c f r)
  b ++ zeros (tileUnits f.fmt f.k f.rows * 512 - b.length)

/-- Does a load read a poisoned unit (R486). -/
def loadPz (c : CoreState) (f : LoadF) (t : Bool) : Bool :=
  let per := srcBytes f.fmt f.split (if t then f.rows else f.k)
  (List.range (if t then f.k else f.rows)).any (fun l => c.pzAny (f.src + l * (f.stride * 16)) per)
    || (isMx f.fmt && c.pzAny f.scale (f.rows * ((f.k + 31) / 32)))

/-- The zero map of a tile (R68): bit s set when every element of slice s is zero in every row. -/
def zmapOf (c : CoreState) (f : LoadF) (t : Bool) : BitVec 1024 :=
  let rows := (List.range f.rows).map (fun r => (loadRow c f t r, loadScales c f r))
  let zeroAt (k : Nat) : Bool :=
    f.k ≤ k || rows.all (fun r => eltZero f.fmt (r.1.getD k 0) && !(isMx f.fmt && (r.2.getD (k / 32) 0) == 0xFF))
  BitVec.ofNat 1024 (packNat 1 ((List.range 1024).map (fun s => b2n (zeroAt (4 * s) && zeroAt (4 * s + 1) && zeroAt (4 * s + 2) && zeroAt (4 * s + 3)))))

/-- Do two tiles share a unit. -/
def Tile.overlaps (t : Tile) (base units : Nat) : Bool := decide (t.base < base + units ∧ base < t.base + t.units)

/-- Install a map as the most recently used, in at most eight entries (R69). -/
def putZmap (l : List ZMap) (m : ZMap) : List ZMap := (m :: l.filter (fun z => z.base != m.base)).take 8

/-- The load: the tile in the input store, maps of the tiles it overwrote unused, its own map built (R39, R68, R69). -/
def CoreState.doLoad (c : CoreState) (a : Nat) (r : RunCmd) (t : Bool) : CoreState :=
  let f := loadF r.word
  let x := c.arr a
  let units := tileUnits f.fmt f.k f.rows
  let dead := ((r.prevTiles.filter (fun y => y.overlaps f.dst units)).map (·.base))
  let zs := x.zmaps.filter (fun z => !dead.contains z.base)
  let zs := if f.zbuild then putZmap zs { base := f.dst, bits := zmapOf c f t } else zs
  let c' := c.wrm (clIn a (f.dst * 512)) (tileBytes c f t)
  c'.setArr a ({ x with zmaps := zs }.setRun { r with done := true })

/-! ## Zero maps (R70) -/

/-- ZMAP CLEAR. -/
def CoreState.doZClear (c : CoreState) (a : Nat) (r : RunCmd) : CoreState :=
  let x := c.arr a
  let base := bf r.word 79 73
  let zs := if x.zmaps.any (fun z => z.base == base) then putZmap x.zmaps { base := base, bits := 0 } else x.zmaps
  c.setArr a ({ x with zmaps := zs }.setRun { r with done := true })

/-- ZMAP READ: the map's 128 bytes to vector memory; a missing map reads as zeros. -/
def CoreState.doZRead (c : CoreState) (a : Nat) (r : RunCmd) : CoreState :=
  let x := c.arr a
  let bits := match x.zmaps.find? (fun z => z.base == bf r.word 79 73) with
    | some z => z.bits.toNat
    | none => 0
  (c.wrm (bf r.word 127 104) (le 128 bits)).setArr a (x.setRun { r with done := true })

/-- ZMAP WRITE. -/
def CoreState.doZWrite (c : CoreState) (a : Nat) (r : RunCmd) : CoreState :=
  let x := c.arr a
  let bits := BitVec.ofNat 1024 (unle (c.rdm (bf r.word 127 104) 128))
  c.setArr a ({ x with zmaps := putZmap x.zmaps { base := bf r.word 79 73, bits := bits } }.setRun { r with done := true })

/-! ## Sowing -/

/-- A started sow as all its arrays see it: the word, the format of the tiles and the step counts. -/
structure SowCfg where
  f : SowF
  sparse : Bool
  fmt : Nat
  deriving DecidableEq, Repr

/-- PATTERN in use. -/
def SowCfg.pat (q : SowCfg) : Nat := if q.sparse then q.f.pat else 0
/-- Dense positions a step covers (R71). -/
def SowCfg.cover (q : SowCfg) : Nat := (fmtClass q.fmt).step * (if q.pat = 1 then 2 else if q.pat = 2 then 4 else 1)
/-- K steps of a column group. -/
def SowCfg.ksteps (q : SowCfg) : Nat := (q.f.k + q.cover - 1) / q.cover
/-- Column groups. -/
def SowCfg.groups (q : SowCfg) : Nat := (q.f.n + 3) / 4
/-- Steps in all (R47, R65). -/
def SowCfg.steps (q : SowCfg) : Nat := q.ksteps * q.groups
/-- Dense positions a weight sector covers. -/
def SowCfg.scover (q : SowCfg) : Nat := sectorCover q.f.wfmt q.pat
/-- Sectors of a column group. -/
def SowCfg.secs (q : SowCfg) : Nat := (q.f.k + q.scover - 1) / q.scover
/-- Number of the sector of step i in the stream (R37). -/
def SowCfg.secNo (q : SowCfg) (i : Nat) : Nat := i / q.ksteps * q.secs + i % q.ksteps * q.cover / q.scover
/-- Scale words of a column group: one for each block of 32 positions (R38). -/
def SowCfg.blks (q : SowCfg) : Nat := (q.secs * q.scover + 31) / 32
/-- First dense position of step i. -/
def SowCfg.pos (q : SowCfg) (i : Nat) : Nat := i % q.ksteps * q.cover

/-- The stream ranges step i reads: (start, offset, bytes) of its sector, scales and metadata. -/
def SowCfg.reads (q : SowCfg) (i : Nat) : List (Nat × Nat × Nat) :=
  let sb := sectorBytes q.f.wfmt
  let g := i / q.ksteps
  let b0 := q.pos i / 32
  let b1 := (q.pos i + q.cover - 1) / 32
  [(q.f.waddr, q.secNo i * sb, sb)]
    ++ (if isMx q.f.wfmt then [(q.f.wsaddr, 4 * (g * q.blks + b0), 4 * (b1 - b0 + 1))] else [])
    ++ (if q.sparse then [(q.f.metaBlk * 512, q.secNo i * metaBytes q.f.wfmt q.pat, metaBytes q.f.wfmt q.pat)] else [])

/-- How far each stream has been passed once the first i steps are over: (start, bytes). -/
def SowCfg.passed (q : SowCfg) (i : Nat) : List (Nat × Nat) :=
  let g := i / q.ksteps
  let p := q.pos i
  let sec := g * q.secs + p / q.scover
  [(q.f.waddr, sec * sectorBytes q.f.wfmt)]
    ++ (if isMx q.f.wfmt then [(q.f.wsaddr, 4 * (g * q.blks + p / 32))] else [])
    ++ (if q.sparse then [(q.f.metaBlk * 512, sec * metaBytes q.f.wfmt q.pat)] else [])

/-- Blocks whose last byte some stream passes in step i. -/
def SowCfg.passedBlocks (q : SowCfg) (c : CoreState) (i : Nat) : List Nat :=
  ((q.passed i).zip (q.passed (i + 1))).flatMap (fun x =>
    ((List.range (x.2.2 - x.1.2)).map (fun o => c.streamAddr x.1.1 (x.1.2 + o))).filterMap
      (fun a => if a % 512 = 511 ∧ c.inRing x.1.1 then some (a / 512) else none))

/-- Does an array's map mark step i (R71). -/
def SowCfg.marked (q : SowCfg) (z : Option (BitVec 1024)) (i : Nat) : Bool :=
  q.f.zskip && match z with
    | none => false
    | some m => (List.range ((q.cover + 3) / 4)).all (fun s => m.getLsbD (q.pos i / 4 + s))

/-- The kept slots of column n (0–3) in step i: (dense position, weight code) (R36, R61, R62). -/
def SowCfg.weights (q : SowCfg) (c : CoreState) (i n : Nat) : List (Nat × Nat) :=
  let sb := sectorBytes q.f.wfmt
  let sec := c.streamRead q.f.waddr (q.secNo i * sb) sb
  let S := (fmtClass q.f.wfmt).step
  if q.sparse then
    let mb := metaBytes q.f.wfmt q.pat
    let md := unle (c.streamRead (q.f.metaBlk * 512) (q.secNo i * mb) mb)
    let w := if q.pat = 1 then 4 else 6
    let G := if q.pat = 1 then 4 else 8
    (List.range S).map (fun j =>
      let code := (md >>> (w * (n * (S / 2) + j / 2))) % 2 ^ w
      let idx := if j % 2 = 0 then code % 2 ^ (w / 2) else code / 2 ^ (w / 2)
      (q.pos i + j / 2 * G + idx, eltAt q.f.wfmt sec (n * S + j)))
  else
    let k0 := q.pos i % q.scover
    (List.range q.cover).map (fun j => (q.pos i + j, eltAt q.f.wfmt sec (n * S + k0 + j)))

/-- Scale byte of column n for a dense position (R38). -/
def SowCfg.wscale (q : SowCfg) (c : CoreState) (i n p : Nat) : Nat :=
  ((c.streamRead q.f.wsaddr (4 * (i / q.ksteps * q.blks + p / 32) + n) 1).getD 0 0).toNat

/-- Activation code of (row, position) and its scale, zero beyond the tile and the sow's K (R40, R64). -/
def actAt (c : CoreState) (a : Nat) (t : Tile) (k r p : Nat) : Nat × Nat :=
  if r < t.rows ∧ p < k ∧ p < t.k then
    let row := clIn a (t.base * 512 + r * rowBytes t.fmt t.k)
    let b := fmtBits t.fmt
    let lo := p * b
    (unle (c.rdm (row + lo / 8) 3) >>> (lo % 8) % 2 ^ b,
     if isMx t.fmt then ((c.rdm (row + eltBytes t.fmt t.k + p / 32) 1).getD 0 0).toNat else 127)
  else (0, 127)

/-- An element times its scale; a NaN scale makes it NaN (R28, R33). -/
def scaled (f code scale : Nat) : Fl :=
  if isMx f then (if scale = 0xFF then .nan else (eltVal f code).scale ((scale : Int) - 127)) else eltVal f code

/-- A product of class H truncated toward zero to a multiple of 2^f (R31). -/
def truncTo (f : Int) : Fl → Fl
  | .fin n m e => if e < f then .fin n (m >>> (f - e).toNat) f else .fin n m e
  | x => x

/-- Sum of a step's products (R31); an exact zero is +0 (R32). -/
def stepSum (h : Bool) (ps : List Fl) : Fl :=
  let big := (ps.filter (fun p => !p.isZero && !p.special)).map flLog2
  let ps := match big with
    | [] => ps
    | l :: ls => if h then ps.map (truncTo (ls.foldl max l - 50)) else ps
  let s := ps.foldl Fl.add (.fin false 0 0)
  if s.isZero then .fin false 0 0 else s

/-- One cell after a floating-point step: rounded once to FP32 (R31–R33). -/
def fpCell (old : Nat) (ovr neg : Bool) (sum : Fl) : Nat :=
  let sum := if neg && !sum.isZero then sum.neg else sum
  if ovr then f32 sum else f32 (Fl.add (ofF32 old) sum)

/-- Integer operand of an element: unsigned when PASS_SET says so for INT8 (R44). -/
def intElt (f code : Nat) (uns : Bool) : Int := if f = 2 ∧ uns then (code : Int) else sx (fmtBits f) code

/-- One cell after an integer step, and whether it saturated (R34). -/
def intCell (x : ArrayState) (old : Nat) (ovr : Bool) (sum : Int) : Nat × Bool :=
  let v := sum * 2 ^ x.ishift
  let v := if x.neg then -v else v
  if x.acc64 then (wrapI 64 ((if ovr then 0 else sx 64 old) + v), false)
  else
    let t := (if ovr then 0 else sx 32 old) + v
    (wrapI 32 (satI 32 t), t != satI 32 t)

/-- Number of a cell in the working table of a sow. -/
def cellKey (r c : Nat) : Nat := r * 256 + c

/-- Value of an accumulator cell in memory: 32 bits, or 64 for INT64 columns. -/
def accRead (c : CoreState) (a r col : Nat) (wide : Bool) : Nat :=
  if wide then unle (c.rdm (clAcc a r (2 * col)) 8) else unle (c.rdm (clAcc a r col) 4)

/-- Does a sow add into a column whose cells hold undefined values for it: one of another pair's type, without OVERWRITE
(R44, R516). -/
def RunCmd.undefCol (r : RunCmd) (col : Nat) : Bool :=
  !(sowF r.word).overwrite &&
    (colCells (r.kind == .int64) col 1).any (fun c => let t := tget .none r.prevTypes c; t != .none && t != r.kind)

/-- One array's part of step i: its cells, its flags and its ACTIVE count (R31–R34, R71). -/
def sowArray (q : SowCfg) (c : CoreState) (a i : Nat) (x : ArrayState) (r : RunCmd) : ArrayState × RunCmd :=
  let g := i / q.ksteps
  let ncols := min 4 (q.f.n - 4 * g)
  let wide := r.kind == .int64
  let first := (List.range (i % q.ksteps)).all (fun j => q.marked r.zmap (g * q.ksteps + j))
  let ovr := q.f.overwrite && first
  let cells := (List.range 16).flatMap (fun row => (List.range ncols).map (fun n => (row, n)))
  let t := r.tile.getD {}
  let old (row col : Nat) : Nat := match tfind r.work (cellKey row col) with
    | some v => v
    | none => accRead c a row col wide
  if q.marked r.zmap i then
    -- left out: under OVERWRITE the last step of a group whose steps were all left out zeroes the cells
    if q.f.overwrite && first && (i + 1) % q.ksteps == 0 then
      (x, { r with work := cells.foldl (fun w rc => tset w (cellKey rc.1 (q.f.col + 4 * g + rc.2)) 0) r.work })
    else (x, r)
  else
    let ws := (List.range ncols).map (fun n => q.weights c i n)
    let out := cells.foldl
      (fun (acc : Tbl Nat × Bool × Bool) rc =>
        let col := q.f.col + 4 * g + rc.2
        let prs := (ws.getD rc.2 []).map (fun pw => (actAt c a t q.f.k rc.1 pw.1, pw))
        let o := old rc.1 col
        if isIntFmt q.f.wfmt then
          let sum := prs.foldl (fun s z => s + intElt t.fmt z.1.1 x.aUns * intElt q.f.wfmt z.2.2 x.wUns) 0
          let (v, sat) := intCell x o ovr sum
          (tset acc.1 (cellKey rc.1 col) v, acc.2.1 || (sat && !r.undefCol col), acc.2.2)
        else
          let ps := prs.map (fun z => Fl.mul (scaled t.fmt z.1.1 z.1.2)
            (scaled q.f.wfmt z.2.2 (if isMx q.f.wfmt then q.wscale c i rc.2 z.2.1 else 127)))
          let v := fpCell o ovr x.neg (stepSum (fmtClass t.fmt == .h) ps)
          (tset acc.1 (cellKey rc.1 col) v, acc.2.1, acc.2.2 || ((ofF32 v).isNan && (ovr || !(ofF32 o).isNan) && !r.undefCol col)))
      (r.work, false, false)
    ({ x with isat := x.isat || out.2.1, nanSeen := x.nanSeen || out.2.2, active := x.active + 1 }, { r with work := out.1 })

/-- Does array a's own tile hold poison in what the sow reads (R50). -/
def tilePz (c : CoreState) (a : Nat) (t : Tile) (k : Nat) : Bool :=
  (List.range t.rows).any (fun r =>
    let row := clIn a (t.base * 512 + r * rowBytes t.fmt t.k)
    c.pzAny row (eltBytes t.fmt (min k t.k))
      || (isMx t.fmt && c.pzAny (row + eltBytes t.fmt t.k) ((min k t.k + 31) / 32)))

/-- Clear the FULL bits of ring blocks the sow has passed, under CONSUME; a block not yet FULL is owed (R113). -/
def CoreState.consume (c : CoreState) (bs : List Nat) : CoreState × List Nat :=
  if c.hctl.getLsbD 30 && c.ring.isSome then
    bs.foldl (fun (acc : CoreState × List Nat) b =>
      if acc.1.full.contains b then ({ acc.1 with full := srem b acc.1.full }, acc.2) else (acc.1, sins b acc.2)) (c, [])
  else (c, [])

/-- Arrays of a gang that run this sow. -/
def gangRuns (c : CoreState) (gang : Nat) : List (Nat × RunCmd) :=
  (List.range 4).filterMap (fun a => if gang.testBit a then ((c.arr a).run .sow).map (fun r => (a, r)) else none)

/-- Update the sow of every member. -/
def CoreState.setGang (c : CoreState) (ms : List (Nat × RunCmd)) : CoreState :=
  ms.foldl (fun c m => c.setArr m.1 ((c.arr m.1).setRun m.2)) c

/-- Why the sowing stopped. -/
inductive SowEnd where
  | done | wait (block : Nat) | poison (own : List Nat)
  deriving DecidableEq, Repr

/-- Sow up to `n` steps from step i: until the end, a block that is not FULL, or poison (R49, R50, R71). -/
def sowLoop (q : SowCfg) : Nat → Nat → CoreState → List (Nat × RunCmd) → SowEnd × CoreState × List (Nat × RunCmd)
  | 0, _, c, ms => (.done, c, ms)
  | n + 1, i, c, ms =>
    if i ≥ q.steps then (.done, c, ms)
    else
      let skip := ms.all (fun m => q.marked m.2.zmap i)
      let need := if skip then [] else (q.reads i).flatMap (fun x => c.streamBlocks x.1 x.2.1 x.2.2)
      match need.find? (fun b => !c.full.contains b) with
      | some b => (.wait b, c, ms.map (fun m => (m.1, { m.2 with step := i, waitBlk := some b })))
      | none =>
        if !skip && (q.reads i).any (fun x => c.streamPz x.1 x.2.1 x.2.2) then (.poison [], c, ms)
        else
          let res := ms.map (fun m => (m.1, sowArray q c m.1 i (c.arr m.1) m.2))
          let c' := res.foldl (fun c m => c.setArr m.1 m.2.1) c
          let (c', owed) := c'.consume (q.passedBlocks c i)
          sowLoop q n (i + 1) c'
            (res.map (fun m => (m.1, { m.2.2 with step := i + 1, waitBlk := none, owed := owed.foldl (fun l b => sins b l) m.2.2.owed })))

/-- Write a finished sow's cells (R46). Cells of columns whose type was another's hold free values, and ISAT and NAN_SEEN
take what those values give (R33, R34, R44, R516; log 6). -/
def State.commitSow (s : State) (g a : Nat) (r : RunCmd) : State :=
  let f := sowF r.word
  let wide := r.kind == .int64
  let n := if wide then 8 else 4
  let some_ := (List.range f.n).any (fun j => r.undefCol (f.col + j))
  let (fb, s) := if some_ then s.freeBytes (16 * 256 * 8) else ([], s)
  let (sat, s) := if some_ && r.kind == .int32 then s.freeNat else (0, s)
  let val (e : Nat × Nat) : Bytes := if r.undefCol (e.1 % 256) then slice fb (e.1 * 8) n else le n e.2
  let c := s.core g
  let c := r.work.foldl (fun c e =>
    c.wrm (if wide then clAcc a (e.1 / 256) (2 * (e.1 % 256)) else clAcc a (e.1 / 256) (e.1 % 256)) (val e)) c
  let x := c.arr a
  let nan := r.kind == .fp32 && r.work.any (fun e => r.undefCol (e.1 % 256) && (ofF32 (unle (val e))).isNan)
  s.setCore g (c.setArr a ({ x with nanSeen := x.nanSeen || nan, isat := x.isat || sat % 2 == 1 }.setRun { r with done := true, work := [] }))

/-- Sow the gang of array a's running SOW as far as it goes. -/
def State.doSow (s : State) (g _a : Nat) (r : RunCmd) : State :=
  let c := s.core g
  let f := sowF r.word
  let ms := gangRuns c f.gang
  let q : SowCfg := { f := f, sparse := cwOp r.word == 0x11, fmt := (r.tile.getD {}).fmt }
  let bad := ms.filter (fun m => tilePz c m.1 (m.2.tile.getD {}) f.k)
  if bad ≠ [] then
    let c := ms.foldl (fun c m => if bad.any (fun b => b.1 == m.1) then c.abortRun m.1 0x0B m.2 false else c.abortRun m.1 9 m.2 true) c
    bad.foldl (fun s m => s.logPoison (uid 0x05 (g * 4 + m.1)) 2 0x0B (clIn m.1 0)) (s.setCore g c)
  else
    match sowLoop q (q.steps + 1) r.step c ms with
    | (.poison _, c, ms) =>
      let c := ms.foldl (fun c m => c.abortRun m.1 0x0B m.2 false) c
      ms.foldl (fun s m => s.logPoison (uid 0x05 (g * 4 + m.1)) 2 0x0B f.waddr) (s.setCore g c)
    | (.wait _, c, ms) => s.setCore g (c.setGang ms)
    | (.done, c, ms) =>
      let (c, owed) := c.consume ((ms.head?.map (fun m => m.2.owed)).getD [])
      let ms := ms.map (fun m => (m.1, { m.2 with owed := owed, waitBlk := owed.head? }))
      let s := s.setCore g (c.setGang ms)
      if owed = [] then ms.foldl (fun s m => s.commitSow g m.1 m.2) s else s

/-! ## Clears, drains and PASS_SET -/

/-- Zero 32-bit columns of an accumulator in every row. -/
def CoreState.zeroCols (c : CoreState) (a : Nat) (cols : List Nat) : CoreState :=
  cols.foldl (fun c col => (List.range 16).foldl (fun c r => c.wrm (clAcc a r col) (zeros 4)) c) c

/-- ACC_CLEAR (R516); the types were set to NONE at issue. -/
def CoreState.doClear (c : CoreState) (a : Nat) (r : RunCmd) : CoreState :=
  let x := c.arr a
  let f := drainF r.word
  (c.zeroCols a (colCells x.acc64 f.col f.n)).setArr a (x.setRun { r with done := true })

/-- One output element of a drain (R35, R516). -/
def drainElt (k : ColType) (f : DrainF) (cell : Nat) : Nat :=
  match k with
  | .int64 => cell
  | .int32 => if f.ofmt = 0xE then cell else toFmt f.ofmt false (intFl (sx 32 cell))
  | _ => if f.ofmt = 0xE then cell else toFmt f.ofmt f.sat (ofF32 cell)

/-- ACC_DRAIN: the output rows in vector memory (R35); undefined reads give free values (R44, R516; log 6). -/
def State.doDrain (s : State) (g a : Nat) (r : RunCmd) : State :=
  let c := s.core g
  let x := c.arr a
  let f := drainF r.word
  let (kind, _) := drainKind { x with colType := r.prevTypes } f
  let k := kind.getD .none
  let undefCol (col : Nat) : Bool := (colCells x.acc64 col 1).any (fun i =>
    let t := tget .none r.prevTypes i
    if x.acc64 then t == .fp32 || t == .int32 else t == .int64)
  let n := fmtBits f.ofmt / 8
  let (fb, s) := if ((List.range f.n).any (fun j => undefCol (f.col + j))) then s.freeBytes (f.rows * f.n * n) else ([], s)
  let c := (List.range f.rows).foldl (fun c' row =>
    c'.wrm (f.dst + row * (f.stride * 16)) ((List.range f.n).flatMap (fun j =>
      if undefCol (f.col + j) then slice fb ((row * f.n + j) * n) n
      else le n (drainElt k f (accRead c a row (f.col + j) x.acc64))))) c
  let c := if f.clear then c.zeroCols a (colCells x.acc64 f.col f.n) else c
  s.setCore g (c.setArr a (x.setRun { r with done := true }))

/-- PASS_SET (R44). -/
def CoreState.doPass (c : CoreState) (a : Nat) (r : RunCmd) : CoreState :=
  let w := r.word
  let x := c.arr a
  c.setArr a ({ x with acc64 := w.getLsbD 28, ishift := bf w 27 23, neg := w.getLsbD 22, aUns := w.getLsbD 21, wUns := w.getLsbD 20 }.setRun { r with done := true })

/-! ## Conflicts and issue (R45, R72) -/

/-- What a command touches: input units read and written, 32-bit columns read and written, map read and written. -/
structure Touch where
  inR : List Nat
  inW : List Nat
  accR : List Nat
  accW : List Nat
  mapR : List Nat
  mapW : List Nat
  bar : Bool
  deriving DecidableEq, Repr

/-- Units of a tile. -/
def unitsOf (base n : Nat) : List Nat := (List.range n).map (· + base)

/-- What a word touches in an array. -/
def touch (x : ArrayState) (w : CW) : Touch :=
  let bar := cwFence w || cwOp w == 0x40
  let t0 : Touch := { inR := [], inW := [], accR := [], accW := [], mapR := [], mapW := [], bar := bar }
  match cwOp w with
  | 0x01 | 0x02 =>
    let f := loadF w
    { t0 with inW := unitsOf f.dst (tileUnits f.fmt f.k f.rows), mapW := [f.dst] }
  | 0x20 => if bf w 21 20 = 1 then { t0 with mapR := [bf w 79 73] } else { t0 with mapW := [bf w 79 73] }
  | 0x10 | 0x11 =>
    let f := sowF w
    { t0 with
      inR := unitsOf f.inBase ((x.tileAt f.inBase).getD {}).units, mapR := [f.inBase]
      accW := colCells (x.pairKind f.wfmt == .int64) f.col f.n }
  | 0x30 => let f := drainF w; { t0 with accW := colCells x.acc64 f.col f.n }
  | 0x31 =>
    let f := drainF w
    let cs := colCells x.acc64 f.col f.n
    { t0 with accR := cs, accW := if f.clear then cs else [] }
  | _ => t0

/-- Have two lists a common element. -/
def meet (a b : List Nat) : Bool := a.any (fun x => b.contains x)

/-- Do two commands conflict (R45, R72). -/
def Touch.conflicts (p q : Touch) : Bool :=
  p.bar || q.bar
    || meet p.inW q.inW || meet p.inW q.inR || meet p.inR q.inW
    || meet p.accW q.accW || meet p.accW q.accR || meet p.accR q.accW
    || meet p.mapW q.mapW || meet p.mapW q.mapR || meet p.mapR q.mapW

/-- May the head word of an array leave its queue: its unit free, no conflict with a running command. -/
def ArrayState.ready (x : ArrayState) (w : CW) : Bool :=
  (x.run (opUnit (cwOp w))).isNone
    && !x.running.any (fun r => Touch.conflicts (touch { x with tiles := r.prevTiles ++ x.tiles } r.word) (touch x w))

/-- Is a SOW or SOW_SPARSE sowing in the core (R27). -/
def CoreState.sowing (c : CoreState) : Bool :=
  (List.range 4).any (fun a => (c.arr a).running.any (fun r => isSow (cwOp r.word)))

/-- A written HOPPER_CTL takes effect when no sow is sowing (R114). -/
def CoreState.applyHctl (c : CoreState) : CoreState :=
  match c.hctlNew with
  | some v => if c.sowing then c else { c with hctl := v, hctlNew := none }
  | none => c

/-- The fields in which the words of one gang's SOW may differ between members: TAG, NOTIFY, FENCE, IN_BASE, ACC_COL and
OVERWRITE (DEDUCED, log 21). -/
def sowShared (w : CW) : List Nat := [cwOp w, bf w 127 80, bf w 72 51, bf w 42 34, bf w 32 20]

/-- The command leaves the queue and runs; a load's tile and a command's column types hold from here on for the checks of
later words (R50, R516). -/
def ArrayState.start (x : ArrayState) (w : CW) : ArrayState :=
  let op := cwOp w
  let r0 : RunCmd := { word := w, unit := opUnit op, prevTypes := x.colType, prevTiles := x.tiles }
  let x := { x with queue := x.queue.drop 1 }
  let setT (k : ColType) (cols : List Nat) : Tbl ColType := cols.foldl (fun t c => tset t c k) x.colType
  if op = 1 ∨ op = 2 then
    let f := loadF w
    let t : Tile := { base := f.dst, units := tileUnits f.fmt f.k f.rows, rows := f.rows, k := f.k, fmt := f.fmt }
    { x with running := x.running ++ [{ r0 with tile := some t }], tiles := t :: x.tiles.filter (fun y => !y.overlaps t.base t.units) }
  else if isSow op then
    let f := sowF w
    let k := x.pairKind f.wfmt
    let z := x.zmaps.find? (fun z => z.base == f.inBase)
    let zs := match z with
      | some m => if f.zskip then putZmap x.zmaps m else x.zmaps
      | none => x.zmaps
    { x with
      zmaps := zs
      running := x.running ++ [{ r0 with tile := x.tileAt f.inBase, zmap := if f.zskip then z.map (·.bits) else none, kind := k }]
      colType := setT k (colCells (k == .int64) f.col f.n) }
  else if op = 0x30 then
    let f := drainF w
    { x with running := x.running ++ [r0], colType := setT .none (colCells x.acc64 f.col f.n) }
  else if op = 0x31 then
    let f := drainF w
    { x with running := x.running ++ [r0], colType := if f.clear then setT .none (colCells x.acc64 f.col f.n) else x.colType }
  else { x with running := x.running ++ [r0] }

/-- Issue a gang's SOW: every member has it at its head; a member's error stops the whole gang (R26, R45, R50). A member
whose head is a SOW of a gang without this array does not present this one yet (log 21). -/
def CoreState.issueSow (c : CoreState) (widths : Nat → Nat) (a : Nat) (w : CW) : CoreState :=
  let gang := (sowF w).gang
  let members := (List.range 4).filter (fun b => gang.testBit b)
  let head (b : Nat) : Option CW := (c.arr b).queue.head?
  let code (b : Nat) : Nat := match head b with
    | some v => arrCheck c b (widths b) (c.arr b) v
    | none => 0
  let failed (b : Nat) : Bool := (c.arr b).err && sowShared (c.arr b).errCmd == sowShared w
  if code a ≠ 0 then
    -- the others of the gang that present the SOW record 0x09, unless their own word breaks a rule
    let c' := c.arrErr a (code a) w false
    members.foldl (fun c' b =>
      match head b with
      | some v => if b ≠ a ∧ isSow (cwOp v) ∧ sowShared v = sowShared w then
          (if code b ≠ 0 then c'.arrErr b (code b) v false else c'.arrErr b 9 v true) else c'
      | none => c') c'
  else if members.any (fun b => b != a && failed b) then c.arrErr a 9 w true
  else if !members.all (fun b => (head b).any (fun v => isSow (cwOp v) && (sowF v).gang.testBit a)) then c
  else
    let heads := members.filterMap (fun b => (head b).map (fun v => (b, v)))
    let mism := heads.any (fun h => (sowF h.2).gang != gang)
      || heads.any (fun h => sowShared h.2 != sowShared w)
      || heads.any (fun h =>
        match (c.arr h.1).tileAt (sowF h.2).inBase, (c.arr a).tileAt (sowF w).inBase with
        | some t, some u => t.fmt != u.fmt || t.k != u.k
        | _, _ => false)
    let own := heads.filter (fun h => code h.1 != 0)
    if own ≠ [] then
      heads.foldl (fun c' h => if code h.1 ≠ 0 then c'.arrErr h.1 (code h.1) h.2 false else c'.arrErr h.1 9 h.2 true) c
    else if mism then heads.foldl (fun c' h => c'.arrErr h.1 7 h.2 false) c
    else if c.sowing || !heads.all (fun h => (c.arr h.1).ready h.2) then c
    else heads.foldl (fun c' h => c'.setArr h.1 ((c'.arr h.1).start h.2)) c

end Sys2Proof.Machine
end

