-- ==== Sys2Proof/Machine/Arrays.lean ====
section
/-! DEFINITION. The commands of the matrix arrays: issue, execution, completion, timeouts and status writes (chapters 02, 03). -/
namespace Sys2Proof.Machine

/-- Answer for a core and array that exist. -/
def atArray (g a : Nat) (s : State) : Out :=
  if g < 2016 then (if a < 4 then .next s else .fault (.noSuchUnit "array" a)) else .fault (.noSuchUnit "core" g)

/-- Run `f` on array a's running command of a unit when its OP is `op` and its work is not done. -/
def State.onRun (s : State) (g a : Nat) (u : ArrUnit) (op : Nat → Bool) (f : RunCmd → State) : State :=
  match ((s.core g).arr a).run u with
  | some r => if op (cwOp r.word) && !r.done then f r else s
  | none => s

/-- A load of either kind; a poisoned source unit is command error 0x0B and nothing is written (R486). -/
def State.doLoad (s : State) (g a : Nat) (t : Bool) (r : RunCmd) : State :=
  let c := s.core g
  if loadPz c (loadF r.word) t then
    (s.setCore g (c.abortRun a 0x0B r false)).logPoison (uid 0x05 (g * 4 + a)) 2 0x0B (loadF r.word).src
  else s.setCore g (c.doLoad a r t)

/-- IN_LOAD: copy a tile into the input store (R39, R41, R51, R68). -/
def execInLoad (g a : Nat) (s : State) : Out :=
  atArray g a (s.onRun g a .load (· == 0x01) (s.doLoad g a false))

/-- IN_LOAD_T: the same with rows and K exchanged in the source (R55). -/
def execInLoadT (g a : Nat) (s : State) : Out :=
  atArray g a (s.onRun g a .load (· == 0x02) (s.doLoad g a true))

/-- SOW: stream weight sectors against the stationary tiles of the gang (R26, R31–R34, R37, R49). -/
def execSow (g a : Nat) (s : State) : Out :=
  atArray g a (s.onRun g a .sow (· == 0x10) (s.doSow g a))

/-- SOW_SPARSE: stream compressed sectors with their metadata (R59–R66). -/
def execSowSparse (g a : Nat) (s : State) : Out :=
  atArray g a (s.onRun g a .sow (· == 0x11) (s.doSow g a))

/-- ZMAP with a given ZOP. -/
def State.zmapRun (s : State) (g a zop : Nat) (f : CoreState → RunCmd → CoreState) : State :=
  s.onRun g a .load (· == 0x20) (fun r => if bf r.word 21 20 = zop then s.setCore g (f (s.core g) r) else s)

/-- ZMAP CLEAR (R70). -/
def execZmapClear (g a : Nat) (s : State) : Out := atArray g a (s.zmapRun g a 0 (fun c r => c.doZClear a r))

/-- ZMAP READ (R70). -/
def execZmapRead (g a : Nat) (s : State) : Out := atArray g a (s.zmapRun g a 1 (fun c r => c.doZRead a r))

/-- ZMAP WRITE (R70); a poisoned unit of its 128 bytes is command error 0x0B and no map is installed (R50, R486; log 21). -/
def execZmapWrite (g a : Nat) (s : State) : Out :=
  atArray g a (s.onRun g a .load (· == 0x20) (fun r =>
    if bf r.word 21 20 ≠ 2 then s
    else if (s.core g).pzAny (bf r.word 127 104) 128 then
      (s.setCore g ((s.core g).abortRun a 0x0B r false)).logPoison (uid 0x05 (g * 4 + a)) 2 0x0B (bf r.word 127 104)
    else s.setCore g ((s.core g).doZWrite a r)))

/-- ACC_CLEAR (R516). -/
def execAccClear (g a : Nat) (s : State) : Out :=
  atArray g a (s.onRun g a .sow (· == 0x30) (fun r => s.setCore g ((s.core g).doClear a r)))

/-- ACC_DRAIN (R35, R516). -/
def execAccDrain (g a : Nat) (s : State) : Out :=
  atArray g a (s.onRun g a .drain (· == 0x31) (s.doDrain g a))

/-- PASS_SET (R44). -/
def execPassSet (g a : Nat) (s : State) : Out :=
  atArray g a (s.onRun g a .sow (· == 0x40) (fun r => s.setCore g ((s.core g).doPass a r)))

/-- The head word of array a: a broken rule is a command error; otherwise it leaves the queue when its unit is free and
nothing running conflicts (R45, R50). -/
def CoreState.issue (c : CoreState) (widths : Nat → Nat) (a : Nat) : CoreState :=
  let c := c.applyHctl
  let x := c.arr a
  match x.queue with
  | [] => c
  | w :: _ =>
    if x.err then c
    else if isSow (cwOp w) then c.issueSow widths a w
    else
      let code := arrCheck c a (widths a) x w
      if code ≠ 0 then c.arrErr a code w false
      else if x.ready w then c.setArr a (x.start w) else c

/-- ARRAY_COMMAND_ISSUE (R45). -/
def execArrayCommandIssue (g a : Nat) (s : State) : Out :=
  atArray g a (s.setCore g ((s.core g).issue (s.width g) a))

/-- A done command completes: LAST_TAG takes its TAG and a NOTIFY is posted; while the completion queue is full the
completion waits and holds the unit (R46, R102). -/
def CoreState.complete (c : CoreState) (a : Nat) (u : ArrUnit) : CoreState :=
  let x := c.arr a
  match x.run u with
  | none => c
  | some r =>
    if !r.done || r.held then c
    else
      let x := { x with lastTag := BitVec.ofNat 8 (cwTag r.word) }
      if !cwNotify r.word then c.setArr a (x.dropRun u)
      else
        let (posted, c) := c.notify (cqEntry 0 a (cwTag r.word)) (.arr a u)
        c.setArr a (if posted then x.dropRun u else x.setRun { r with held := true })

/-- ARRAY_COMMAND_COMPLETE (R46). -/
def execArrayCommandComplete (g a : Nat) (u : ArrUnit) (s : State) : Out :=
  atArray g a (s.setCore g ((s.core g).complete a u))

/-- GANG_PRESENT_TIMEOUT: a member has not presented the SOW within 65,536 ACLK; the members that present it record
code 0x07 (R50). -/
def execGangPresentTimeout (g a : Nat) (s : State) : Out :=
  let c := s.core g
  let head (b : Nat) : Option CW := (c.arr b).queue.head?
  atArray g a <|
    match head a with
    | none => s
    | some w =>
      let members := (List.range 4).filter (fun b => (sowF w).gang.testBit b)
      let has (b : Nat) : Bool := (head b).any (fun v => isSow (cwOp v) && sowShared v == sowShared w)
      if isSow (cwOp w) && members.any (fun b => !has b) then
        s.setCore g ((members.filter has).foldl (fun c b => c.arrErr b 7 ((head b).getD 0) false) c)
      else s

/-- SOW_HOPPER_BLOCK_READY: a started sow whose block is now FULL resumes; the ACLK it waited are counted in every array
of the gang (R49). -/
def execSowHopperBlockReady (g a waited : Nat) (s : State) : Out :=
  atArray g a <|
    s.onRun g a .sow isSow (fun r =>
      match r.waitBlk with
      | some b =>
        let c := s.core g
        if c.full.contains b then
          let c := (gangRuns c (sowF r.word).gang).foldl (fun c m =>
            let x := c.arr m.1
            c.setArr m.1 { x with stall := x.stall + BitVec.ofNat 64 waited }) c
          (s.setCore g c).doSow g a r
        else s
      | none => s)

/-- ARRAY_STATUS_WRITE: W1C bits; writing 1 to ERR reopens the queue (R50). -/
def execArrayStatusWrite (g a : Nat) (value : W32) (s : State) : Out :=
  let x := s.arr g a
  atArray g a <|
    s.setArr g a { x with
      err := x.err && !value.getLsbD 31, gangAbort := x.gangAbort && !value.getLsbD 30
      isat := x.isat && !value.getLsbD 29, nanSeen := x.nanSeen && !value.getLsbD 28 }

end Sys2Proof.Machine
end

