-- ==== Sys2Proof/Machine/Remote.lean ====
section
/-! DEFINITION. The sending half of the scale-up ports: flits, credits, port selection and remote requests (R300–R316). -/
namespace Sys2Proof.Machine

/-- One step of CRC-32C over a byte, bit by bit. -/
def crcBits : Nat → Nat → Nat
  | 0, c => c
  | n + 1, c => crcBits n (if c % 2 = 1 then (c / 2) ^^^ 0x82F63B78 else c / 2)

/-- CRC-32C: reflected polynomial 0x82F6_3B78, all ones before and complemented after. -/
def crc32c (bs : Bytes) : Nat := (bs.foldl (fun c b => crcBits 8 (c ^^^ b.toNat)) 0xFFFFFFFF) ^^^ 0xFFFFFFFF

/-- Scale-up port l. -/
def State.port (s : State) (l : Nat) : PortState := tget {} s.links.ports l
/-- Replace scale-up port l. -/
def State.setPort (s : State) (l : Nat) (p : PortState) : State :=
  { s with links := { s.links with ports := tset s.links.ports l p } }

/-- Identifier of scale-up port l. -/
def uidPort (l : Nat) : W32 := uid 0x0E l

/-- A flit of R300: header, 248-byte body, CRC-32C of the first 252 bytes. KIND 0 bulk, 1 express, 2 idle. -/
def flitOf (kind : Nat) (seq ack : BitVec 12) (nak : Bool) (body : Bytes) : Bytes :=
  let b := le 4 (packN [(30, kind), (18, seq.toNat), (6, ack.toNat), (5, b2n nak)]) ++ slice body 0 248
  b ++ le 4 (crc32c b)

/-- Send one bulk or express body: it takes the next SEQ and stays in the replay buffer until an ACK covers it. -/
def State.sendBody (s : State) (l : Nat) (express : Bool) (body : Bytes) : State :=
  let p := s.port l
  let f : SentFlit := { seq := p.txSeq, express := express, body := slice body 0 248 }
  (s.setPort l { p with txSeq := p.txSeq + 1, replay := p.replay ++ [f] }).emit
    (.linkFlit l (flitOf (b2n express) p.txSeq (p.rxSeq - 1) p.nak body))

/-- Class of a record: 0 request, 1 response, 2 circular (R302). -/
def LinkRec.cls (r : LinkRec) : Nat :=
  match rdb r.hdr 0 with
  | 0x04 => 2
  | 0x08 | 0x09 | 0x0A => 1
  | _ => 0

/-- HOPS of a record; an ACK record has none. -/
def LinkRec.hops (r : LinkRec) : Nat := if rdb r.hdr 0 = 0x09 then 0 else nf (rdb r.hdr 1) 5 4

/-- Bodies of 248 bytes that carry a byte string, the last padded with zeros. -/
def bodies : Nat → Bytes → List Bytes
  | 0, _ => []
  | n + 1, bs => if bs = [] then [] else slice bs 0 248 :: bodies n (bs.drop 248)

/-- Send waiting express entries, up to six in a flit, then the waiting records that have credits (a CREDIT record needs
none): responses first, each class in order (R302, R305). Nothing is sent by a port that is not UP or whose replay buffer is full. -/
def State.pump : Nat → State → Nat → State
  | 0, s, _ => s
  | fuel + 1, s, l =>
    let p := s.port l
    if p.mode ≠ .up ∨ p.replay.length ≥ 1024 then s
    else if p.txEx ≠ [] then
      State.pump fuel ((s.setPort l { p with txEx := p.txEx.drop 6 }).sendBody l true (p.txEx.take 6).flatten) l
    else
      let free (r : Nat × LinkRec) : Bool := rdb r.2.hdr 0 == 0x0C
      let ready (r : Nat × LinkRec) : Bool := free r || decide (0 < tget 0 p.credits r.1)
      match (p.txQ.filter (fun r => r.2.cls == 1) ++ p.txQ.filter (fun r => r.2.cls != 1)).find? ready with
      | none => s
      | some r =>
        let p := { p with txQ := p.txQ.erase r, credits := if free r then p.credits else tset p.credits r.1 (tget 0 p.credits r.1 - 1)
                          bytesOut := satAdd p.bytesOut r.2.data.length }
        let s := (bodies 4 (r.2.hdr ++ r.2.data)).foldl (fun s b => s.sendBody l false b) (s.setPort l p)
        State.pump fuel s l

/-- Queue a record on a port and send what can be sent. -/
def State.sendRec (s : State) (l : Nat) (r : LinkRec) : State :=
  let p := s.port l
  State.pump (p.txQ.length + p.txEx.length + 1) (s.setPort l { p with txQ := p.txQ ++ [(r.cls * 3 + r.hops, r)] }) l

/-- An express entry of 40 bytes (R304). -/
def expressEntry (kind src dst : Nat) (payload : Bytes) : Bytes :=
  [BitVec.ofNat 8 kind, BitVec.ofNat 8 src, BitVec.ofNat 8 dst] ++ zeros 5 ++ slice payload 0 32

/-- Queue an express entry on a port and send it. -/
def State.sendExpress (s : State) (l : Nat) (e : Bytes) : State :=
  let p := s.port l
  State.pump (p.txQ.length + p.txEx.length + 2) (s.setPort l { p with txEx := p.txEx ++ [e] }) l

/-- Ports that are UP, in order. -/
def State.upPorts (s : State) : List Nat := (List.range 16).filter (fun l => (s.port l).mode == .up)

/-- The largest width of 8, 4, 2 or 1 that does not exceed a number of lanes (R307). -/
def widthOf (n : Nat) : Nat := if n ≥ 8 then 8 else if n ≥ 4 then 4 else if n ≥ 2 then 2 else min n 1

/-- Entries of the selection table that each UP port of a group receives: the floors of 64 × w ÷ W, and one more each to
the largest remainders, the lower port first (R311). -/
def selShares (ports : List (Nat × Nat)) : List (Nat × Nat) :=
  let W := (ports.map (·.2)).foldl (· + ·) 0
  if W = 0 then []
  else
    let fl := ports.map (fun p => (p.1, 64 * p.2 / W, 64 * p.2 % W))
    let spare := 64 - (fl.map (·.2.1)).foldl (· + ·) 0
    let order := fl.mergeSort (fun a b => decide (a.2.2 > b.2.2 ∨ (a.2.2 = b.2.2 ∧ a.1 ≤ b.1)))
    let extra := (order.take spare).map (·.1)
    fl.map (fun p => (p.1, p.2.1 + b2n (extra.contains p.1)))

/-- The port selection table as firmware writes it after a change of a port's state or width: a group's entries in port
order, each port's share consecutive (R311; the order of the entries is log 41). -/
def State.selTable (s : State) : Tbl Nat :=
  ((List.range 8).map (fun grp =>
    let ports := (s.upPorts.filter (fun l => (s.port l).group == grp)).map (fun l => (l, (s.port l).width))
    (((selShares ports).map (fun x => List.replicate x.2 x.1)).flatten).zipIdx.map (fun x => (grp * 64 + x.2, x.1)))).flatten

/-- Rewrite the selection table. -/
def State.reselect (s : State) : State := { s with links := { s.links with select := s.selTable } }

/-- The smallest tag of a port that no outstanding request uses. -/
def PortState.freeTag (p : PortState) : Option Nat := (List.range 4096).find? (fun t => p.reqs.all (fun r => r.tag != t))

/-- The port a remote access leaves by, if its group has one that is UP (R311). -/
def State.remotePort (s : State) (group addr dev window : Nat) : Option Nat :=
  let i := (nf addr 14 9 ^^^ dev % 64) ^^^ window % 64
  match tfind s.links.select (group * 64 + i) with
  | some l => if (s.port l).mode = .up then some l else none
  | none => none

/-- Header of a packet record (R301). -/
def recHdr (typ flags tag src dst window code len fmt group off : Nat) : Bytes :=
  recOf 32 [(0, 1, typ), (1, 1, flags), (2, 2, tag), (4, 1, src), (5, 1, dst), (6, 1, window), (7, 1, code), (8, 2, len),
    (10, 1, fmt), (12, 2, group), (16, 8, off)]

/-- Does the device exchange remote traffic with another: its number set, no farewell sent, the other not fenced (R310,
R316, R317). -/
def State.remoteOpen (s : State) (dev : Nat) : Bool :=
  s.links.device != 0xFF && !s.links.farewell && !s.links.fenced.contains dev

/-- A remote request leaves: READ (1), WRITE (2) or MEMOP (3). It is refused with status 0x05 where R310, R311 or R317 say
so, and waits while its port has 4,096 requests outstanding. -/
def State.remoteIssue (s : State) (iss : Issuer) (typ dev window group off len : Nat) (code fmt : Nat) (data : PBytes)
    (pkt : Option (Nat × Nat) := none) : MemSt × State :=
  if !s.remoteOpen dev then (.rem, s)
  else
    match s.remotePort group off dev window with
    | none => (.rem, s)
    | some l =>
      let p := s.port l
      match p.freeTag with
      | none => (.wait, s)
      | some t =>
        let r : RemoteReq := { tag := t, typ := typ, iss := iss, dev := dev, window := window, off := off, len := len, pkt := pkt }
        let flags := 4 * b2n (data.any (·.2))
        (.ok, (s.setPort l { p with reqs := p.reqs ++ [r] }).sendRec l
          { hdr := recHdr typ flags t s.links.device dev window code len fmt 0 off, data := data.map (·.1) })

/-- A remote read: the first time, a READ leaves for each 512 bytes at most and the access waits; once DATA has come, it
takes the bytes. -/
def State.remoteRead (s : State) (iss : Issuer) (dev window group off len : Nat) : PBytes × MemSt × State :=
  (parts 512 (len / 512 + 2) off len).foldl
    (fun (acc : PBytes × MemSt × State) x =>
      let (bs, st, s) := acc
      let same (r : RemoteReq) : Bool :=
        r.typ == 1 && r.iss == iss && r.dev == dev && r.window == window && r.off == x.1 && r.len == x.2
      match s.links.answers.find? (fun a => same a.req) with
      | some a =>
        let s := { s with links := { s.links with answers := s.links.answers.erase a } }
        let e := if a.code = 0 then MemSt.ok else if a.code = 3 then .unc else if a.code = 5 then .rem else .err
        (bs ++ mark (a.poison || a.code == 3) (slice a.data 0 x.2), st.join e, s)
      | none =>
        if (List.range 16).any (fun l => (s.port l).reqs.any same) then (bs ++ mark false (zeros x.2), .wait, s)
        else
          let (e, s) := s.remoteIssue iss 1 dev window group x.1 x.2 0 0 []
          (bs ++ mark false (zeros x.2), st.join (if e = .ok then .wait else e), s)) ([], .ok, s)

/-- A remote write: WRITE records of at most 512 bytes each. -/
def State.remoteWrite (s : State) (iss : Issuer) (dev window group off : Nat) (bs : PBytes) : MemSt × State :=
  (parts 512 (bs.length / 512 + 2) off bs.length).foldl
    (fun (acc : MemSt × State) x =>
      let (e, s) := acc.2.remoteIssue iss 2 dev window group x.1 x.2 0 0 ((bs.drop (x.1 - off)).take x.2)
      (acc.1.join e, s)) (.ok, s)

end Sys2Proof.Machine
end

