-- ==== Sys2Proof/Machine/Xlate.lean ====
section
/-! DEFINITION. Address translation: page tables, the partition filter, TLBs, walks and faults (chapter 09). -/
namespace Sys2Proof.Machine

/-- Translation unit d. -/
def State.xl (s : State) (d : Nat) : XlateState := tget {} s.xlate d
/-- Replace translation unit d. -/
def State.setXl (s : State) (d : Nat) (x : XlateState) : State := { s with xlate := tset s.xlate d x }

/-- Where a translated access goes: device memory with its hint, host memory, or a remote window (R227). -/
inductive Target where
  | dev (phys hint : Nat)
  | host (func phys : Nat)
  | remote (device window group off : Nat)
  deriving DecidableEq, Repr

/-- Fault causes of R235. -/
def xNotMapped : Nat := 1
/-- OFFLOADED -/
def xOffloaded : Nat := 2
/-- PERMISSION -/
def xPermission : Nat := 3
/-- BAD_ENTRY -/
def xBadEntry : Nat := 4
/-- OUTSIDE -/
def xOutside : Nat := 5
/-- TABLE_ERROR -/
def xTableError : Nat := 6

/-- Access kinds: bit 0 read, 1 write, 2 fetch, 3 memory-side operation (R238). -/
def kRead : Nat := 1
/-- Write. -/
def kWrite : Nat := 2
/-- Instruction fetch. -/
def kFetch : Nat := 4
/-- Memory-side operation. -/
def kMemop : Nat := 8

/-- Is an access of kind `acc` permitted by a leaf; `fw` tells a control processor in machine mode or a hub DMA engine
(R229). -/
def leafPermits (leaf acc : Nat) (fw : Bool) : Bool :=
  (!nbit leaf 7 || fw)
    && (!nbit acc 0 || nbit leaf 4) && (!nbit acc 1 || nbit leaf 5) && (!nbit acc 2 || nbit leaf 6)
    && (!nbit acc 3 || (nbit leaf 4 && nbit leaf 5))

/-- Are the reserved bits of a valid leaf zero and its target legal (R226, R227); `block` for a 512 MiB block. -/
def leafGood (leaf : Nat) (block : Bool) : Bool :=
  nf leaf 15 12 == 0 && !nbit leaf 11
    && (!block || nf leaf 28 16 == 0)
    && match nf leaf 3 2 with
       | 0 => nf leaf 63 52 == 0
       | 1 => nf leaf 58 52 == 0
       | 2 => nf leaf 52 52 == 0
       | _ => false

/-- Is a valid table entry well formed (R226). -/
def tableGood (e : Nat) : Bool := nf e 63 52 == 0 && nf e 15 12 == 0 && nf e 11 2 == 0

/-- Does a unit's filter for a partition pass the range of a device-memory leaf (R232). -/
def XlateState.passes (x : XlateState) (S part phys len : Nat) : Bool :=
  let f := tget 0 x.filter part
  match place S phys, place S (phys + len - 1) with
  | .dev k _, .dev _ _ =>
    if phys < 0xC000000000 then f.getLsbD k
    else
      let o := if phys < 0xF000000000 then phys - 0xC000000000 else phys - 0xC100000000
      decide (bf f 25 16 * gib ≤ o ∧ o + len ≤ bf f 41 32 * gib)
  | _, _ => false

/-- One 8-byte table read at the home slice with hint NORMAL (R230); none when it is uncorrectable or refused. -/
def State.tableRead (s : State) (iss : Issuer) (phys : Nat) : Option Nat × State :=
  let (bs, st, s) := s.devRead iss phys 8 hintNormal
  (if st = .ok then some (unle (bs.map (·.1))) else none, s)

/-- What a walk ends in. -/
inductive Walk where
  | hit (e : TlbEnt) (part : Nat)
  | fault (cause : Nat)
  deriving DecidableEq, Repr

/-- The cause of a fault at an entry with VALID clear. -/
def invalidCause (e : Nat) : Nat := if nbit e 11 then xOffloaded else xNotMapped

/-- The leaf checks and the partition filter at the end of a walk (R226, R232). -/
def walkLeaf (x : XlateState) (S asid part va leaf log2 : Nat) (block : Bool) : Walk :=
  if !leafGood leaf block then .fault xBadEntry
  else
    let (log2, leaf) :=
      if !block && nbit leaf 10 then (21, setNf leaf 51 16 (nf leaf 51 16 - nf va 20 16)) else (log2, leaf)
    if nf leaf 3 2 = 0 ∧ ¬ x.passes S part (nf leaf 51 16 <<< 16) (2 ^ log2) then .fault xOutside
    else .hit { asid := asid, base := va / 2 ^ log2 * 2 ^ log2, log2 := log2, leaf := BitVec.ofNat 64 leaf } part

/-- A walk of the three levels (R225, R231). Walker-cache entries are read again from memory: they only save time. -/
def State.walk (s : State) (d : Nat) (iss : Issuer) (asid va : Nat) : Walk × State :=
  let x := s.xl d
  if !x.asidReg.getLsbD 0 ∨ va ≥ 2 ^ 52 then (.fault xNotMapped, s)
  else
    match s.tableRead iss (bf x.asidReg 51 16 <<< 16 + asid * 8) with
    | (none, s) => (.fault xTableError, s)
    | (some a, s) =>
      if !nbit a 0 then (.fault xNotMapped, s)
      else
        let part := nf a 2 1
        match s.tableRead iss (nf a 51 16 <<< 16 + nf va 51 42 * 8) with
        | (none, s) => (.fault xTableError, s)
        | (some e0, s) =>
          if !nbit e0 0 then (.fault (invalidCause e0), s)
          else if nbit e0 1 || !tableGood e0 then (.fault xBadEntry, s)
          else
            match s.tableRead iss (nf e0 51 16 <<< 16 + nf va 41 29 * 8) with
            | (none, s) => (.fault xTableError, s)
            | (some e1, s) =>
              if !nbit e1 0 then (.fault (invalidCause e1), s)
              else if nbit e1 1 then (walkLeaf x s.dev.spreadS asid part va e1 29 true, s)
              else if !tableGood e1 then (.fault xBadEntry, s)
              else
                match s.tableRead iss (nf e1 51 16 <<< 16 + nf va 28 16 * 8) with
                | (none, s) => (.fault xTableError, s)
                | (some e2, s) =>
                  if !nbit e2 0 then (.fault (invalidCause e2), s)
                  else if !nbit e2 1 then (.fault xBadEntry, s)
                  else (walkLeaf x s.dev.spreadS asid part va e2 16 false, s)

/-- Does a TLB entry translate an address of an ASID. -/
def TlbEnt.covers (e : TlbEnt) (asid va : Nat) : Bool := e.asid == asid && va / 2 ^ e.log2 * 2 ^ e.log2 == e.base

/-- Output of a leaf for an address. -/
def TlbEnt.target (e : TlbEnt) (va : Nat) : Target :=
  let leaf := e.leaf.toNat
  let out := nf leaf 51 16 <<< 16
  let off := va - e.base
  match nf leaf 3 2 with
  | 0 => .dev (out + off) (nf leaf 9 8)
  | 1 => .host (nf leaf 63 59) (out + off)
  | _ => .remote (nf leaf 51 44) (nf leaf 63 56) (nf leaf 55 53) (nf leaf 43 16 <<< 16 + off)

/-- Add an entry to a TLB of `n` entries, most recently used first. -/
def tlbPut (n : Nat) (e : TlbEnt) (l : List TlbEnt) : List TlbEnt := (e :: l.filter (· != e)).take n

/-- Client TLB key: the unit identifier. -/
def XlateState.ctlbOf (x : XlateState) (client : W32) : List TlbEnt := tget [] x.ctlb client.toNat

/-- Translate an address: client TLB, shared TLB, walk (R233, R234). A walk that ends in a leaf installs it in both; no TLB
holds a translation for an invalid entry. -/
def State.translate (s : State) (d : Nat) (client : W32) (iss : Issuer) (asid va acc : Nat) (fw : Bool) :
    (Nat ⊕ Target) × State :=
  let x := s.xl d
  let fin (e : TlbEnt) (s : State) : (Nat ⊕ Target) × State :=
    if leafPermits e.leaf.toNat acc fw then (.inr (e.target va), s) else (.inl xPermission, s)
  match (x.ctlbOf client).find? (fun e => e.covers asid va) with
  | some e => fin e s
  | none =>
    match x.tlb.find? (fun e => e.covers asid va) with
    | some e =>
      fin e (s.setXl d { x with tlb := tlbPut 8192 e x.tlb, count := cnt x.count 0 1
                                ctlb := tset x.ctlb client.toNat (tlbPut 32 e (x.ctlbOf client)) })
    | none =>
      match (s.setXl d { x with count := cnt x.count 1 1 }).walk d iss asid va with
      | (.hit e _, s) =>
        let x := s.xl d
        fin e (s.setXl d { x with tlb := tlbPut 8192 e x.tlb
                                  ctlb := tset x.ctlb client.toNat (tlbPut 32 e (x.ctlbOf client)) })
      | (.fault c, s) => (.inl c, s)

/-- Identifier of the die of translation unit d. -/
def uidXlate (d : Nat) : W32 := if d < 12 then uid 0x02 d else uid 0x01 (d - 12)

/-- Log a refused or failed translation (R232, R235). -/
def State.logXlate (s : State) (d asid va cause : Nat) : State :=
  s.logAt 0x0305 (uidXlate d) va (le 2 asid ++ le 1 cause)

/-- OUTSIDE and TABLE_ERROR faults are also logged (R232, R235). -/
def State.logCause (s : State) (d asid va cause : Nat) : State :=
  if cause = xOutside ∨ cause = xTableError then s.logXlate d asid va cause else s

/-- A fault message leaves for the collector (R236, R237). -/
def State.postFault (s : State) (d : Nat) (w : WaitSlot) : State :=
  let x := s.xl d
  { s.setXl d { x with count := cnt x.count 3 1 } with
    bag := { s.bag with msgs := s.bag.msgs ++
      [{ page := w.va / 65536 * 65536, asid := w.asid, cause := w.cause, acc := w.acc, die := d, client := w.client, time := s.time }] } }

/-- A faulting access is placed in a wait slot and its fault posted; with all 64 slots in use it waits at the unit
(R236). An access that waits already is not placed again. -/
def State.raiseFault (s : State) (d : Nat) (client : W32) (asid va cause acc : Nat) : State :=
  let s := s.logCause d asid va cause
  let x := s.xl d
  let w : WaitSlot := { client := client, asid := asid, va := va, cause := cause, acc := acc }
  let same (y : WaitSlot) : Bool := y.client == client && y.asid == asid && y.va / 65536 == va / 65536
  if x.slots.any same || x.overflow.any same then s
  else if x.slots.length < 64 then (s.setXl d { x with slots := x.slots ++ [w] }).postFault d w
  else s.setXl d { x with overflow := x.overflow ++ [w] }

/-- Faults waiting at the unit take freed slots, in order (R236). -/
def State.refillSlots (s : State) (d : Nat) : State :=
  let x := s.xl d
  let n := 64 - x.slots.length
  let moved := x.overflow.take n
  moved.foldl (fun s w => s.postFault d w)
    (s.setXl d { x with slots := x.slots ++ moved, overflow := x.overflow.drop n })

/-- Release the wait slots of an ASID and page (R240). -/
def State.releaseSlots (s : State) (d asid page : Nat) : State :=
  let x := s.xl d
  (s.setXl d { x with slots := x.slots.filter (fun w => !(w.asid == asid && w.va / 65536 == page / 65536)) }).refillSlots d

/-- Count host accesses of an ASID in the access counters (R244, R245): 32-byte sectors of a 2 MiB region. -/
def State.countHost (s : State) (asid phys len : Nat) : State :=
  if !s.acc.asids.contains asid then s
  else
    let port := (phys - 0x100000000000) / 2 ^ 43
    let region := phys / 2 ^ 21 * 2 ^ 21
    let l := tget [] s.acc.ctrs port
    let same (c : AccCounter) : Bool := c.asid == asid && c.region == region
    let old := match l.find? same with
      | some c => c.count
      | none => 0
    let n := old + ((phys % 32) + len + 31) / 32
    let hot := n ≥ s.acc.threshold
    let c : AccCounter := { asid := asid, region := region, count := if hot then 0 else n }
    let s := { s with acc := { s.acc with ctrs := tset s.acc.ctrs port ((c :: l.filter (fun c => !same c)).take 4096) } }
    if hot then
      { s with bag := { s.bag with msgs := s.bag.msgs ++
        [{ page := region, asid := asid, cause := 0x10, acc := 0, die := 16, client := uid 0x0F port, time := s.time }] } }
    else s

/-- Read `len` bytes of a translated target, all within one page. Host memory is outside the block: its bytes are free
values (log 6). A remote read waits for its answer. -/
def State.tgtRead (s : State) (iss : Issuer) (t : Target) (len : Nat) (hint : Option Nat) : PBytes × MemSt × State :=
  match t with
  | .dev phys h => s.devRead iss phys len (hint.getD h)
  | .host _ phys =>
    let (b, s) := (s.countHost iss.asid phys len).freeBytes len
    (mark false b, .ok, s)
  | .remote d w g off => s.remoteRead iss d w g off len

/-- Write bytes to a translated target, all within one page. -/
def State.tgtWrite (s : State) (iss : Issuer) (t : Target) (bs : PBytes) (hint : Option Nat) : MemSt × State :=
  match t with
  | .dev phys h => s.devWrite iss phys bs (hint.getD h)
  | .host func phys => (.ok, (s.countHost iss.asid phys bs.length).emit (.hostWrite func phys (bs.map (·.1))))
  | .remote d w g off => s.remoteWrite iss d w g off bs

end Sys2Proof.Machine
end

