-- ==== Sys2Proof/Machine/Caches.lean ====
section
/-! DEFINITION. Core caches, cluster caches and the synchronisation operations (R115–R118, R161, R204–R209). -/
namespace Sys2Proof.Machine


/-- Partition of a core. -/
def State.partOfCore (s : State) (g : Nat) : Nat := s.partOfDie (dieOfCore g)

/-- ASID of the context that runs on a core's partition (R120). -/
def State.asidOfCore (s : State) (g : Nat) : Nat := tget 0 s.dev.partAsid (s.partOfCore g)

/-- Issuer of an access made for core g through its caches: the reader is the cluster (R175). -/
def State.issOfCore (s : State) (g : Nat) : Issuer :=
  { unit := uidCluster (clusterOf g), asid := s.asidOfCore g, cls := s.partOfCore g }

/-! ## Lines -/

/-- Line of a cache that holds an address of an ASID. -/
def lineAt (ls : List Line) (asid va : Nat) : Option Line := ls.find? (fun l => l.tag == va / 128 && l.asid == asid)

/-- Replace a line in place, dropping it when nothing in it is valid. -/
def lineSet (ls : List Line) (l : Line) : List Line :=
  if l.live then ls.map (fun x => if x.tag == l.tag && x.asid == l.asid then l else x)
  else ls.filter (fun x => !(x.tag == l.tag && x.asid == l.asid))

/-- Make a line the most recent of a cache of `ways` ways and `sets` sets; the line evicted, if any (R115, R116). -/
def lineFront (ls : List Line) (ways sets : Nat) (l : Line) : List Line × Option Line :=
  let others := ls.filter (fun x => !(x.tag == l.tag && x.asid == l.asid))
  let set := others.filter (fun x => x.tag % sets == l.tag % sets)
  if set.length < ways then (l :: others, none)
  else
    match set.getLast? with
    | some v => (l :: others.filter (fun x => !(x.tag == v.tag && x.asid == v.asid)), some v)
    | none => (l :: others, none)

/-- Write back the dirty sectors of a line to the home slice, under the translation that filled it (R142, R241). -/
def State.lineToSlice (s : State) (c : Nat) (l : Line) : State :=
  l.dirtySecs.foldl (fun s x =>
    (s.devWrite { unit := uidCluster c, asid := l.asid, cls := s.partOfDie (c / 63) } (l.phys + 32 * x.1)
      (mark x.2.poison x.2.data) l.hint).2) s

/-- Put a line in front of the cluster cache, writing back what it evicts. -/
def State.clusterFront (s : State) (c : Nat) (l : Line) : State :=
  let (ls, ev) := lineFront (s.cluster c).cache 16 1024 l
  let s := s.setCluster c { s.cluster c with cache := ls }
  match ev with
  | some v => s.lineToSlice c v
  | none => s

/-- Read one sector through the cluster cache: a miss is filled from the home slice (R116). -/
def State.clusterRead (s : State) (c : Nat) (iss : Issuer) (va phys hint : Nat) : Sec × MemSt × State :=
  let i := va / 32 % 4
  match lineAt (s.cluster c).cache iss.asid va with
  | some l =>
    if (l.sec i).valid then (l.sec i, .ok, s.clusterFront c l)
    else
      let (bs, st, s) := s.devRead iss (phys / 32 * 32) 32 hint
      let x : Sec := { valid := true, poison := bs.any (·.2), data := bs.map (·.1) }
      if st = .err then (x, st, s) else ({ x with dirty := false }, st, s.clusterFront c (l.setSec i x))
  | none =>
    let (bs, st, s) := s.devRead iss (phys / 32 * 32) 32 hint
    let x : Sec := { valid := true, poison := bs.any (·.2), data := bs.map (·.1) }
    if st = .err then (x, st, s)
    else (x, st, s.clusterFront c (({ tag := va / 128, asid := iss.asid, phys := phys / 128 * 128, hint := hint } : Line).setSec i x))

/-- A core cache's write-back of one sector into its cluster cache. -/
def State.clusterTake (s : State) (c : Nat) (l : Line) (i : Nat) (x : Sec) : State :=
  let base := match lineAt (s.cluster c).cache l.asid (l.tag * 128) with
    | some y => y
    | none => { tag := l.tag, asid := l.asid, phys := l.phys, hint := l.hint }
  s.clusterFront c (base.setSec i { x with dirty := true })

/-- Write back a core-cache line's dirty sectors into the cluster cache. -/
def State.lineToCluster (s : State) (g : Nat) (l : Line) : State :=
  l.dirtySecs.foldl (fun s x => s.clusterTake (clusterOf g) l x.1 x.2) s

/-- Put a line in front of a core cache, writing back what it evicts (R115: 4 ways of 128 sets). -/
def State.coreFront (s : State) (g : Nat) (l : Line) : State :=
  let (ls, ev) := lineFront (s.core g).cache 4 128 l
  let s := s.setCore g { s.core g with cache := ls }
  match ev with
  | some v => s.lineToCluster g v
  | none => s

/-- The sector of an address in core g's cache, filled on a miss. -/
def State.coreSec (s : State) (g : Nat) (iss : Issuer) (va phys hint : Nat) : Sec × MemSt × State :=
  let i := va / 32 % 4
  match lineAt (s.core g).cache iss.asid va with
  | some l =>
    if (l.sec i).valid then (l.sec i, .ok, s.coreFront g l)
    else
      let (x, st, s) := s.clusterRead (clusterOf g) iss va phys hint
      let x := { x with dirty := false }
      if st = .err then (x, st, s) else (x, st, s.coreFront g (l.setSec i x))
  | none =>
    let (x, st, s) := s.clusterRead (clusterOf g) iss va phys hint
    let x := { x with dirty := false }
    if st = .err then (x, st, s)
    else (x, st, s.coreFront g (({ tag := va / 128, asid := iss.asid, phys := phys / 128 * 128, hint := hint } : Line).setSec i x))

/-- Read up to a sector's bytes of device memory through core g's cache. -/
def State.coreLoad (s : State) (g : Nat) (va phys hint n : Nat) : PBytes × MemSt × State :=
  (secParts va n).foldl (fun (acc : PBytes × MemSt × State) p =>
    let (x, st, s) := acc.2.2.coreSec g (acc.2.2.issOfCore g) p.1 (phys + (p.1 - va)) hint
    (acc.1 ++ mark x.poison (slice x.data (p.1 % 32) p.2), acc.2.1.join st, s)) ([], .ok, s)

/-- Write bytes of device memory into core g's cache: write-allocate; a store of a whole sector reads nothing (R115). -/
def State.coreStore (s : State) (g : Nat) (va phys hint : Nat) (bs : Bytes) : MemSt × State :=
  (secParts va bs.length).foldl (fun (acc : MemSt × State) p =>
    let s := acc.2
    let iss := s.issOfCore g
    let part := (bs.drop (p.1 - va)).take p.2
    let i := p.1 / 32 % 4
    let (x, st, s) :=
      if p.2 = 32 then (({ valid := true, data := part } : Sec), MemSt.ok, s)
      else s.coreSec g iss p.1 (phys + (p.1 - va)) hint
    if st = .err then (acc.1.join st, s)
    else
      let x := { x with valid := true, dirty := true, data := putBytes (slice x.data 0 32) (p.1 % 32) part }
      let l := match lineAt (s.core g).cache iss.asid p.1 with
        | some l => l
        | none => { tag := p.1 / 128, asid := iss.asid, phys := (phys + (p.1 - va)) / 128 * 128, hint := hint }
      (acc.1, s.coreFront g (l.setSec i x))) (.ok, s)

/-! ## Synchronisation (R208, R209) -/

/-- Does a line hold a byte of a range; length 0 selects every line. -/
def lineIn (base len : Nat) (l : Line) : Bool :=
  len == 0 || decide (l.tag * 128 < base + len ∧ base < l.tag * 128 + 128)

/-- Lines of an ASID in a range. -/
def selLine (asid base len : Nat) (l : Line) : Bool := l.asid == asid && lineIn base len l

/-- Clean every selected line of a core cache, its dirty sectors written into the cluster cache. -/
def State.flushCore (s : State) (g : Nat) (sel : Line → Bool) : State :=
  let ls := (s.core g).cache.filter sel
  let s := ls.foldl (fun s l => s.lineToCluster g l) s
  s.setCore g { s.core g with cache := (s.core g).cache.map (fun l => if sel l then l.clean else l) }

/-- Clean every selected line of a cluster cache, its dirty sectors written to the home slices. -/
def State.flushCluster (s : State) (c : Nat) (sel : Line → Bool) : State :=
  let ls := (s.cluster c).cache.filter sel
  let s := ls.foldl (fun s l => s.lineToSlice c l) s
  s.setCluster c { s.cluster c with cache := (s.cluster c).cache.map (fun l => if sel l then l.clean else l) }

/-- Invalidate the selected lines of a core cache. -/
def State.dropCore (s : State) (g : Nat) (sel : Line → Bool) : State :=
  s.setCore g { s.core g with cache := (s.core g).cache.filter (fun l => !sel l) }

/-- Invalidate the selected lines of a cluster cache. -/
def State.dropCluster (s : State) (c : Nat) (sel : Line → Bool) : State :=
  s.setCluster c { s.cluster c with cache := (s.cluster c).cache.filter (fun l => !sel l) }

/-- FLUSH over a range at a scope: cluster scope cleans the core cache, wider scopes both (R208, R209). -/
def State.flushOp (s : State) (g scope base len : Nat) : State :=
  let sel := selLine (s.asidOfCore g) base len
  if scope = 0 then s
  else if scope = 1 then s.flushCore g sel
  else (s.flushCore g sel).flushCluster (clusterOf g) sel

/-- Invalidate a range in the caches of a scope. -/
def State.invOp (s : State) (g scope base len : Nat) : State :=
  let sel := selLine (s.asidOfCore g) base len
  if scope = 0 then s
  else if scope = 1 then s.dropCore g sel
  else (s.dropCore g sel).dropCluster (clusterOf g) sel

/-- FLUSH_INV; ACQUIRE does the same: dirty sectors are written back, then everything in the range is invalidated. -/
def State.flushInvOp (s : State) (g scope base len : Nat) : State := (s.flushOp g scope base len).invOp g scope base len

/-- The range registers of a core: SYNC_BASE and SYNC_LEN. -/
def CoreState.syncRange (c : CoreState) : Nat × Nat := ((tget 0 c.cp.csr 0x800).toNat, (tget 0 c.cp.csr 0x801).toNat)

/-- SYNC_OP as it reads after a write. -/
def syncWord (scope op : Nat) : W64 := pack 64 [(4, scope), (0, op)]

/-- A SYNC_OP write of a legal operation and scope: the register keeps it and the operation completes before the write
retires (R208). A write-back or an AMO of this model is performed when it is made, so RELEASE finds nothing outstanding. -/
def State.syncOp (s : State) (g scope op : Nat) : State :=
  let c := s.core g
  let (b, n) := c.syncRange
  let s := s.setCore g { c with cp := { c.cp with csr := tset c.cp.csr 0x802 (syncWord scope op) } }
  match op with
  | 1 => s.flushOp g scope b n
  | 2 | 3 => s.flushInvOp g scope b n
  | _ => s

/-- A sector in core g's cache and cluster cache is written back and invalidated before an AMO, LR or SC (R161). -/
def State.evictSector (s : State) (g va : Nat) : State :=
  let asid := s.asidOfCore g
  let i := va / 32 % 4
  let s := match lineAt (s.core g).cache asid va with
    | some l =>
      let x := l.sec i
      let s := if x.valid && x.dirty then s.clusterTake (clusterOf g) l i x else s
      s.setCore g { s.core g with cache := lineSet (s.core g).cache (l.setSec i {}) }
    | none => s
  match lineAt (s.cluster (clusterOf g)).cache asid va with
  | some l =>
    let x := l.sec i
    let s := if x.valid && x.dirty then
        (s.devWrite (s.issOfCore g) (l.phys + 32 * i) (mark x.poison x.data) l.hint).2 else s
    s.setCluster (clusterOf g) { s.cluster (clusterOf g) with cache := lineSet (s.cluster (clusterOf g)).cache (l.setSec i {}) }
  | none => s

/-! ## CC_OP (R117, R118) -/

/-- A write of CC_OP: ignored while BUSY; BUSY until CC_OP_DONE. -/
def State.ccOp (s : State) (c asid op : Nat) : State :=
  let x := s.cluster c
  if x.ccBusy then s
  else
    let s := s.setCluster c { x with ccAsid := BitVec.ofNat 16 asid, ccOp := BitVec.ofNat 2 op, ccBusy := true }
    match op with
    | 1 => (s.flushCluster c (fun l => l.asid == asid)).dropCluster c (fun l => l.asid == asid)
    | 2 => s.dropCluster c (fun l => l.asid == asid)
    | _ => s.dropCluster c (fun _ => true)

/-- CC_OP 0b01. -/
def execCcWritebackInvalidateAsid (c asid : Nat) (s : State) : Out := atUnit "cluster" c 252 (s.ccOp c asid 1)
/-- CC_OP 0b10. -/
def execCcInvalidateAsid (c asid : Nat) (s : State) : Out := atUnit "cluster" c 252 (s.ccOp c asid 2)
/-- CC_OP 0b11. -/
def execCcInvalidateAll (c : Nat) (s : State) : Out := atUnit "cluster" c 252 (s.ccOp c 0 3)
/-- CC_OP_DONE: BUSY clears (R118). -/
def execCcOpDone (c : Nat) (s : State) : Out :=
  atUnit "cluster" c 252 (s.setCluster c { s.cluster c with ccBusy := false })

/-- FLUSH (R209). -/
def execFlush (g scope : Nat) (s : State) : Out := atUnit "core" g 2016 (if scope < 5 then s.syncOp g scope 1 else s)
/-- FLUSH_INV (R209). -/
def execFlushInv (g scope : Nat) (s : State) : Out := atUnit "core" g 2016 (if scope < 5 then s.syncOp g scope 2 else s)
/-- ACQUIRE (R209). -/
def execAcquire (g scope : Nat) (s : State) : Out := atUnit "core" g 2016 (if scope < 5 then s.syncOp g scope 3 else s)
/-- RELEASE (R209). -/
def execRelease (g scope : Nat) (s : State) : Out := atUnit "core" g 2016 (if scope < 5 then s.syncOp g scope 4 else s)

end Sys2Proof.Machine
end

