-- ==== Sys2Proof/Machine/Flags.lean ====
section
/-! DEFINITION. Status and flag words computed from the state: interrupts pending, ARRAY_STATUS, ARRAY_CAPS, VEC_STATUS
and the FULL bits (R50, R56, R103, R108, R113). -/
namespace Sys2Proof.Machine

/-- Local interrupts pending: those recorded, and 21 exactly while the completion queue holds an entry (R103). -/
def CoreState.pend (c : CoreState) : List Nat := if c.cq = [] then c.mip else sins 21 c.mip

/-- ARRAY_STATUS (R50). -/
def ArrayState.statusWord (x : ArrayState) : Nat :=
  packN [(31, b2n x.err), (30, b2n x.gangAbort), (29, b2n x.isat), (28, b2n x.nanSeen), (16, x.errCode.toNat),
    (8, 16 - x.queue.length), (0, x.lastTag.toNat)]

/-- ARRAY_CAPS from the repair map (R50, R56). -/
def State.arrayCaps (s : State) (g a : Nat) : Nat :=
  let bad := tget [] s.dev.badCols (g * 4 + a)
  let low := (List.range 16).find? (fun i => bad.contains i)
  let spare := match low with
    | some i => if bad.contains 16 then 0xFF else i
    | none => 0xFF
  packN [(16, spare), (8, bad.length), (0, s.width g a)]

/-- VEC_STATUS (R108). -/
def VecState.statusWord (v : VecState) : Nat :=
  packN [(31, b2n v.err), (28, b2n v.nanSeen), (16, v.errCode.toNat), (8, 16 - v.queue.length), (0, v.lastTag.toNat)]

/-- A word of the FULL bits of 64 blocks. -/
def CoreState.fullWord (c : CoreState) (i : Nat) : Nat :=
  (List.range 64).foldl (fun n j => if c.full.contains (64 * i + j) then n + 2 ^ j else n) 0

end Sys2Proof.Machine
end

