-- ==== Sys2Proof/Machine/Hopper.lean ====
section
/-! DEFINITION. The hopper's registers and ingress, CORE_SCRUB and completion waits (R102, R111–R114, R119). -/
namespace Sys2Proof.Machine

/-- HOPPER_CTL as written: its reserved bits read zero. -/
def hctlMask (v : W64) : W64 := BitVec.ofNat 64 (nf v.toNat 31 20 <<< 20 + nf v.toNat 10 0)

/-- HOPPER_CTL_WRITE: the setting is recorded, and takes effect once no sow is sowing (R114). -/
def execHopperCtlWrite (g : Nat) (value : W64) (s : State) : Out :=
  atUnit "core" g 2016 (s.setCore g { s.core g with hctlNew := some (hctlMask value) })

/-- HOPPER_CTL_APPLY (R114). -/
def execHopperCtlApply (g : Nat) (s : State) : Out := atUnit "core" g 2016 (s.setCore g (s.core g).applyHctl)

/-- Blocks that the ones of a word name. -/
def wordBlocks (i : Nat) (v : W64) : List Nat := ((List.range 64).filter (fun j => v.getLsbD j)).map (· + 64 * i)

/-- HOPPER_SET_WRITE: writing 1 sets FULL (R113). -/
def execHopperSetWrite (g i : Nat) (value : W64) (s : State) : Out :=
  atUnit "core" g 2016 (s.setCore g { s.core g with full := (wordBlocks (i % 16) value).foldl (fun l b => sins b l) (s.core g).full })

/-- HOPPER_CLR_WRITE: writing 1 clears FULL; a write held on the block may then be released (R112, R113). -/
def execHopperClrWrite (g i : Nat) (value : W64) (s : State) : Out :=
  atUnit "core" g 2016 (s.setCore g { s.core g with full := (wordBlocks (i % 16) value).foldl (fun l b => srem b l) (s.core g).full })

/-- A MARK write of one whole block lands: its bytes, then FULL (R112). -/
def CoreState.landMark (c : CoreState) (block : Nat) (data : Bytes) (poison : Bool) : CoreState :=
  let c := c.wrp (block * 512) (mark poison (slice data 0 512))
  { c with full := sins block c.full }

/-! ## CORE_SCRUB (R119) -/

/-- CORE_SCRUB.GO: ignored while BUSY; the queued commands are discarded at once (R119 step 1). -/
def CoreState.scrubGo (c : CoreState) : CoreState :=
  if c.scrub then c
  else { c with scrub := true, arrays := c.arrays.map (fun e => (e.1, { e.2 with queue := [] })), vec := { c.vec with queue := [] } }

/-- CORE_SCRUB (R119). -/
def execCoreScrub (g : Nat) (s : State) : Out := atUnit "core" g 2016 (s.setCore g (s.core g).scrubGo)

/-- Has every command that left its queue completed, or does it only wait to post. -/
def CoreState.idle (c : CoreState) : Bool :=
  c.arrays.all (fun e => e.2.running.all (fun r => r.held)) && (c.vec.run.isNone || c.vec.held)

/-- Steps 3 to 6 of R119: memories zero, poison cleared, registers at reset, queues open, the completion queue empty and
the core cache invalid. -/
def CoreState.scrubbed (c : CoreState) : CoreState :=
  { c with
    mem := [], poison := [], arrays := [], vec := {}, full := [], hctl := 1024, hctlNew := none
    cq := [], cqWait := c.cqWait.filter (fun w => w.2 == .dma), cache := [], scrub := false }

/-- CORE_SCRUB_DONE: once the running commands have completed (R119); the core's TLB is emptied too. -/
def execCoreScrubDone (g : Nat) (s : State) : Out :=
  let c := s.core g
  atUnit "core" g 2016 <|
    if c.scrub && c.idle then
      let s := s.setCore g c.scrubbed
      let x := tget ({} : XlateState) s.xlate (siteOfCore g)
      { s with xlate := tset s.xlate (siteOfCore g) { x with ctlb := tdel x.ctlb (uidCore g).toNat } }
    else s

/-! ## Held completions (R102) -/

/-- The unit of a posted completion is freed: an array's unit, the vector unit, or the held descriptor of this core. -/
def State.freeHolder (s : State) (g : Nat) (h : Holder) : State :=
  let c := s.core g
  match h with
  | .arr a u => s.setCore g (c.setArr a ((c.arr a).dropRun u))
  | .vec => s.setCore g { c with vec := { c.vec with run := none, held := false } }
  | .dma =>
    let x := s.cluster (g / 8)
    s.setCluster (g / 8) { x with dma := { x.dma with running := delFirst (fun r => r.held && r.core == g) x.dma.running } }

/-- COMPLETION_WAIT_RELEASE: an entry has freed, and the oldest waiting completion is posted and its unit freed (R102). -/
def execCompletionWaitRelease (g : Nat) (s : State) : Out :=
  let c := s.core g
  atUnit "core" g 2016 <|
    match c.cqWait with
    | (e, h) :: rest =>
      if c.cq.length < 64 then (s.setCore g { c with cq := c.cq ++ [e], cqWait := rest }).freeHolder g h else s
    | [] => s

end Sys2Proof.Machine
end

