-- ==== Sys2Proof/Machine/CoreRegs.lean ====
section
/-! DEFINITION. The core and cluster register blocks (R50, R93–R97, R102, R108, R113, R114, R117, R119, R120, R125). -/
namespace Sys2Proof.Machine

/-- The 64-bit word at an 8-byte offset of core g's register block. -/
def State.coreReg (s : State) (g off : Nat) : Nat :=
  let c := s.core g
  if off < 0x100 then
    let a := off / 0x40
    let x := c.arr a
    match off % 0x40 with
    | 0x00 => s.arrayCaps g a
    | 0x08 => x.statusWord
    | 0x10 => x.errCmd.toNat % 2 ^ 64
    | 0x18 => x.errCmd.toNat / 2 ^ 64
    | 0x20 => x.active.toNat
    | 0x28 => x.stall.toNat
    | _ => 0
  else if off = 0x100 then packN [(8, b2n (c.cqWait != [])), (0, c.cq.length)]
  else if off = 0x200 then (c.hctlNew.getD c.hctl).toNat
  else if 0x280 ≤ off ∧ off < 0x300 then c.fullWord ((off - 0x280) / 8)
  else if off = 0x400 then c.vec.statusWord
  else if off = 0x500 then b2n c.scrub * 2 ^ 31
  else if 0x800 ≤ off ∧ off < 0x840 then nf c.cdmaWin.toNat ((off - 0x800) * 8 + 63) ((off - 0x800) * 8)
  else 0

/-- Is an 8-byte offset of the core register block one of a register. -/
def coreRegExists (off : Nat) : Bool :=
  (off < 0x100 && off % 0x40 < 0x30) || off == 0x100 || off == 0x200 || (0x280 ≤ off && off < 0x400) || off == 0x400
    || off == 0x500 || (0x800 ≤ off && off < 0x840)

/-- Byte `off` merged: the written value where `mask` is set, the old one elsewhere. -/
def mergeWord (old new mask : Nat) : Nat := (old &&& (2 ^ 64 - 1 - mask)) ||| (new &&& mask)

/-- Apply a command's state when it answers one. -/
def Out.st (o : Out) (s : State) : State :=
  match o with
  | .next s' => s'
  | _ => s

/-- Write the bytes that `mask` covers of the 64-bit word at an offset of core g's register block: each register by its
access codes; a store to 0x838 of CDMA_SUBMIT only fills the window here. -/
def State.coreRegWrite (s : State) (g off val mask : Nat) : State :=
  let c := s.core g
  let v := val &&& mask
  if off < 0x100 ∧ off % 0x40 = 0x08 then
    let a := off / 0x40
    let x := c.arr a
    s.setArr g a { x with
      err := x.err && !nbit v 31, gangAbort := x.gangAbort && !nbit v 30, isat := x.isat && !nbit v 29
      nanSeen := x.nanSeen && !nbit v 28 }
  else if off = 0x200 then s.setCore g { c with hctlNew := some (hctlMask (BitVec.ofNat 64 (mergeWord (c.hctlNew.getD c.hctl).toNat val mask))) }
  else if 0x300 ≤ off ∧ off < 0x380 then
    s.setCore g { c with full := (wordBlocks ((off - 0x300) / 8) (BitVec.ofNat 64 v)).foldl (fun l b => sins b l) c.full }
  else if 0x380 ≤ off ∧ off < 0x400 then
    s.setCore g { c with full := (wordBlocks ((off - 0x380) / 8) (BitVec.ofNat 64 v)).foldl (fun l b => srem b l) c.full }
  else if off = 0x400 then
    s.setCore g { c with vec := { c.vec with err := c.vec.err && !nbit v 31, nanSeen := c.vec.nanSeen && !nbit v 28 } }
  else if off = 0x500 then (if nbit v 0 then s.setCore g c.scrubGo else s)
  else if 0x800 ≤ off ∧ off < 0x840 then
    let sh := (off - 0x800) * 8
    s.setCore g { c with cdmaWin := BitVec.ofNat 512 (setNf c.cdmaWin.toNat (sh + 63) sh (mergeWord (nf c.cdmaWin.toNat (sh + 63) sh) val mask)) }
  else s

/-- The 64-bit word at an offset of cluster c's register block: CDMA_STATUS and CC_OP. -/
def State.clusterReg (s : State) (c off : Nat) : Nat :=
  let x := s.cluster c
  if off = 0x000 then
    packN [(32, x.dma.errCount.toNat), (24, x.dma.lastStatus.toNat), (16, x.dma.running.length),
      (0, (x.dma.queues.map (fun q => q.2.length)).foldl (· + ·) 0)]
  else if off = 0x100 then packN [(48, x.ccAsid.toNat), (1, x.ccOp.toNat), (0, b2n x.ccBusy)]
  else 0

/-- Write the word at an offset of cluster c's register block: only CC_OP is writable; a write while BUSY is ignored. -/
def State.clusterRegWrite (s : State) (c off val mask : Nat) : State :=
  if off = 0x100 then
    let v := mergeWord (s.clusterReg c off) val mask
    if nf v 2 1 = 0 then
      let x := s.cluster c
      if x.ccBusy then s else s.setCluster c { x with ccAsid := BitVec.ofNat 16 (nf v 63 48), ccOp := 0 }
    else s.ccOp c (nf v 63 48) (nf v 2 1)
  else s

end Sys2Proof.Machine
end

