-- ==== Sys2Proof/Machine/Memory.lean ====
section
/-! DEFINITION. The commands of chapters 05 and 06: fills, memory-side operations, write batches, buckets, granary
operations, the remap table, the gleaner and channel retraining. -/
namespace Sys2Proof.Machine

/-- The fill of R167: every data and spare slot zero with tag 0, every block's epoch 1, FILL_DONE set. Nothing written
before survives it (R168). -/
def StackState.fill (st : StackState) : StackState :=
  { st with
    raw := []
    ondie := []
    held := []
    lines := []
    remap := st.remap.map (fun e => (e.1, { e.2 with check := 0 }))
    epochs := (List.range 56).map (fun b => (b, 1))
    fillDone := true }

/-- FILL_DONE: the fill of a trained stack ends (R167). -/
def execFillDone (k : Nat) (s : State) : Out :=
  atUnit "stack" k 12 <|
    if (s.stack k).trained && !(s.stack k).fillDone && !(s.stack k).lost then s.setStack k (s.stack k).fill else s

/-! ## Memory-side operations (R157–R162) -/

/-- Status code of an ending: 0 done, 1 error response, 3 uncorrectable, 5 remote refusal (R125, R160); one that still
waits has none. -/
def MemSt.code : MemSt → Nat
  | .ok => 0
  | .wait => 0
  | .err => 1
  | .unc => 3
  | .rem => 5

/-- Sum of two elements in a format of R29 that R157 gives ADD: BF16 0x04, FP16 0x05, FP32 0x07, INT32 0x0E, INT64 0x0F;
none for another format. -/
def addFmt : Nat → Option (Nat × (Nat → Nat → Nat))
  | 0x07 => some (4, fun a b => f32 (Fl.add (ofF32 a) (ofF32 b)))
  | 0x04 => some (2, fun a b => flTo 8 7 (Fl.add (flOf 8 7 a) (flOf 8 7 b)))
  | 0x05 => some (2, fun a b => flTo 5 10 (Fl.add (flOf 5 10 a) (flOf 5 10 b)))
  | 0x0E => some (4, fun a b => (a + b) % 2 ^ 32)
  | 0x0F => some (8, fun a b => (a + b) % 2 ^ 64)
  | _ => none

/-- Bytes of a 32- or 64-bit operand. -/
def wbytes (wide : Bool) : Nat := if wide then 8 else 4

/-- An operation that returns the old value: its answer goes to the issuer. -/
def State.fetchOp (s : State) (iss : Issuer) (addr : Nat) (wide : Bool) (f : Nat → Nat) : State :=
  let (old, st, s) := s.memop iss addr (wbytes wide) (fun o => f o % 2 ^ (8 * wbytes wide))
  s.emit (.memAnswer iss.unit st.code (if st = .ok then old else 0))

/-- MEMOP_ADD: add an element into memory; nothing is returned but the status (R157, R158). -/
def execMemopAdd (iss : Issuer) (addr fmt val : Nat) (s : State) : Out :=
  match addFmt fmt with
  | some (n, f) =>
    let (_, st, s) := s.memop iss addr n (fun o => f o (val % 2 ^ (8 * n)))
    .next (s.emit (.memAnswer iss.unit st.code 0))
  | none => .next (s.emit (.memAnswer iss.unit 1 0))

/-- FETCH_ADD: integer, wrapping (R158). -/
def execFetchAdd (iss : Issuer) (addr : Nat) (wide : Bool) (val : Nat) (s : State) : Out :=
  .next (s.fetchOp iss addr wide (fun o => o + val))

/-- SWAP (R157). -/
def execSwap (iss : Issuer) (addr : Nat) (wide : Bool) (val : Nat) (s : State) : Out :=
  .next (s.fetchOp iss addr wide (fun _ => val))

/-- AND (R157). -/
def execMemopAnd (iss : Issuer) (addr : Nat) (wide : Bool) (val : Nat) (s : State) : Out :=
  .next (s.fetchOp iss addr wide (fun o => o &&& val))

/-- OR (R157). -/
def execMemopOr (iss : Issuer) (addr : Nat) (wide : Bool) (val : Nat) (s : State) : Out :=
  .next (s.fetchOp iss addr wide (fun o => o ||| val))

/-- XOR (R157). -/
def execMemopXor (iss : Issuer) (addr : Nat) (wide : Bool) (val : Nat) (s : State) : Out :=
  .next (s.fetchOp iss addr wide (fun o => o ^^^ val))

/-- Smaller of two signed operands. -/
def minS (w a b : Nat) : Nat := if sx w a ≤ sx w b then a else b
/-- Larger of two signed operands. -/
def maxS (w a b : Nat) : Nat := if sx w a ≤ sx w b then b else a

/-- Signed MIN (R157). -/
def execMemopMin (iss : Issuer) (addr : Nat) (wide : Bool) (val : Nat) (s : State) : Out :=
  .next (s.fetchOp iss addr wide (fun o => minS (8 * wbytes wide) o val))

/-- Signed MAX (R157). -/
def execMemopMax (iss : Issuer) (addr : Nat) (wide : Bool) (val : Nat) (s : State) : Out :=
  .next (s.fetchOp iss addr wide (fun o => maxS (8 * wbytes wide) o val))

/-- Unsigned MIN (R157). -/
def execMemopMinu (iss : Issuer) (addr : Nat) (wide : Bool) (val : Nat) (s : State) : Out :=
  .next (s.fetchOp iss addr wide (fun o => min o (val % 2 ^ (8 * wbytes wide))))

/-- Unsigned MAX (R157). -/
def execMemopMaxu (iss : Issuer) (addr : Nat) (wide : Bool) (val : Nat) (s : State) : Out :=
  .next (s.fetchOp iss addr wide (fun o => max o (val % 2 ^ (8 * wbytes wide))))

/-- Stack and sector of a physical address in device memory. -/
def State.sectorOf (s : State) (phys : Nat) : Option (Nat × Nat) :=
  match place s.dev.spreadS phys with
  | .dev k a => if (s.stack k).serves then some (k, a / 32) else none
  | _ => none

/-- The reserved load: the value, with the core's reservation placed on the sector (R162). It changes no byte; a read
that fails leaves the sector poisoned (R160). -/
def State.lrOp (s : State) (g : Nat) (iss : Issuer) (addr : Nat) (wide : Bool) : Nat × MemSt × State :=
  match s.sectorOf addr with
  | some (k, sn) =>
    let (b, e, s) := s.memopSector k sn (fun b => b) iss
    let s := s.setCore g { s.core g with resv := some (k, sn) }
    (rd b (addr % 32) (wbytes wide), if e then .unc else .ok, s)
  | none => (0, .err, s)

/-- The conditional store: 0 and the write while the reservation is held, else 1; the reservation goes in either case
(R162). -/
def State.scOp (s : State) (g : Nat) (iss : Issuer) (addr : Nat) (wide : Bool) (val : Nat) : Nat × MemSt × State :=
  match s.sectorOf addr with
  | some (k, sn) =>
    let held := (s.core g).resv = some (k, sn)
    let s := s.setCore g { s.core g with resv := none }
    if held then
      let (_, st, s) := s.memop iss addr (wbytes wide) (fun _ => val % 2 ^ (8 * wbytes wide))
      (0, st, s)
    else (1, .ok, s)
  | none => (0, .err, s.setCore g { s.core g with resv := none })

/-- LR (R162). -/
def execLr (g : Nat) (iss : Issuer) (addr : Nat) (wide : Bool) (s : State) : Out :=
  let (v, st, s') := s.lrOp g iss addr wide
  atUnit "core" g 2016 (s'.emit (.memAnswer iss.unit st.code (if st = .ok then v else 0)))

/-- SC (R162). -/
def execSc (g : Nat) (iss : Issuer) (addr : Nat) (wide : Bool) (val : Nat) (s : State) : Out :=
  let (v, st, s') := s.scOp g iss addr wide val
  atUnit "core" g 2016 (s'.emit (.memAnswer iss.unit st.code v))

/-! ## Controllers -/

/-- WRITE_BATCH_ISSUE: a pseudo-channel's held writes go to the stack together (R153). -/
def execWriteBatchIssue (k pc : Nat) (s : State) : Out :=
  atUnit "stack" k 12 (s.setStack k ((s.stack k).issueHeld (fun h => secPc h.sector == pc)))

/-- DEPTH of a bucket: smaller values act as 64. -/
def bucketDepth (r : W64) : Nat := max 64 (bf r 47 32)
/-- RATE of a bucket: larger values act as 76,800. -/
def bucketRate (r : W64) : Nat := min 76800 (bf r 16 0)

/-- One microsecond of a bucket: a written setting takes effect, and in REGULATED mode RATE tokens are gained up to DEPTH
(R150). -/
def Bucket.tick (b : Bucket) (priority : Bool) : Bucket :=
  let b := match b.new with
    | some r => { b with reg := r, new := none }
    | none => b
  if priority then b else { b with tokens := min (bucketDepth b.reg) (b.tokens + bucketRate b.reg) }

/-- BUCKET_TICK (R150). -/
def execBucketTick (k : Nat) (s : State) : Out :=
  atUnit "stack" k 12 <|
    s.setStack k { s.stack k with
      buckets := (List.range 5).map (fun i => (i, (tget {} (s.stack k).buckets i).tick s.dev.priority)) }

/-! ## Granary operations (R145, R146) -/

/-- The lines a granary operation acts on. -/
def granSel (op asid part : Nat) (l : Line) : Bool :=
  match op with
  | 1 | 2 | 3 => l.asid == asid
  | 4 | 5 => true
  | 6 => l.prot == some part
  | _ => false

/-- The walk of GRAN_OP over the slice's lines (R146). -/
def StackState.granWalk (st : StackState) (priority : Bool) (op asid part : Nat) : StackState :=
  let sel := granSel op asid part
  if op = 3 then { st with lines := st.lines.map (fun l => if sel l then { l with prot := none } else l) }
  else if op = 2 ∨ op = 5 then { st with lines := st.lines.filter (fun l => !sel l) }
  else
    let st' := (st.lines.filter sel).foldl (fun x l => x.evictLine priority 4 l) st
    { st' with lines := if op = 4 then st.lines.map Line.clean else st.lines.filter (fun l => !sel l) }

/-- A write of GRAN_OP: ignored while BUSY; BUSY until GRAN_OP_DONE (R146). -/
def State.granOp (s : State) (k op asid part : Nat) : State :=
  let st := s.stack k
  if st.gBusy then s
  else
    s.setStack k ({ st with gAsid := BitVec.ofNat 16 asid, gPart := BitVec.ofNat 2 part,
                            gOp := BitVec.ofNat 3 op, gBusy := true } |>.granWalk s.dev.priority op asid part)

/-- GRAN_OP 0b001. -/
def execGranWritebackInvalidateAsid (k asid : Nat) (s : State) : Out := atUnit "stack" k 12 (s.granOp k 1 asid 0)
/-- GRAN_OP 0b010. -/
def execGranInvalidateAsid (k asid : Nat) (s : State) : Out := atUnit "stack" k 12 (s.granOp k 2 asid 0)
/-- GRAN_OP 0b011. -/
def execGranClearProtectionAsid (k asid : Nat) (s : State) : Out := atUnit "stack" k 12 (s.granOp k 3 asid 0)
/-- GRAN_OP 0b100. -/
def execGranWritebackAll (k : Nat) (s : State) : Out := atUnit "stack" k 12 (s.granOp k 4 0 0)
/-- GRAN_OP 0b101. -/
def execGranInvalidateAll (k : Nat) (s : State) : Out := atUnit "stack" k 12 (s.granOp k 5 0 0)
/-- GRAN_OP 0b110. -/
def execGranWritebackInvalidatePart (k part : Nat) (s : State) : Out := atUnit "stack" k 12 (s.granOp k 6 0 part)

/-- GRAN_OP_DONE: the walk ends and BUSY clears (R146). -/
def execGranOpDone (k : Nat) (s : State) : Out :=
  atUnit "stack" k 12 (s.setStack k { s.stack k with gBusy := false })

/-- Insert by set number, stably. -/
def insSet (l : Line) : List Line → List Line
  | [] => [l]
  | x :: t => if granSet l.tag < granSet x.tag then l :: x :: t else x :: insSet l t

/-- Clear protection from lines of partition p in set order until its use is within quota (R145). -/
def StackState.trimKeep (st : StackState) (p : Nat) : StackState :=
  let prot := (st.lines.filter (fun l => l.prot == some p)).foldl (fun acc l => insSet l acc) []
  let drop := (prot.take (prot.length - st.quotaLines p)).map (fun l => l.tag)
  { st with lines := st.lines.map (fun l => if drop.contains l.tag then { l with prot := none } else l) }

/-- A write of GRAN_QUOTA: ignored when the quotas exceed 128 MiB together (R145). -/
def StackState.setQuota (st : StackState) (value : W64) : StackState :=
  if bf value 7 0 + bf value 15 8 + bf value 23 16 + bf value 31 24 > 128 then st
  else
    (List.range 4).foldl (fun st p => st.trimKeep p) { st with quota := BitVec.ofNat 64 (value.toNat % 2 ^ 32) }

/-- GRAN_QUOTA_WRITE (R145). -/
def execGranQuotaWrite (k : Nat) (value : W64) (s : State) : Out :=
  atUnit "stack" k 12 (s.setStack k ((s.stack k).setQuota value))

/-! ## The remap table (R176–R178) -/

/-- Is the spare slot of a row in a pseudo-channel free for a sector's first choice. -/
def StackState.spareFree (st : StackState) (pc row : Nat) : Bool :=
  !(st.remap.any (fun e => e.2.valid && secPc e.2.sector == pc && e.2.spareRow == row))
    && !(st.spentSpares.contains (pc, row))

/-- The spare row firmware chooses for a sector: its own row, else the nearest free one of its bank, the lower of two at
equal distance (R176). -/
def StackState.spareChoice (st : StackState) (sn : Nat) : Option Nat :=
  let pc := secPc sn
  let row := secRow sn
  let br := row / 64
  (((List.range 8192).flatMap (fun d => (if d ≤ br then [br - d] else []) ++ (if d > 0 ∧ br + d < 8192 then [br + d] else []))).map
    (fun b => b * 64 + row % 64)).find? (fun r => st.spareFree pc r)

/-- The value REMAP_OP reads as while an operation runs. -/
def remapOpWord (op index row sector : Nat) : W64 := pack 64 [(63, 1), (61, op), (56, index), (32, row), (0, sector)]

/-- REMAP_OP install: the sector is read, written with its check bytes to the spare slot and the entry set VALID, or the
install is refused with REMAP_ERR (R177). -/
def State.remapInstallOp (s : State) (k index sector row : Nat) : State :=
  let st := s.stack k
  if st.remapBusy then s
  else
    let st := { st with remapBusy := true, remapReg := remapOpWord 1 index row sector }
    let e := tget ({} : RemapEnt) st.remap index
    let refuse := (e.valid && e.sector != sector)
      || st.remap.any (fun x => x.1 != index && x.2.valid && x.2.sector == sector)
      || st.remap.any (fun x => x.1 != index && x.2.valid && secPc x.2.sector == secPc sector && x.2.spareRow == row)
    if refuse then s.setStack k { st with remapErr := true }
    else
      let s := s.setStack k (st.issueHeld (fun h => h.sector == sector))
      let (kind, r, s) := s.ctlRead k sector { unit := uidStack k, asid := 0, cls := 4 }
      let st := s.stack k
      let ent : RemapEnt := { valid := true, sector := sector, spareRow := row }
      let st := { st with
        remap := tset st.remap index ent
        spentSpares := if e.valid then (secPc sector, e.spareRow) :: st.spentSpares else st.spentSpares
        hard := srem sector st.hard }
      let s := s.setStack k (st.burstWrite sector r.data kind.bad)
      (s.logAt 0x0106 (uidStack k) (physOf s.dev.spreadS k (sector * 32)) (le 1 index ++ le 4 row)).trigSettings 5

/-- REMAP_INSTALL; without a named row, firmware's choice of R176. -/
def execRemapInstall (k index sector : Nat) (spareRow : Option Nat) (s : State) : Out :=
  atUnit "stack" k 12 <|
    match spareRow with
    | some r => s.remapInstallOp k index sector r
    | none =>
      match (s.stack k).spareChoice sector with
      | some r => s.remapInstallOp k index sector r
      | none => s

/-- REMAP_OP remove: the entry is cleared and the sector reads as unwritten until it is written (R177): its home slot
takes the start-up fill's word, zero with tag 0. -/
def execRemapRemove (k index : Nat) (s : State) : Out :=
  atUnit "stack" k 12 <|
    let st := s.stack k
    if st.remapBusy then s
    else
      let e := tget ({} : RemapEnt) st.remap index
      let st := { st with remapBusy := true, remapReg := remapOpWord 2 index e.spareRow e.sector, remap := tset st.remap index ({} : RemapEnt) }
      (s.setStack k (if e.valid then st.setRawSec e.sector (zeros 32) (zeros 4) else st)).trigSettings 5

/-- REMAP_OP_DONE: BUSY and OP clear (R177). -/
def execRemapOpDone (k : Nat) (s : State) : Out :=
  atUnit "stack" k 12 <|
    s.setStack k { s.stack k with remapBusy := false, remapReg := setBf (s.stack k).remapReg 63 61 0 }

/-! ## The gleaner (R179–R181) -/

/-- Data sectors of a stack: 56 GiB ÷ 32. -/
def sectorsPerStack : Nat := 1879048192

/-- The gleaner moves on to the next sector; past the last a lap ends (R181). -/
def Gleaner.advance (g : Gleaner) (now : Nat) : Gleaner :=
  if g.pos + 1 < sectorsPerStack then { g with pos := g.pos + 1 }
  else
    { g with
      pos := 0, laps := g.laps + 1, overdue := false, lastMs := BitVec.ofNat 32 ((now - g.lapStart) / 1000000)
      fixed := g.curFixed, unfixed := g.curUnfixed, curFixed := 0, curUnfixed := 0, lapStart := now
      lastList := g.curList, curList := [] }

/-- One gleaner read and what follows from its outcome (R179, R180). -/
def State.gleanOp (s : State) (k : Nat) : State :=
  let st := s.stack k
  let sn := st.glean.pos
  if st.held.any (fun h => h.sector == sn) then s.setStack k { st with glean := st.glean.advance s.time }
  else
    let (kind, data, st) := st.burstRead sn
    let g := st.glean
    match kind with
    | .corrected _ =>
      let st := st.burstWrite sn data false
      let again := g.lastList.contains sn
      let s := s.setStack k { st with
        glean := { g with curFixed := satAdd g.curFixed 1, curList := g.curList ++ [sn] }.advance s.time }
      if again then s.judge k sn else s
    | .data =>
      let s := s.setStack k { st with glean := { g with curUnfixed := satAdd g.curUnfixed 1 }.advance s.time }
      s.logRead k sn .data (uidStack k)
    | kind => (s.setStack k { st with glean := g.advance s.time }).logRead k sn kind (uidStack k)

/-- GLEANER_READ: in an open MCLK the gleaner of an enabled, serving stack reads its next sector (R179). -/
def execGleanerRead (k : Nat) (s : State) : Out :=
  atUnit "stack" k 12 <|
    if (s.stack k).glean.ctl.getLsbD 31 && (s.stack k).serves then s.gleanOp k else s

/-- GLEAN_OVERDUE: a lap has run longer than MAX_LAP; OVERDUE is set and an EVENT is due (R181). -/
def execGleanOverdue (k : Nat) (s : State) : Out :=
  atUnit "stack" k 12 <|
    let st := s.stack k
    if st.glean.overdue then s
    else
      (s.setStack k { st with glean := { st.glean with overdue := true } }).logAt 0x0108 (uidStack k) 0
        (le 4 ((s.time - st.glean.lapStart) / 1000000))

/-! ## Retraining of a channel (R183) -/

/-- CHANNEL_RETRAIN: a retraining starts; the channel's accesses wait. -/
def execChannelRetrain (k channel : Nat) (s : State) : Out :=
  atUnit "stack" k 12 <|
    let st := s.stack k
    s.setStack k { st with retrain := tset st.retrain channel { tget ({} : Retrain) st.retrain channel with busy := true } }

/-- CHANNEL_RETRAIN_DONE: a third successive failure declares the stack lost with LOSS_CAUSE 0x02. -/
def execChannelRetrainDone (k channel : Nat) (ok : Bool) (s : State) : Out :=
  atUnit "stack" k 12 <|
    let st := s.stack k
    let r := tget ({} : Retrain) st.retrain channel
    if !r.busy then s
    else
      let r' : Retrain := { busy := false, fails := if ok then 0 else r.fails + 1 }
      let st := { st with retrain := tset st.retrain channel r' }
      s.setStack k (if r'.fails ≥ 3 ∧ ¬ st.lost then { st with lost := true, lossCause := 2 } else st)

end Sys2Proof.Machine
end

