-- ==== Sys2Proof/Machine/RiscV.lean ====
section
/-! DEFINITION. RV64IMC as R98 names it: integer arithmetic, immediates and the expansion of compressed instructions
(PRESUMED from the RISC-V unprivileged specification, log 24). -/
namespace Sys2Proof.Machine

/-- 2^64. -/
def two64 : Nat := 2 ^ 64

/-- Sign-extend the low w bits to 64. -/
def sext (w n : Nat) : Nat := wrapI 64 (sx w n)

/-- Sum of a register and a signed offset, modulo 2^64. -/
def addI (a : Nat) (i : Int) : Nat := wrapI 64 ((a : Int) + i)

/-- Arithmetic right shift of the low w bits. -/
def sra (w n k : Nat) : Nat := wrapI 64 (sx w n / 2 ^ k)

/-- Division of RISC-V: by zero −1, overflow the dividend. -/
def divS (w a b : Nat) : Nat :=
  let x := sx w a
  let y := sx w b
  if y = 0 then two64 - 1 else wrapI 64 (sx w (wrapI w (x.tdiv y)))

/-- Remainder of RISC-V: by zero the dividend. -/
def remS (w a b : Nat) : Nat :=
  let x := sx w a
  let y := sx w b
  if y = 0 then wrapI 64 x else wrapI 64 (x.tmod y)

/-- Unsigned division. -/
def divU (w a b : Nat) : Nat := let x := a % 2 ^ w; let y := b % 2 ^ w; if y = 0 then two64 - 1 else sext w (x / y)

/-- Unsigned remainder. -/
def remU (w a b : Nat) : Nat := let x := a % 2 ^ w; let y := b % 2 ^ w; if y = 0 then sext w x else sext w (x % y)

/-- OP: register-register operations of 64 bits. -/
def alu (f3 f7 a b : Nat) : Option Nat :=
  match f7, f3 with
  | 0, 0 => some ((a + b) % two64)
  | 0x20, 0 => some ((a + two64 - b) % two64)
  | 0, 1 => some ((a <<< (b % 64)) % two64)
  | 0, 2 => some (b2n (decide (sx 64 a < sx 64 b)))
  | 0, 3 => some (b2n (decide (a < b)))
  | 0, 4 => some (a ^^^ b)
  | 0, 5 => some (a >>> (b % 64))
  | 0x20, 5 => some (sra 64 a (b % 64))
  | 0, 6 => some (a ||| b)
  | 0, 7 => some (a &&& b)
  | 1, 0 => some (a * b % two64)
  | 1, 1 => some (wrapI 64 (sx 64 a * sx 64 b / 2 ^ 64))
  | 1, 2 => some (wrapI 64 (sx 64 a * (b : Int) / 2 ^ 64))
  | 1, 3 => some (a * b / two64)
  | 1, 4 => some (divS 64 a b)
  | 1, 5 => some (divU 64 a b)
  | 1, 6 => some (remS 64 a b)
  | 1, 7 => some (remU 64 a b)
  | _, _ => none

/-- OP-32: operations on words. -/
def alu32 (f3 f7 a b : Nat) : Option Nat :=
  match f7, f3 with
  | 0, 0 => some (sext 32 (a + b))
  | 0x20, 0 => some (sext 32 (a + two64 - b))
  | 0, 1 => some (sext 32 (a <<< (b % 32)))
  | 0, 5 => some (sext 32 ((a % 2 ^ 32) >>> (b % 32)))
  | 0x20, 5 => some (sra 32 a (b % 32))
  | 1, 0 => some (sext 32 (a * b))
  | 1, 4 => some (divS 32 a b)
  | 1, 5 => some (divU 32 a b)
  | 1, 6 => some (remS 32 a b)
  | 1, 7 => some (remU 32 a b)
  | _, _ => none

/-- OP-IMM. -/
def aluImm (f3 imm12 a : Nat) : Option Nat :=
  let i := sext 12 imm12
  match f3 with
  | 1 => if imm12 / 64 = 0 then some ((a <<< (imm12 % 64)) % two64) else none
  | 5 => if imm12 / 64 = 0 then some (a >>> (imm12 % 64)) else if imm12 / 64 = 0x10 then some (sra 64 a (imm12 % 64)) else none
  | f => alu f 0 a i

/-- OP-IMM-32. -/
def aluImm32 (f3 imm12 a : Nat) : Option Nat :=
  match f3 with
  | 0 => some (sext 32 (a + sext 12 imm12))
  | 1 => if imm12 / 32 = 0 then some (sext 32 (a <<< (imm12 % 32))) else none
  | 5 => if imm12 / 32 = 0 then some (sext 32 ((a % 2 ^ 32) >>> (imm12 % 32)))
         else if imm12 / 32 = 0x20 then some (sra 32 a (imm12 % 32)) else none
  | _ => none

/-- Branch condition. -/
def branch (f3 a b : Nat) : Option Bool :=
  match f3 with
  | 0 => some (a == b)
  | 1 => some (a != b)
  | 4 => some (decide (sx 64 a < sx 64 b))
  | 5 => some (decide (sx 64 b ≤ sx 64 a))
  | 6 => some (decide (a < b))
  | 7 => some (decide (b ≤ a))
  | _ => none

/-- Immediates. -/
def immI (w : Nat) : Int := sx 12 (nf w 31 20)
/-- S-type immediate. -/
def immS (w : Nat) : Int := sx 12 (nf w 31 25 * 32 + nf w 11 7)
/-- B-type immediate. -/
def immB (w : Nat) : Int := sx 13 (nf w 31 31 * 4096 + nf w 7 7 * 2048 + nf w 30 25 * 32 + nf w 11 8 * 2)
/-- U-type immediate. -/
def immU (w : Nat) : Int := sx 32 (nf w 31 12 * 4096)
/-- J-type immediate. -/
def immJ (w : Nat) : Int := sx 21 (nf w 31 31 * 2 ^ 20 + nf w 19 12 * 4096 + nf w 20 20 * 2048 + nf w 30 21 * 2)

/-- Encodings used by the expansion of compressed instructions. -/
def encI (imm rs1 f3 rd op : Nat) : Nat := packN [(20, imm % 4096), (15, rs1), (12, f3), (7, rd), (0, op)]
/-- R type. -/
def encR (f7 rs2 rs1 f3 rd op : Nat) : Nat := packN [(25, f7), (20, rs2), (15, rs1), (12, f3), (7, rd), (0, op)]
/-- S type. -/
def encS (imm rs2 rs1 f3 op : Nat) : Nat :=
  packN [(25, imm / 32 % 128), (20, rs2), (15, rs1), (12, f3), (7, imm % 32), (0, op)]
/-- B type. -/
def encB (imm rs2 rs1 f3 : Nat) : Nat :=
  packN [(31, nf imm 12 12), (25, nf imm 10 5), (20, rs2), (15, rs1), (12, f3), (8, nf imm 4 1), (7, nf imm 11 11), (0, 0x63)]
/-- J type. -/
def encJ (imm rd : Nat) : Nat :=
  packN [(31, nf imm 20 20), (21, nf imm 10 1), (20, nf imm 11 11), (12, nf imm 19 12), (7, rd), (0, 0x6F)]

/-- The 32-bit instruction a compressed one stands for; none when it is illegal in RV64C without F and D. -/
def expandC (h : Nat) : Option Nat :=
  let rd := nf h 11 7
  let rs2 := nf h 6 2
  let rd' := 8 + nf h 4 2
  let rs1' := 8 + nf h 9 7
  let imm6 := wrapI 32 (sx 6 (nf h 12 12 * 32 + nf h 6 2))
  let f3 := nf h 15 13
  match h % 4 with
  | 0 =>
    match f3 with
    | 0 =>
      let u := nf h 10 7 * 64 + nf h 12 11 * 16 + nf h 5 5 * 8 + nf h 6 6 * 4
      if u = 0 then none else some (encI u 2 0 rd' 0x13)
    | 2 => some (encI (nf h 5 5 * 64 + nf h 12 10 * 8 + nf h 6 6 * 4) rs1' 2 rd' 0x03)
    | 3 => some (encI (nf h 6 5 * 64 + nf h 12 10 * 8) rs1' 3 rd' 0x03)
    | 6 => some (encS (nf h 5 5 * 64 + nf h 12 10 * 8 + nf h 6 6 * 4) rd' rs1' 2 0x23)
    | 7 => some (encS (nf h 6 5 * 64 + nf h 12 10 * 8) rd' rs1' 3 0x23)
    | _ => none
  | 1 =>
    match f3 with
    | 0 => some (encI imm6 rd 0 rd 0x13)
    | 1 => if rd = 0 then none else some (encI imm6 rd 0 rd 0x1B)
    | 2 => some (encI imm6 0 0 rd 0x13)
    | 3 =>
      if rd = 2 then
        let i := nf h 12 12 * 512 + nf h 4 3 * 128 + nf h 5 5 * 64 + nf h 2 2 * 32 + nf h 6 6 * 16
        if i = 0 then none else some (encI (wrapI 32 (sx 10 i)) 2 0 2 0x13)
      else if nf h 12 12 * 32 + nf h 6 2 = 0 then none
      else some (packN [(12, imm6 % 2 ^ 20), (7, rd), (0, 0x37)])
    | 4 =>
      let sh := nf h 12 12 * 32 + nf h 6 2
      match nf h 11 10 with
      | 0 => some (encI sh rs1' 5 rs1' 0x13)
      | 1 => some (encI (0x400 + sh) rs1' 5 rs1' 0x13)
      | 2 => some (encI imm6 rs1' 7 rs1' 0x13)
      | _ =>
        match nf h 12 12, nf h 6 5 with
        | 0, 0 => some (encR 0x20 rd' rs1' 0 rs1' 0x33)
        | 0, 1 => some (encR 0 rd' rs1' 4 rs1' 0x33)
        | 0, 2 => some (encR 0 rd' rs1' 6 rs1' 0x33)
        | 0, _ => some (encR 0 rd' rs1' 7 rs1' 0x33)
        | _, 0 => some (encR 0x20 rd' rs1' 0 rs1' 0x3B)
        | _, 1 => some (encR 0 rd' rs1' 0 rs1' 0x3B)
        | _, _ => none
    | 5 =>
      let i := nf h 12 12 * 2048 + nf h 8 8 * 1024 + nf h 10 9 * 256 + nf h 6 6 * 128 + nf h 7 7 * 64 + nf h 2 2 * 32 + nf h 11 11 * 16 + nf h 5 3 * 2
      some (encJ (wrapI 32 (sx 12 i)) 0)
    | f =>
      let i := nf h 12 12 * 256 + nf h 6 5 * 64 + nf h 2 2 * 32 + nf h 11 10 * 8 + nf h 4 3 * 2
      some (encB (wrapI 32 (sx 9 i)) 0 rs1' (if f = 6 then 0 else 1))
  | _ =>
    match f3 with
    | 0 => some (encI (nf h 12 12 * 32 + nf h 6 2) rd 1 rd 0x13)
    | 2 => if rd = 0 then none else some (encI (nf h 3 2 * 64 + nf h 12 12 * 32 + nf h 6 4 * 4) 2 2 rd 0x03)
    | 3 => if rd = 0 then none else some (encI (nf h 4 2 * 64 + nf h 12 12 * 32 + nf h 6 5 * 8) 2 3 rd 0x03)
    | 4 =>
      if nf h 12 12 = 0 then
        (if rs2 = 0 then (if rd = 0 then none else some (encI 0 rd 0 0 0x67)) else some (encR 0 rs2 0 0 rd 0x33))
      else if rs2 = 0 then (if rd = 0 then some 0x00100073 else some (encI 0 rd 0 1 0x67))
      else some (encR 0 rs2 rd 0 rd 0x33)
    | 6 => some (encS (nf h 8 7 * 64 + nf h 12 9 * 4) rs2 2 2 0x23)
    | 7 => some (encS (nf h 9 7 * 64 + nf h 12 10 * 8) rs2 2 3 0x23)
    | _ => none

end Sys2Proof.Machine
end

