-- ==== Sys2Proof/Machine/Cp.lean ====
section
/-! DEFINITION. The control processor (R94–R103, R161, R208, R236, R267, R268): its registers and traps, its accesses,
the array-issue extension and one instruction. -/
namespace Sys2Proof.Machine

/-! ## Registers and traps -/

/-- General register r; x0 reads zero. -/
def CoreState.xr (c : CoreState) (r : Nat) : Nat := if r = 0 then 0 else (tget 0 c.cp.x r).toNat

/-- Write register r; x0 discards writes. -/
def CoreState.setXr (c : CoreState) (r v : Nat) : CoreState :=
  if r = 0 then c else { c with cp := { c.cp with x := tset c.cp.x r (BitVec.ofNat 64 v) } }

/-- CSR as stored. -/
def CoreState.csr (c : CoreState) (n : Nat) : Nat := (tget 0 c.cp.csr n).toNat

/-- Store a CSR. -/
def CoreState.setCsr (c : CoreState) (n v : Nat) : CoreState :=
  { c with cp := { c.cp with csr := tset c.cp.csr n (BitVec.ofNat 64 v) } }

/-- Set the program counter. -/
def CoreState.setPc (c : CoreState) (v : Nat) : CoreState := { c with cp := { c.cp with pc := BitVec.ofNat 64 v } }

/-- Move past an instruction of n bytes, which retires. -/
def CoreState.adv (c : CoreState) (n : Nat) : CoreState :=
  { c with cp := { c.cp with pc := c.cp.pc + BitVec.ofNat 64 n, instret := c.cp.instret + 1 } }

/-- Stall the processor. -/
def CoreState.setStall (c : CoreState) (t : CpStall) : CoreState := { c with cp := { c.cp with stall := t } }

/-- Take a trap: mepc, mcause, mtval and mstatus saved, machine mode, the pc at mtvec (PRESUMED from the RISC-V
privileged specification, log 24). -/
def CoreState.trap (c : CoreState) (cause tval : Nat) (intr : Bool) : CoreState :=
  let ms := c.csr 0x300
  let ms' := setNf (setNf (setNf ms 7 7 (nf ms 3 3)) 3 3 0) 12 11 (if c.cp.mach then 3 else 0)
  let tv := c.csr 0x305
  let base := tv / 4 * 4
  let c := (((c.setCsr 0x341 c.cp.pc.toNat).setCsr 0x342 (cause + b2n intr * 2 ^ 63)).setCsr 0x343 tval).setCsr 0x300 ms'
  let c := c.setPc (if intr && tv % 4 == 1 then base + 4 * cause else base)
  { c with cp := { c.cp with mach := true, stall := .none } }

/-- Is an interrupt pending whose bit is set in mie (R103). -/
def CoreState.wakes (c : CoreState) : Bool := c.pend.any (fun i => nbit (c.csr 0x304) i)

/-- Can the processor execute: out of reset and not stalled. -/
def CoreState.cpReady (c : CoreState) : Bool := c.cp.stall == .none && !c.cp.inReset

/-! ## The array-issue extension (R100–R102) -/

/-- Is a queue mask one that AQ.PUSH and AQ.TRY accept. -/
def aqMaskOk (m : BitVec 7) : Bool := bf m 6 5 == 0 && m != 0 && !(m.getLsbD 4 && bf m 3 0 != 0)

/-- Queues a mask names: 0–3 arrays, 4 the vector unit. -/
def aqNamed (m : BitVec 7) : List Nat := (List.range 5).filter (fun i => m.getLsbD i)

/-- Is a queue closed. -/
def CoreState.qClosed (c : CoreState) (i : Nat) : Bool := if i = 4 then c.vec.err else (c.arr i).err

/-- Has a queue no free entry. -/
def CoreState.qFull (c : CoreState) (i : Nat) : Bool :=
  if i = 4 then c.vec.queue.length ≥ 16 else (c.arr i).queue.length ≥ 16

/-- Place a word in a queue. -/
def CoreState.qPut (c : CoreState) (w : CW) (i : Nat) : CoreState :=
  if i = 4 then { c with vec := { c.vec with queue := c.vec.queue ++ [w] } }
  else c.setArr i { c.arr i with queue := (c.arr i).queue ++ [w] }

/-- AQ.PUSH: a bad mask is an illegal instruction, a closed queue traps with mcause 24, a full queue stalls, otherwise the
word is placed in every named queue (R100). -/
def CoreState.aqPushOp (c : CoreState) (m : BitVec 7) (w : CW) (rd : Nat) : CoreState :=
  if !aqMaskOk m then c.trap 2 0 false
  else
    let qs := aqNamed m
    if qs.any c.qClosed then { c with cp := { c.cp with stall := .none } }.trap 24 0 false
    else if qs.any c.qFull then c.setStall (.aqPush (BitVec.ofNat 5 m.toNat) w rd)
    else ((qs.foldl (fun c i => c.qPut w i) (c.setStall .none)).setXr rd 0).adv 4

/-- AQ.TRY: placed everywhere or nowhere; the refusal mask in rd (R100). -/
def CoreState.aqTryOp (c : CoreState) (m : BitVec 7) (w : CW) (rd : Nat) : CoreState :=
  if !aqMaskOk m then c.trap 2 0 false
  else
    let qs := aqNamed m
    let bad := qs.filter (fun i => c.qClosed i || c.qFull i)
    if bad = [] then ((qs.foldl (fun c i => c.qPut w i) c).setXr rd 0).adv 4
    else (c.setXr rd (bad.foldl (fun n i => n + 2 ^ i) 0)).adv 4

/-- Take the oldest completion entry into rd, or EMPTY (R100, R102). -/
def CoreState.aqPop (c : CoreState) (rd : Nat) : CoreState :=
  let c := c.setStall .none
  match c.cq with
  | e :: t => ({ c with cq := t }.setXr rd e.toNat).adv 4
  | [] => (c.setXr rd cqEmpty.toNat).adv 4

/-- AQ.WAIT: an entry at once, EMPTY when an enabled interrupt is pending, otherwise a stall (R100, R103). -/
def CoreState.aqWaitOp (c : CoreState) (limit rd : Nat) : CoreState :=
  if c.cq != [] || c.wakes then c.aqPop rd else c.setStall (.aqWait rd limit)

/-- Execute on a ready processor. -/
def State.onCp (s : State) (g : Nat) (f : CoreState → CoreState) : State :=
  let c := s.core g
  if c.cpReady then s.setCore g (f c) else s

/-- AQ_PUSH (R100). -/
def execAqPush (g : Nat) (mask : BitVec 7) (word : BitVec 128) (rd : Nat) (s : State) : Out :=
  atUnit "core" g 2016 (s.onCp g (fun c => c.aqPushOp mask word rd))

/-- AQ_PUSH_PLACED: a waiting AQ.PUSH places its word once every named queue has a free entry (R100). -/
def execAqPushPlaced (g : Nat) (s : State) : Out :=
  let c := s.core g
  atUnit "core" g 2016 <|
    match c.cp.stall with
    | .aqPush m w rd => s.setCore g (c.aqPushOp (BitVec.ofNat 7 m.toNat) w rd)
    | _ => s

/-- AQ_TRY (R100). -/
def execAqTry (g : Nat) (mask : BitVec 7) (word : BitVec 128) (rd : Nat) (s : State) : Out :=
  atUnit "core" g 2016 (s.onCp g (fun c => c.aqTryOp mask word rd))

/-- AQ_POLL (R100). -/
def execAqPoll (g rd : Nat) (s : State) : Out := atUnit "core" g 2016 (s.onCp g (fun c => c.aqPop rd))

/-- AQ_WAIT (R100). -/
def execAqWait (g limit rd : Nat) (s : State) : Out := atUnit "core" g 2016 (s.onCp g (fun c => c.aqWaitOp limit rd))

/-- AQ_WAIT_WAKE: an entry, an enabled pending interrupt, or the limit ends the wait (R100, R103). -/
def execAqWaitWake (g : Nat) (s : State) : Out :=
  let c := s.core g
  atUnit "core" g 2016 <|
    match c.cp.stall with
    | .aqWait rd limit => if c.cq != [] || c.wakes || limit != 0 then s.setCore g (c.aqPop rd) else s
    | _ => s

/-! ## Barriers (R267, R268) -/

/-- A write of BARRIER: illegal while the last arrival has not departed; otherwise an arrival leaves for the stop. -/
def CoreState.barrierWrite (c : CoreState) (id : Nat) : CoreState :=
  if !c.departed then c.trap 2 0 false
  else { c with departed := false, barId := id % 256, barSent := c.barSent ++ [id % 256] }.adv 4

/-- BARRIER_WAIT's value. -/
def CoreState.barWord (c : CoreState) : Nat := b2n c.departed * 2 ^ 63 + c.barId

/-- A read of BARRIER_WAIT. -/
def CoreState.barrierRead (c : CoreState) (rd : Nat) : CoreState :=
  if c.departed || c.wakes then ((c.setStall .none).setXr rd c.barWord).adv 4 else c.setStall (.barrier rd)

/-- BARRIER_CSR_WRITE (R267, R268). -/
def execBarrierCsrWrite (g id : Nat) (s : State) : Out := atUnit "core" g 2016 (s.onCp g (fun c => c.barrierWrite id))

/-- BARRIER_WAIT_READ (R268). -/
def execBarrierWaitRead (g rd : Nat) (s : State) : Out := atUnit "core" g 2016 (s.onCp g (fun c => c.barrierRead rd))

/-- BARRIER_WAIT_WAKE (R268). -/
def execBarrierWaitWake (g : Nat) (s : State) : Out :=
  let c := s.core g
  atUnit "core" g 2016 <|
    match c.cp.stall with
    | .barrier rd => s.setCore g (c.barrierRead rd)
    | _ => s

/-! ## Accesses -/

/-- How an access of the control processor ends: with a value, in a trap, or waiting for a translation fault or for room
in the DMA queue. -/
inductive CpAcc where
  | ok (v : Nat) | trap (cause tval : Nat) | stall (t : CpStall)
  deriving DecidableEq, Repr

/-- Base of the core-local aperture (R94). -/
def aperture : Nat := 0xFFFFFFF000000

/-- End of the range a PMP entry names, TOR or NAPOT; none when it is off (PRESUMED, log 24). -/
def pmpRange (prev addr cfg : Nat) : Option (Nat × Nat) :=
  match nf cfg 4 3 with
  | 1 => some (prev * 4, addr * 4)
  | 2 => some (addr * 4, addr * 4 + 4)
  | 3 =>
    let k := (List.range 54).findIdx (fun i => !nbit addr i)
    some (addr / 2 ^ k * 2 ^ k * 4, addr / 2 ^ k * 2 ^ k * 4 + 2 ^ (k + 3))
  | _ => none

/-- Physical memory protection of 8 regions, checked on the address the processor issues (PRESUMED, log 24). -/
def CoreState.pmpOk (c : CoreState) (mach : Bool) (va n acc : Nat) : Bool :=
  let cfgs := c.csr 0x3A0
  let hit := (List.range 8).find? (fun i =>
    match pmpRange (if i = 0 then 0 else c.csr (0x3AF + i)) (c.csr (0x3B0 + i)) (nf cfgs (8 * i + 7) (8 * i)) with
    | some (lo, hi) => decide (lo < va + n ∧ va < hi)
    | none => false)
  let whole (i : Nat) : Bool :=
    match pmpRange (if i = 0 then 0 else c.csr (0x3AF + i)) (c.csr (0x3B0 + i)) (nf cfgs (8 * i + 7) (8 * i)) with
    | some (lo, hi) => decide (lo ≤ va ∧ va + n ≤ hi)
    | none => false
  match hit with
  | none => mach || (List.range 8).all (fun i => nf (nf cfgs (8 * i + 7) (8 * i)) 4 3 == 0)
  | some i =>
    let cfg := nf cfgs (8 * i + 7) (8 * i)
    if !whole i then false
    else if mach && !nbit cfg 7 then true
    else (acc != kRead || nbit cfg 0) && (!(acc == kWrite || acc == kMemop) || nbit cfg 1) && (acc != kFetch || nbit cfg 2)

/-- Mode that data accesses use: MPRV takes MPP's (PRESUMED, log 24). -/
def CoreState.dataMach (c : CoreState) : Bool :=
  if c.cp.mach && nbit (c.csr 0x300) 17 then nf (c.csr 0x300) 12 11 == 3 else c.cp.mach

/-- Log that the control processor consumed poison (R486). -/
def State.cpPoison (s : State) (g cause va : Nat) : State := s.logPoison (uidCore g) 1 cause va

/-- Does a command of an array write the cells or units a load reads (R95). -/
def CoreState.busyCell (c : CoreState) (x : Nat) : Bool :=
  if 0xC0000 ≤ x ∧ x < 0xD0000 then
    let a := (x - 0xC0000) / 0x4000
    let col := x % 1024 / 4
    (c.arr a).running.any (fun r => !r.done && (touch { c.arr a with tiles := r.prevTiles } r.word).accW.contains col)
  else
    let a := (x - 0x100000) / 0x10000
    (c.arr a).running.any (fun r => !r.done && (touch (c.arr a) r.word).inW.contains (x % 0x10000 / 512))

/-- A load from the aperture (R93, R95, R99, R486). -/
def State.apLoad (s : State) (g x n va : Nat) : CpAcc × State :=
  let c := s.core g
  if x % n ≠ 0 then (.trap 4 va, s)
  else if x < 0xC0000 ∨ (0x100000 ≤ x ∧ x < 0x140000) then
    if c.pzAny x n then (.trap 5 va, s.cpPoison g 5 va)
    else if x ≥ 0x100000 && c.busyCell x then
      let (b, s) := s.freeBytes n
      (.ok (unle b), s)
    else (.ok (unle (c.rdm x n)), s)
  else if x < 0xD0000 then
    if c.busyCell x then
      let (b, s) := s.freeBytes n
      (.ok (unle b), s)
    else (.ok (unle (c.rdm x n)), s)
  else if 0x200000 ≤ x ∧ x < 0x201000 then
    let off := x - 0x200000
    if coreRegExists (off / 8 * 8) then (.ok (s.coreReg g (off / 8 * 8) >>> (8 * (off % 8)) % 2 ^ (8 * n)), s) else (.trap 5 va, s)
  else if 0x210000 ≤ x ∧ x < 0x211000 then
    let off := x - 0x210000
    if off / 8 * 8 = 0 ∨ off / 8 * 8 = 0x100 then
      (.ok (s.clusterReg (clusterOf g) (off / 8 * 8) >>> (8 * (off % 8)) % 2 ^ (8 * n)), s)
    else (.trap 5 va, s)
  else (.trap 5 va, s)

/-- Submit the window's descriptor to the cluster DMA; none while the core's queue is full (R120). -/
def State.cdmaPush (s : State) (g : Nat) : Option State :=
  let x := s.cluster (clusterOf g)
  let q := tget [] x.dma.queues (g % 8)
  if q.length < 16 then
    some (s.setCluster (clusterOf g) { x with dma := { x.dma with
      queues := tset x.dma.queues (g % 8) (q ++ [le 64 (s.core g).cdmaWin.toNat]) } })
  else none

/-- A store to the aperture (R93–R96, R99, R120). -/
def State.apStore (s : State) (g x n va v : Nat) : CpAcc × State :=
  let c := s.core g
  let user := !c.dataMach
  if x % n ≠ 0 then (.trap 6 va, s)
  else if x < 0xC0000 then (.ok 0, s.setCore g (c.wrm x (le n v)))
  else if 0x200000 ≤ x ∧ x < 0x201000 then
    let off := (x - 0x200000) / 8 * 8
    let sh := 8 * (x % 8)
    if !coreRegExists off || (user && (off == 0x200 || off == 0x500)) then (.trap 7 va, s)
    else
      let s := s.coreRegWrite g off (v % 2 ^ (8 * n) <<< sh) ((2 ^ (8 * n) - 1) <<< sh)
      if off = 0x838 then
        match s.cdmaPush g with
        | some s => (.ok 0, s)
        | none => (.stall (.cdma (BitVec.ofNat 64 v)), s)
      else (.ok 0, s)
  else if 0x210000 ≤ x ∧ x < 0x211000 then
    let off := (x - 0x210000) / 8 * 8
    let sh := 8 * (x % 8)
    if user ∨ (off ≠ 0 ∧ off ≠ 0x100) then (.trap 7 va, s)
    else (.ok 0, s.clusterRegWrite (clusterOf g) off (v % 2 ^ (8 * n) <<< sh) ((2 ^ (8 * n) - 1) <<< sh))
  else (.trap 7 va, s)

/-- A fetch (kFetch) or load (kRead) of n bytes outside or inside the aperture (R94, R98, R229, R236, R486). -/
def State.cpLoad (s : State) (g va n acc : Nat) : CpAcc × State :=
  let c := s.core g
  let fetch := acc == kFetch
  let fc := if fetch then 1 else 5
  let mach := if fetch then c.cp.mach else c.dataMach
  if va ≥ 2 ^ 52 then (.trap fc va, s)
  else if va ≥ aperture then
    if fetch then
      (if va - aperture < 0xC0000 then
        (if c.pzAny (va - aperture) n then (.trap 1 va, s.cpPoison g 1 va) else (.ok (unle (c.rdm (va - aperture) n)), s))
       else (.trap 1 va, s))
    else s.apLoad g (va - aperture) n va
  else if !c.pmpOk mach va n acc then (.trap fc va, s)
  else
    match s.translate (siteOfCore g) (uidCore g) (s.issOfCore g) (s.asidOfCore g) va acc mach with
    | (.inl cause, s) => (.stall (.fault va acc), s.raiseFault (siteOfCore g) (uidCore g) (s.asidOfCore g) va cause acc)
    | (.inr (.dev phys hint), s) =>
      let (bs, st, s) := s.coreLoad g va phys hint n
      if st = .err then (.trap fc va, s)
      else if bs.any (·.2) then (.trap fc va, s.cpPoison g fc va)
      else (.ok (unle (bs.map (·.1))), s)
    | (.inr t, s) =>
      let (bs, st, s) := s.tgtRead (s.issOfCore g) t n none
      if st = .wait then (.stall .remote, s)
      else if st ≠ .ok then (.trap fc va, s)
      else (.ok (unle (bs.map (·.1))), s)

/-- A store of n bytes; one to host or remote memory leaves the block (R207). -/
def State.cpStore (s : State) (g va n v : Nat) : CpAcc × State :=
  let c := s.core g
  if va ≥ 2 ^ 52 then (.trap 7 va, s)
  else if va ≥ aperture then s.apStore g (va - aperture) n va v
  else if !c.pmpOk c.dataMach va n kWrite then (.trap 7 va, s)
  else
    match s.translate (siteOfCore g) (uidCore g) (s.issOfCore g) (s.asidOfCore g) va kWrite c.dataMach with
    | (.inl cause, s) => (.stall (.fault va kWrite), s.raiseFault (siteOfCore g) (uidCore g) (s.asidOfCore g) va cause kWrite)
    | (.inr (.dev phys hint), s) =>
      let (st, s) := s.coreStore g va phys hint (le n v)
      (if st = .err then .trap 7 va else .ok 0, s)
    | (.inr t, s) =>
      let (st, s) := s.tgtWrite (s.issOfCore g) t (mark false (le n v)) none
      (if st = .wait then .stall .remote else if st ≠ .ok then .trap 7 va else .ok 0, s)

/-- The fields of an AMO: operation by funct5. -/
def amoFn (f5 n old v : Nat) : Nat :=
  match f5 with
  | 0x00 => old + v
  | 0x01 => v
  | 0x04 => old ^^^ v
  | 0x08 => old ||| v
  | 0x0C => old &&& v
  | 0x10 => minS (8 * n) old v
  | 0x14 => maxS (8 * n) old v
  | 0x18 => min old (v % 2 ^ (8 * n))
  | _ => max old (v % 2 ^ (8 * n))

/-- Is a funct5 one of the A extension. -/
def amoOk (f5 : Nat) : Bool := [0, 1, 2, 3, 4, 8, 0xC, 0x10, 0x14, 0x18, 0x1C].contains f5

/-- AMO, LR or SC: aligned, never in the aperture, the sector first written back and invalidated in the core's own caches,
then one memory-side operation (R95, R157, R161, R162). -/
def State.cpAmo (s : State) (g f5 va n v : Nat) : CpAcc × State :=
  let c := s.core g
  let lr := f5 == 2
  let fc := if lr then 5 else 7
  if va ≥ 2 ^ 52 ∨ va ≥ aperture then (.trap fc va, s)
  else if va % n ≠ 0 then (.trap (if lr then 4 else 6) va, s)
  else if !c.pmpOk c.dataMach va n kMemop then (.trap fc va, s)
  else
    match s.translate (siteOfCore g) (uidCore g) (s.issOfCore g) (s.asidOfCore g) va kMemop c.dataMach with
    | (.inl cause, s) => (.stall (.fault va kMemop), s.raiseFault (siteOfCore g) (uidCore g) (s.asidOfCore g) va cause kMemop)
    | (.inr (.dev phys _), s) =>
      let s := s.evictSector g va
      let (old, st, s) :=
        if lr then s.lrOp g (s.issOfCore g) phys (n == 8)
        else if f5 = 3 then s.scOp g (s.issOfCore g) phys (n == 8) v
        else s.memop (s.issOfCore g) phys n (fun o => amoFn f5 n o v % 2 ^ (8 * n))
      if st = .ok then (.ok (if f5 = 3 then old else sext (8 * n) old), s) else (.trap fc va, s)
    | (.inr _, s) => (.trap fc va, s)

/-! ## CSRs -/

/-- A CSR as read; none for one the profile of R98 does not have. The cycle count is a free value (R98 counts SCLK, which
the model does not; log 6). -/
def State.csrRead (s : State) (g n : Nat) : Option (Nat × State) :=
  let c := s.core g
  let plain := [0x300, 0x304, 0x305, 0x306, 0x340, 0x341, 0x342, 0x343, 0x800, 0x801, 0x802, 0x3A0]
  if plain.contains n || (0x3B0 ≤ n && n < 0x3B8) then some (c.csr n, s)
  else match n with
    | 0x301 => some (packN [(62, 2), (20, 1), (12, 1), (8, 1), (2, 1), (0, 1)], s)
    | 0x344 => some (c.pend.foldl (fun v i => v + 2 ^ i) 0, s)
    | 0xF11 | 0xF12 | 0xF13 | 0xF15 | 0x3A2 | 0x320 => some (0, s)
    | 0xF14 => some (g % 168, s)
    | 0xC00 | 0xB00 => let (v, s) := s.freeNat; some (v % two64, s)
    | 0xC01 => some (s.time, s)
    | 0xC02 | 0xB02 => some (c.cp.instret.toNat, s)
    | 0x810 => some (0, s)
    | _ => none

/-- Bits of mstatus that are held: MIE, MPIE, MPP, MPRV, TW. -/
def mstatusMask (v : Nat) : Nat :=
  let mpp := if nf v 12 11 = 3 then 3 else 0
  packN [(3, nf v 3 3), (7, nf v 7 7), (11, mpp), (17, nf v 17 17), (21, nf v 21 21)]

/-- Result of a CSR write: the new state, or none for an illegal one. -/
def State.csrWrite (s : State) (g n v : Nat) : Option State :=
  let c := s.core g
  match n with
  | 0x300 => some (s.setCore g (c.setCsr n (mstatusMask v)))
  | 0x304 => some (s.setCore g (c.setCsr n (nf v 22 16 <<< 16)))
  | 0x344 => some (s.setCore g { c with mip := c.mip.filter (fun i => nbit v i) })
  | 0x341 => some (s.setCore g (c.setCsr n (v / 2 * 2)))
  | 0x802 =>
    let op := nf v 2 0
    let sc := nf v 6 4
    if v / 128 ≠ 0 ∨ nbit v 3 ∨ op > 4 ∨ sc > 4 then none else some (s.syncOp g sc op)
  | 0xB00 | 0x301 | 0x320 | 0x3A2 => some s
  | 0xB02 => some (s.setCore g { c with cp := { c.cp with instret := BitVec.ofNat 64 v } })
  | n =>
    if [0x305, 0x306, 0x340, 0x342, 0x343, 0x800, 0x801].contains n then some (s.setCore g (c.setCsr n v))
    else if n = 0x3A0 then
      -- a locked entry keeps its configuration
      some (s.setCore g (c.setCsr n (packN ((List.range 8).map (fun i =>
        (8 * i, if nbit (c.csr n) (8 * i + 7) then nf (c.csr n) (8 * i + 7) (8 * i) else nf v (8 * i + 7) (8 * i) &&& 0x9F))))))
    else if 0x3B0 ≤ n ∧ n < 0x3B8 then
      some (if nbit (c.csr 0x3A0) (8 * (n - 0x3B0) + 7) then s else s.setCore g (c.setCsr n (v % 2 ^ 54)))
    else none

/-! ## One instruction (R98) -/

/-- End of an access instruction: the value in rd and on, a trap, or a stall with the pc kept. -/
def State.endAcc (s : State) (g rd len : Nat) (wr : Bool) (conv : Nat → Nat) : CpAcc → State
  | .ok v => s.setCore g (((if wr then (s.core g).setXr rd (conv v) else s.core g)).adv len)
  | .trap cause tval => s.setCore g ((s.core g).trap cause tval false)
  | .stall t => s.setCore g ((s.core g).setStall t)

/-- An illegal instruction. -/
def State.illegal (s : State) (g w : Nat) : State := s.setCore g ((s.core g).trap 2 w false)

/-- SYSTEM instructions and CSR accesses. -/
def State.cpSystem (s : State) (g w len : Nat) : State :=
  let c := s.core g
  let rd := nf w 11 7
  let f3 := nf w 14 12
  let rs1 := nf w 19 15
  let n := nf w 31 20
  if f3 = 0 then
    match w with
    | 0x00000073 => s.setCore g (c.trap (if c.cp.mach then 11 else 8) 0 false)
    | 0x00100073 => s.setCore g (c.trap 3 c.cp.pc.toNat false)
    | 0x30200073 =>
      if !c.cp.mach then s.illegal g w
      else
        let ms := c.csr 0x300
        let mpp := nf ms 12 11
        let ms' := setNf (setNf (setNf ms 3 3 (nf ms 7 7)) 7 7 1) 12 11 0
        let ms' := if mpp = 3 then ms' else setNf ms' 17 17 0
        let c := ((c.setCsr 0x300 ms').setPc (c.csr 0x341))
        s.setCore g { c with cp := { c.cp with mach := mpp == 3, instret := c.cp.instret + 1 } }
    | 0x10500073 =>
      if !c.cp.mach && nbit (c.csr 0x300) 21 then s.illegal g w
      else s.setCore g (if c.wakes then c.adv len else (c.adv len).setStall .wfi)
    | _ => s.illegal g w
  else if f3 = 4 then s.illegal g w
  else
    let src := if f3 ≥ 5 then rs1 else c.xr rs1
    let writes := f3 % 4 == 1 || rs1 != 0
    let prot := (nf n 9 8 != 0 && !c.cp.mach) || (nf n 11 10 == 3 && writes)
      || (0xC00 ≤ n && n ≤ 0xC02 && !c.cp.mach && !nbit (c.csr 0x306) (n - 0xC00))
    if prot then s.illegal g w
    else if n = 0x810 ∧ writes then s.setCore g (c.barrierWrite src)
    else if n = 0x811 then (if writes then s.illegal g w else s.setCore g (c.barrierRead rd))
    else
      match s.csrRead g n with
      | none => s.illegal g w
      | some (old, s) =>
        let new := match f3 % 4 with
          | 1 => src
          | 2 => old ||| src
          | _ => old &&& (two64 - 1 - src)
        match (if writes then s.csrWrite g n new else some s) with
        | none => s.illegal g w
        | some s => s.setCore g (((s.core g).setXr rd old).adv len)

/-- Execute a 32-bit instruction that took `len` bytes. -/
def State.cpExec (s : State) (g w len : Nat) : State :=
  let c := s.core g
  let pc := c.cp.pc.toNat
  let rd := nf w 11 7
  let f3 := nf w 14 12
  let a := c.xr (nf w 19 15)
  let b := c.xr (nf w 24 20)
  let f7 := nf w 31 25
  let put (v : Option Nat) : State :=
    match v with
    | some v => s.setCore g ((c.setXr rd v).adv len)
    | none => s.illegal g w
  let jump (t link : Nat) : State :=
    s.setCore g (((c.setXr rd link).adv len).setPc t)
  match w % 128 with
  | 0x37 => put (some (wrapI 64 (immU w)))
  | 0x17 => put (some (addI pc (immU w)))
  | 0x6F => jump (addI pc (immJ w)) ((pc + len) % two64)
  | 0x67 => if f3 = 0 then jump (addI a (immI w) / 2 * 2) ((pc + len) % two64) else s.illegal g w
  | 0x63 =>
    match branch f3 a b with
    | some true => s.setCore g ((c.adv len).setPc (addI pc (immB w)))
    | some false => s.setCore g (c.adv len)
    | none => s.illegal g w
  | 0x03 =>
    if f3 = 7 then s.illegal g w
    else
      let n := 2 ^ (f3 % 4)
      let (r, s) := s.cpLoad g (addI a (immI w)) n kRead
      s.endAcc g rd len true (fun v => if f3 < 4 then sext (8 * n) v else v) r
  | 0x23 =>
    if f3 > 3 then s.illegal g w
    else
      let (r, s) := s.cpStore g (addI a (immS w)) (2 ^ f3) (b % 2 ^ (8 * 2 ^ f3))
      s.endAcc g 0 len false id r
  | 0x13 => put (aluImm f3 (nf w 31 20) a)
  | 0x1B => put (aluImm32 f3 (nf w 31 20) a)
  | 0x33 => put (alu f3 f7 a b)
  | 0x3B => put (alu32 f3 f7 a b)
  | 0x0F => if f3 ≤ 1 then s.setCore g (c.adv len) else s.illegal g w
  | 0x2F =>
    let f5 := nf w 31 27
    if (f3 = 2 ∨ f3 = 3) ∧ amoOk f5 ∧ (f5 ≠ 2 ∨ nf w 24 20 = 0) then
      let n := if f3 = 2 then 4 else 8
      let (r, s) := s.cpAmo g f5 a n b
      s.endAcc g rd len true id r
    else s.illegal g w
  | 0x73 => s.cpSystem g w len
  | 0x0B =>
    -- custom-0: the array-issue extension; an instruction that traps or stalls keeps its pc
    let word : CW := BitVec.ofNat 128 (a + b * two64)
    if nf w 31 30 ≠ 0 then s.illegal g w
    else match f3 with
    | 0 => s.setCore g (c.aqPushOp (BitVec.ofNat 7 f7) word rd)
    | 1 => s.setCore g (c.aqTryOp (BitVec.ofNat 7 f7) word rd)
    | 2 => s.setCore g (c.aqPop rd)
    | 3 => s.setCore g (c.aqWaitOp a rd)
    | _ => s.illegal g w
  | _ => s.illegal g w

/-- Fetch and execute one instruction: 16 or 32 bits (R98). -/
def State.cpStep (s : State) (g : Nat) : State :=
  let pc := (s.core g).cp.pc.toNat
  match s.cpLoad g pc 2 kFetch with
  | (.ok lo, s) =>
    if lo % 4 ≠ 3 then
      match expandC lo with
      | some w => s.cpExec g w 2
      | none => s.illegal g lo
    else
      match s.cpLoad g (pc + 2) 2 kFetch with
      | (.ok hi, s) => s.cpExec g (lo + 65536 * hi) 4
      | (r, s) => s.endAcc g 0 4 false id r
  | (r, s) => s.endAcc g 0 2 false id r

/-- mcause of a cancelled translation fault (R240). -/
def pageFault (acc : Nat) : Nat := if acc = kFetch then 12 else if acc = kRead then 13 else 15

/-- CP_INSTRUCTION (R98): a stalled processor executes nothing, but a cancelled fault becomes its page-fault exception
(R240), WFI ends on an enabled interrupt, and a store that waited for the DMA queue executes again. -/
def execCpInstruction (g : Nat) (s : State) : Out :=
  let c := s.core g
  atUnit "core" g 2016 <|
    if c.cp.inReset then s
    else
      match c.cp.stall with
      | .none => s.cpStep g
      | .cancelled va acc => s.setCore g (c.trap (pageFault acc) va false)
      | .remote => (s.setCore g (c.setStall .none)).cpStep g
      | .wfi => if c.wakes then s.setCore g (c.setStall .none) else s
      | .cdma _ =>
        if (tget [] (s.cluster (clusterOf g)).dma.queues (g % 8)).length < 16 then (s.setCore g (c.setStall .none)).cpStep g else s
      | _ => s

/-- CP_INTERRUPT: an enabled pending local interrupt is taken; it abandons a wait for a translation fault, and the
instruction executes again on return (R103, R236). -/
def execCpInterrupt (g cause : Nat) (s : State) : Out :=
  let c := s.core g
  let free := match c.cp.stall with
    | .none | .wfi | .fault _ _ => true
    | _ => false
  atUnit "core" g 2016 <|
    if free && !c.cp.inReset && c.pend.contains cause && nbit (c.csr 0x304) cause && (!c.cp.mach || nbit (c.csr 0x300) 3) then
      s.setCore g (c.trap cause 0 true)
    else s

/-- CP_APERTURE_ACCESS: a load or store of 1, 2, 4 or 8 bytes at core-local address x, or an AMO, LR (amo 1) or SC (amo 2
or more), with the exceptions of R95. The value loaded is answered; the instruction's register is CP_INSTRUCTION's. -/
def execCpApertureAccess (g x size : Nat) (store : Bool) (value : W64) (amo : Nat) (s : State) : Out :=
  let va := aperture + x
  let n := if size = 1 ∨ size = 2 ∨ size = 4 then size else 8
  atUnit "core" g 2016 <|
    if !(s.core g).cpReady then s
    else if amo ≠ 0 then s.setCore g ((s.core g).trap (if amo = 1 then 5 else 7) va false)
    else
      let (r, s) := if store then s.apStore g (x % 2 ^ 24) n va value.toNat else s.apLoad g (x % 2 ^ 24) n va
      match r with
      | .ok v => s.emit (.apertureData g (if store then 0 else v))
      | .trap cause tval => s.setCore g ((s.core g).trap cause tval false)
      | .stall t => s.setCore g ((s.core g).setStall t)

/-- CDMA_SUBMIT: the store to offset 0x838 submits the window's 64 bytes, or stalls while the core's queue is full
(R120). -/
def execCdmaSubmit (g : Nat) (value : W64) (s : State) : Out :=
  let c := s.core g
  let wait := match c.cp.stall with
    | .none => true
    | .cdma _ => true
    | _ => false
  atUnit "core" g 2016 <|
    if c.cp.inReset || !wait then s
    else
      match s.apStore g 0x200838 8 (aperture + 0x200838) value.toNat with
      | (.ok _, s) => s.setCore g ((s.core g).setStall .none)
      | (.stall t, s) => s.setCore g ((s.core g).setStall t)
      | (.trap cause tval, s) => s.setCore g ((s.core g).trap cause tval false)

end Sys2Proof.Machine
end

