-- ==== Sys2Proof/Machine/Mesh.lean ====
section
/-! DEFINITION. The meshes of the bulk network and the trees of circular groups (R248–R250, R259). -/
namespace Sys2Proof.Machine

/-- Physical position of the disabled cluster of a site (R20). -/
def State.deadOf (s : State) (n : Nat) : Nat := tget 21 s.dev.deadPos n

/-- Physical position of cluster c on its compute die (R20). -/
def State.posOfCluster (s : State) (c : Nat) : Nat := let q := c % 21; if q < s.deadOf (c / 21) then q else q + 1

/-- The cluster at a physical position of compute die n, none at the disabled one. -/
def State.clusterAt (s : State) (n pos : Nat) : Option Nat :=
  let d := s.deadOf n
  if pos = d ∨ pos ≥ 22 then none else some (n * 21 + (if pos < d then pos else pos - 1))

/-- Site n. -/
def State.site (s : State) (n : Nat) : SiteState := tget {} s.sites n
/-- Replace site n. -/
def State.setSite (s : State) (n : Nat) (x : SiteState) : State := { s with sites := tset s.sites n x }

/-- Does site n hold a guest die (R5). -/
def State.guestSite (s : State) (n : Nat) : Bool := decide (n < 12) && s.fuse.population.getLsbD (16 + n)
/-- Is core number g one that a guest die leaves vacant (R21). -/
def State.guestCore (s : State) (g : Nat) : Bool := s.guestSite (siteOfCore g)

/-- The code that answers a request for attachment a of a guest die which the hub does not deliver, 0 where it does: 0x04
while the site is in reset or fenced (R291), 0x01 for a vacant site (R21, R285), 0x02 outside ATTACH_EN (R296). -/
def State.dieCode (s : State) (n a : Nat) : Nat :=
  let x := s.site n
  if x.mode = .resetting ∨ (x.fence ∧ x.mode ≠ .down) then 4
  else if x.mode ≠ .up then 1
  else if !x.attachEn.getLsbD a then 2
  else 0

/-- Deliver a request to a guest die; it stays open until the die answers (R286). -/
def State.dieSend (s : State) (n : Nat) (q : DieReq) (data : Bytes) : Nat × State :=
  let c := s.dieCode n q.att
  if c ≠ 0 then (c, s)
  else
    let x := s.site n
    (0, (s.setSite n { x with reqs := x.reqs ++ [{ q with since := s.time }] }).emit
      (.dieRequest n q.att q.typ q.addr q.tag data))

/-- Columns of a die's mesh: die codes 0–3 are field dies, 4–15 compute dies (R248, R250). -/
def meshCols (d : Nat) : Nat := if d < 4 then 12 else 4
/-- Rows of a die's mesh. -/
def meshRows (d : Nat) : Nat := if d < 4 then 8 else 6

/-- Does router r exist on the die of code d. -/
def routerExists (d r : Nat) : Bool := decide (d < 16 ∧ r < meshCols d * meshRows d)

/-- Key of a router in State.routers. -/
def routerKey (d r : Nat) : Nat := d * 4096 + r

/-- Bulk router r of die code d. -/
def State.router (s : State) (d r : Nat) : RouterState := tget {} s.routers (routerKey d r)
/-- Replace a bulk router. -/
def State.setRouter (s : State) (d r : Nat) (x : RouterState) : State := { s with routers := tset s.routers (routerKey d r) x }

/-- Unit identifier of a bulk router (R250). -/
def uidRouter (d r : Nat) : W32 := uid 0x12 (d * 0x1000 + r)

/-- The router that an output of a router leads to: 0 N, 1 E, 2 S, 3 W, 4 vertical, 9–10 bridge links (R248, R249). -/
def meshNbr (d r out : Nat) : Option (Nat × Nat) :=
  let cols := meshCols d
  let row := r / cols
  let col := r % cols
  match out with
  | 0 => if row = 0 then none else some (d, r - cols)
  | 1 => if col + 1 = cols then none else some (d, r + 1)
  | 2 => if row + 1 = meshRows d then none else some (d, r + cols)
  | 3 => if col = 0 then none else some (d, r - 1)
  | 4 =>
    if d < 4 then
      (if row = 0 ∨ row = 7 then none else some (4 + 3 * d + col / 4, 4 * (row - 1) + col % 4))
    else
      let n := d - 4
      some (n / 3, 12 * (row + 1) + 4 * (n % 3) + col)
  | 9 | 10 =>
    match d with
    | 0 => if col = 11 then some (1, r - 11) else if row = 7 ∧ 2 ≤ col ∧ col ≤ 9 then some (2, col) else none
    | 1 => if col = 0 then some (0, r + 11) else if row = 7 ∧ 2 ≤ col ∧ col ≤ 9 then some (3, col) else none
    | 2 => if col = 11 then some (3, r - 11) else if row = 0 ∧ 2 ≤ col ∧ col ≤ 9 then some (0, 84 + col) else none
    | 3 => if col = 0 then some (2, r + 11) else if row = 0 ∧ 2 ≤ col ∧ col ≤ 9 then some (1, 84 + col) else none
    | _ => none
  | _ => none

/-- Router and die code of a transfer engine (R250). -/
def State.engRouter (s : State) : EngRef → Nat × Nat
  | .cdma c => (4 + c / 21, s.posOfCluster c)
  | .hdma e => (e / 8, 25 + e % 8)

/-- Cores that take a circular of a group at local port p of cluster c: the spec gives the cluster's router four local
ports and its eight cores no port of their own, so which of the eight take it is a free value (log 25). -/
def portCores (group c p : Nat) : List Nat :=
  ((List.range 8).filter (fun m => (Config.circCores group c p).getLsbD m)).map (fun m => c * 8 + m)

/-- Outputs that a router's entry of a group names; none when the entry is not valid (R259). -/
def RouterState.outs (x : RouterState) (group : Nat) : Option (List Nat) :=
  let e := tget 0 x.circ group
  if e.getLsbD 63 then some ((List.range 11).filter (fun i => e.getLsbD i)) else none

/-- A target of a circular: a core, a scale-up port that carries it on (R314), or an attachment of a guest die (R296). -/
inductive CircTarget where
  | core (g : Nat) | link (l : Nat) | die (n a : Nat)
  deriving DecidableEq, Repr

/-- The scale-up port at local port 0 of a field-die router (R250's second table). -/
def portAtRouter (f r : Nat) : Option Nat :=
  let rs := match f with
    | 0 => [48, 60, 72, 84]
    | 1 => [59, 71, 83, 95]
    | 2 => [0, 12, 24, 36]
    | _ => [11, 23, 35, 47]
  let i := rs.findIdx (· == r)
  if i < 4 then some (4 * f + i) else none

/-- The router of a scale-up port. -/
def routerOfPort (l : Nat) : Nat × Nat :=
  (l / 4, ((List.range 96).find? (fun r => portAtRouter (l / 4) r == some l)).getD 0)

/-- The targets of a circular injected at a router, and whether some router it reaches has no valid entry or an output
that leads nowhere (R259, R260). -/
def State.circTargets (s : State) (group : Nat) : Nat → Nat → Nat → List CircTarget × Bool
  | 0, _, _ => ([], true)
  | fuel + 1, d, r =>
    match (s.router d r).outs group with
    | none => ([], true)
    | some outs =>
      outs.foldl (fun (acc : List CircTarget × Bool) o =>
        if 5 ≤ o ∧ o ≤ 8 then
          if d < 4 then
            match (if o = 5 then portAtRouter d r else none) with
            | some l => (acc.1 ++ [.link l], acc.2)
            | none => (acc.1, true)
          else
            match s.clusterAt (d - 4) r with
            | some c => (acc.1 ++ (portCores group c (o - 5)).map .core, acc.2)
            | none => (acc.1, true)
        else
          match meshNbr d r o with
          | some (d', r') =>
            if 4 ≤ d' ∧ s.guestSite (d' - 4) then (acc.1 ++ [.die (d' - 4) r'], acc.2)
            else
            let t := s.circTargets group fuel d' r'; (acc.1 ++ t.1, acc.2 || t.2)
          | none => (acc.1, true)) ([], false)

end Sys2Proof.Machine
end

