-- ==== Sys2Proof/Machine/Dma.lean ====
section
/-! DEFINITION. Transfer engines and their descriptors (R120–R128, R243, R262). -/
namespace Sys2Proof

/-- Field die whose partition a transfer engine works for. -/
def EngRef.die : EngRef → Nat
  | .cdma c => c / 63
  | .hdma e => e / 8
/-- Unit identifier of a transfer engine (R22). -/
def EngRef.uid : EngRef → W32
  | .cdma c => Machine.uid 0x07 c
  | .hdma e => Machine.uid 0x08 e
/-- The reader that a logbook entry names: the cluster for a cluster DMA (R175). -/
def EngRef.reader : EngRef → W32
  | .cdma c => Machine.uidCluster c
  | .hdma e => Machine.uid 0x08 e
/-- Translation unit that serves the engine (R233). -/
def EngRef.xlat : EngRef → Nat
  | .cdma c => c / 21
  | .hdma e => 12 + e / 8
/-- Is it a hub DMA engine. -/
def EngRef.hub : EngRef → Bool
  | .cdma _ => false
  | .hdma _ => true
/-- Descriptors it runs at once (R126). -/
def EngRef.slots : EngRef → Nat
  | .cdma _ => 4
  | .hdma _ => 8
/-- Does the engine exist. -/
def EngRef.exists_ : EngRef → Bool
  | .cdma c => decide (c < 252)
  | .hdma e => decide (e < 32)
/-- Core number a queue of an engine belongs to; a ring of a hub DMA engine is numbered 0. -/
def EngRef.coreOf (e : EngRef) (q : Nat) : Nat :=
  match e with
  | .cdma c => 8 * c + q
  | .hdma _ => q

end Sys2Proof

namespace Sys2Proof.Machine

/-- A transfer engine. -/
def State.eng (s : State) : EngRef → DmaState
  | .cdma c => (s.cluster c).dma
  | .hdma e => s.hdma e
/-- Replace a transfer engine. -/
def State.setEng (s : State) (e : EngRef) (x : DmaState) : State :=
  match e with
  | .cdma c => s.setCluster c { s.cluster c with dma := x }
  | .hdma h => s.setHdma h x

/-- Answer a next state for an engine of the package. -/
def atEng (e : EngRef) (s : State) : Out :=
  match e with
  | .cdma c => atUnit "cluster DMA" c 252 s
  | .hdma h => atUnit "hub DMA engine" h 32 s

/-! ## Descriptor fields (R121) -/

/-- FLAGS bit i. -/
def dFlag (d : Bytes) (i : Nat) : Bool := nbit (rdb d 1) i
/-- LENGTH -/
def dLen (d : Bytes) : Nat := rd d 24 4
/-- ROWS -/
def dRows (d : Bytes) : Nat := rd d 28 4
/-- Source address of row r. -/
def dSrc (d : Bytes) (r : Nat) : Nat := (rd d 8 8 + r * rd d 32 8) % 2 ^ 64
/-- Destination address of row r. -/
def dDst (d : Bytes) (r : Nat) : Nat := (rd d 16 8 + r * rd d 40 8) % 2 ^ 64
/-- Granary hint for reads. -/
def dHintR (d : Bytes) : Nat := nf (rdb d 2) 1 0
/-- Granary hint for writes. -/
def dHintW (d : Bytes) : Nat := nf (rdb d 2) 3 2

/-- Local address form: core (R123). -/
def lfCore (a : Nat) : Nat := nf a 58 48
/-- Local address form: core-local address. -/
def lfAddr (a : Nat) : Nat := nf a 23 0
/-- Is an address of the local form: other bits zero, a core of the package, a multiple of 32. -/
def lfGood (a : Nat) : Bool := nf a 63 59 == 0 && nf a 47 24 == 0 && decide (lfCore a < 2016) && a % 32 == 0

/-- Does a partition own a circular group (R259). -/
def State.ownsGroup (s : State) (part group : Nat) : Bool :=
  decide (part * 4096 / s.dev.layout ≤ group ∧ group < (part + 1) * 4096 / s.dev.layout)

/-- Field and permission checks at the start of a descriptor: 0x00 good, 0x01 invalid, 0x02 not permitted (R112,
R121–R123, R125, R243). -/
def State.descCheck (s : State) (e : EngRef) (d : Bytes) : Nat :=
  let op := rdb d 0
  let srcL := dFlag d 4 && op != 2
  let dstL := dFlag d 5
  let mk := dFlag d 1
  let fmt := rdb d 3
  let esz := (addFmt fmt).map (·.1)
  let rows := List.range (dRows d)
  let part := s.partOfDie e.die
  let fw := e.hub && dFlag d 3
  let good :=
    1 ≤ op && op ≤ 4 && !dFlag d 7 && rdb d 2 / 16 == 0
    && (if op = 4 then esz.isSome && dLen d % esz.getD 1 == 0 && !dstL else fmt == 0)
    && (if op = 3 then rd d 6 2 < 4096 && dstL && nf (rd d 16 8) 58 48 == 0 else rd d 6 2 == 0)
    && dLen d != 0 && 1 ≤ dRows d && dRows d ≤ 1048576
    && (op != 2 || dLen d % 8 == 0)
    && rd d 56 8 % 8 == 0
    && (!srcL || (dLen d % 32 == 0 && rd d 32 8 % 32 == 0 && rows.all (fun r => lfGood (dSrc d r))))
    && (!dstL || (dLen d % 32 == 0 && rd d 40 8 % 32 == 0 && rows.all (fun r => lfGood (dDst d r))))
    && (!mk || (dstL && dLen d % 512 == 0
        && rows.all (fun r => lfAddr (dDst d r) % 512 == 0 && decide (lfAddr (dDst d r) < clHopEnd))))
  if !good then 1
  else if dFlag d 3 && !(e.hub && (s.xl (12 + e.die)).physEn) then 2
  else if !fw && ((srcL && rows.any (fun r => s.partOfCore (lfCore (dSrc d r)) != part))
      || (dstL && op != 3 && rows.any (fun r => s.partOfCore (lfCore (dDst d r)) != part))
      || (op == 3 && !s.ownsGroup part (rd d 6 2))) then 2
  else 0

/-! ## Parts -/

/-- Parts of one row from an offset: an element for ADD, a block under MARK, otherwise at most 512 bytes, within one
512-byte unit of the destination (R112, R122, R251). -/
def rowParts (d : Bytes) (r : Nat) : Nat → Nat → List (Nat × Nat × Nat)
  | 0, _ => []
  | fuel + 1, off =>
    if off ≥ dLen d then []
    else
      let n := match addFmt (rdb d 3) with
        | some (k, _) => if rdb d 0 = 4 then k else min (dLen d - off) (512 - (dDst d r + off) % 512)
        | none => min (dLen d - off) (512 - (dDst d r + off) % 512)
      (r, off, n) :: rowParts d r fuel (off + n)

/-- Every part of a descriptor. -/
def descParts (d : Bytes) : List (Nat × Nat × Nat) :=
  ((List.range (dRows d)).map (fun r => rowParts d r (dLen d) 0)).flatten

/-- Rows wholly written: those with no part left. -/
def rowsDone (d : Bytes) (todo : List (Nat × Nat × Nat)) : Nat :=
  dRows d - (todo.foldl (fun l p => sins p.1 l) []).length

/-- Is a queued descriptor free to start: FENCE waits for every earlier one of its core (R120). -/
def fenceOk (x : DmaState) (core : Nat) (d : Bytes) : Bool := !dFlag d 2 || x.running.all (fun r => r.core != core)

/-- The queue whose head starts next, round-robin from `next` (R120). -/
def DmaState.pick (x : DmaState) (e : EngRef) : Option Nat :=
  ((List.range 8).map (fun j => (x.next + j) % 8)).find? (fun q =>
    match tget [] x.queues q with
    | d :: _ => fenceOk x (e.coreOf q) d
    | [] => false)

/-- A free descriptor number of an engine. -/
def DmaState.freeSlot (x : DmaState) : Nat := ((List.range 9).find? (fun i => x.running.all (fun r => r.slot != i))).getD 0

/-- DESCRIPTOR_START (R120): the head picked starts, is checked, and has all its parts to move; one that fails its checks
ends at once with its status and writes nothing. -/
def State.descStart (s : State) (e : EngRef) : State :=
  let x := s.eng e
  if x.stopped ∨ x.running.length ≥ e.slots then s
  else
    match x.pick e with
    | none => s
    | some q =>
      match tget [] x.queues q with
      | [] => s
      | d :: rest =>
        let st := s.descCheck e d
        let asid := tget 0 s.dev.partAsid (s.partOfDie e.die)
        let run : RunDesc :=
          { core := e.coreOf q, desc := d, asid := asid, slot := x.freeSlot, status := if st = 0 then none else some st
            todo := descParts d }
        s.setEng e { x with queues := tset x.queues q rest, next := (q + 1) % 8, running := x.running ++ [run] }

/-! ## Accesses of an engine -/

/-- How an access of a part ends: bytes with their status, or a translation fault. -/
inductive EngAcc where
  | ok (bs : PBytes) (st : MemSt)
  | fault (va cause acc : Nat)
  deriving DecidableEq, Repr

/-- The issuer of a descriptor's accesses. -/
def State.engIss (s : State) (e : EngRef) (r : RunDesc) : Issuer :=
  { unit := e.reader, asid := r.asid, cls := s.partOfDie e.die, slot := r.slot }

/-- Read through the cluster cache, sector by sector (R116). -/
def State.clusterReadN (s : State) (c : Nat) (iss : Issuer) (va phys hint n : Nat) : PBytes × MemSt × State :=
  (secParts va n).foldl (fun (acc : PBytes × MemSt × State) p =>
    let (x, st, s) := acc.2.2.clusterRead c iss p.1 (phys + (p.1 - va)) hint
    (acc.1 ++ mark x.poison (slice x.data (p.1 % 32) p.2), acc.2.1.join st, s)) ([], .ok, s)

/-- Read bytes at a device virtual address, page by page. -/
def State.engReadVa (s : State) (e : EngRef) (r : RunDesc) (va n : Nat) : EngAcc × State :=
  (parts 65536 (n / 65536 + 2) va n).foldl
    (fun (acc : EngAcc × State) p =>
      match acc.1 with
      | .fault .. => acc
      | .ok bs st =>
        let s := acc.2
        let iss := s.engIss e r
        match s.translate e.xlat e.uid iss r.asid p.1 kRead e.hub with
        | (.inl c, s) => (.fault p.1 c kRead, s)
        | (.inr (.dev phys _), s) =>
          let (b, t, s) := match e with
            | .cdma c =>
              if dFlag r.desc 6 then s.devRead iss phys p.2 (dHintR r.desc) else s.clusterReadN c iss p.1 phys (dHintR r.desc) p.2
            | .hdma _ => s.devRead iss phys p.2 (dHintR r.desc)
          (.ok (bs ++ b) (st.join t), s)
        | (.inr t, s) =>
          let (b, t, s) := s.tgtRead iss t p.2 none
          (.ok (bs ++ b) (st.join t), s)) (.ok [] .ok, s)

/-- A write of device memory by a cluster DMA updates the copy its own cluster cache holds (R116). -/
def State.clusterPatch (s : State) (c asid va : Nat) (bs : PBytes) : State :=
  (secParts va bs.length).foldl (fun s p =>
    match lineAt (s.cluster c).cache asid p.1 with
    | some l =>
      let x := l.sec (p.1 / 32 % 4)
      if x.valid then
        let new := (bs.drop (p.1 - va)).take p.2
        let y : Sec := { x with data := putBytes x.data (p.1 % 32) (new.map (·.1)), poison := if p.2 = 32 then new.any (·.2) else x.poison || new.any (·.2) }
        s.setCluster c { s.cluster c with cache := lineSet (s.cluster c).cache (l.setSec (p.1 / 32 % 4) y) }
      else s
    | none => s) s

/-- Write bytes at a device virtual address, page by page. -/
def State.engWriteVa (s : State) (e : EngRef) (r : RunDesc) (va : Nat) (bs : PBytes) : EngAcc × State :=
  (parts 65536 (bs.length / 65536 + 2) va bs.length).foldl
    (fun (acc : EngAcc × State) p =>
      match acc.1 with
      | .fault .. => acc
      | .ok _ st =>
        let s := acc.2
        let iss := s.engIss e r
        let b := (bs.drop (p.1 - va)).take p.2
        match s.translate e.xlat e.uid iss r.asid p.1 kWrite e.hub with
        | (.inl c, s) => (.fault p.1 c kWrite, s)
        | (.inr (.dev phys h), s) =>
          let (t, s) := s.tgtWrite iss (.dev phys h) b (some (dHintW r.desc))
          (.ok [] (st.join t), match e with
            | .cdma c => s.clusterPatch c r.asid p.1 b
            | .hdma _ => s)
        | (.inr t, s) =>
          let (t, s) := s.tgtWrite iss t b none
          (.ok [] (st.join t), s)) (.ok [] .ok, s)

/-- Do all pages of a range translate for an access: the cause of the first that does not (so that a part is moved whole
or not at all). -/
def State.engProbe (s : State) (e : EngRef) (r : RunDesc) (va n acc : Nat) : Option (Nat × Nat) × State :=
  (parts 65536 (n / 65536 + 2) va n).foldl
    (fun (x : Option (Nat × Nat) × State) p =>
      match x.1 with
      | some _ => x
      | none =>
        match x.2.translate e.xlat e.uid (x.2.engIss e r) r.asid p.1 acc e.hub with
        | (.inl c, s) => (some (p.1, c), s)
        | (.inr _, s) => (none, s)) (none, s)

/-- A read of core-local memory from outside: only vector memory is read by transfer engines (R93). Status code of R262. -/
def State.localRead (s : State) (g a n : Nat) : Nat × PBytes :=
  let c := s.core g
  if c.stopped then (4, mark false (zeros n))
  else if clVm ≤ a ∧ a + n ≤ clVmEnd then
    let b := c.rdp a n
    (if b.any (·.2) then 3 else 0, b)
  else (1, mark false (zeros n))

/-- A write of core-local memory from outside: the hopper and vector memory; refused while the core is scrubbed or in
reset (R93, R119, R477). -/
def State.localWrite (s : State) (g a : Nat) (bs : PBytes) : Nat × State :=
  let c := s.core g
  if c.stopped then (4, s)
  else if c.scrub then (1, s)
  else if a + bs.length ≤ clVmEnd then (0, s.setCore g (c.wrp a bs))
  else (1, s)

/-- How a MARK write of one block ends. -/
inductive MarkEnd where
  | done (code : Nat) | held | full
  deriving DecidableEq, Repr

/-- Block that a MARK write at a hopper address goes to: in the ring it wraps (R113). -/
def CoreState.markBlock (c : CoreState) (start off : Nat) : Nat := c.streamAddr start off / 512

/-- A MARK packet arrives at core g (R112): 512 bytes on a block boundary inside the hopper. A FULL block holds it in the
ingress, which has room for eight; beyond that it stays on the network. -/
def State.markArrive (s : State) (g a : Nat) (bs : PBytes) (h : HeldMark) : MarkEnd × State :=
  let c := s.core g
  if c.stopped then (.done 4, s)
  else if c.scrub then (.done 1, s)
  else if bs.length ≠ 512 ∨ a % 512 ≠ 0 ∨ a ≥ clHopEnd then (.done 1, s)
  else
    let p := bs.any (·.2)
    if c.full.contains (a / 512) then
      if c.heldMarks.length < 8 then
        (.held, s.setCore g { c with heldMarks := c.heldMarks ++
          [{ h with block := a / 512, data := bs.map (·.1), poison := p, since := s.time }] })
      else (.full, s)
    else (.done 0, s.setCore g (c.landMark (a / 512) (bs.map (·.1)) p))

/-! ## The operations (R122) -/

/-- The running descriptor i of an engine. -/
def State.runDesc (s : State) (e : EngRef) (i : Nat) : Option RunDesc := (s.eng e).running[i]?

/-- Replace the running descriptor i. -/
def State.setRunDesc (s : State) (e : EngRef) (i : Nat) (r : RunDesc) : State :=
  let x := s.eng e
  s.setEng e { x with running := x.running.set i r }

/-- What moving one part gave: its status code of R262, or that it waits. -/
inductive PartEnd where
  | done (code : Nat) (unc : Bool)
  | wait
  deriving DecidableEq, Repr

/-- An ending of a memory access as a part's. -/
def MemSt.part : MemSt → PartEnd
  | .ok => .done 0 false
  | .unc => .done 0 true
  | .rem => .done 5 false
  | .err => .done 1 false
  | .wait => .wait

/-- Core of a guest die's address: attachment (R296). -/
def dieAtt (g : Nat) : Nat := g % 168 / 8

/-- Read from a guest die through the local form (R296): the first time, a READ is delivered and the part waits; once the
die has answered, it takes the bytes. -/
def State.dieRead (s : State) (e : EngRef) (r : RunDesc) (a n : Nat) : (PBytes × PartEnd) × State :=
  let k := siteOfCore (lfCore a)
  let x := s.site k
  let q : DieReq := { att := dieAtt (lfCore a), tag := BitVec.ofNat 12 r.slot, typ := 0, addr := a, len := n, eng := some (e, r.slot) }
  let same (y : DieReq) : Bool := y.eng == q.eng && y.addr == a && y.typ == 0
  match x.answers.find? (fun y => same y.req) with
  | some y =>
    ((mark y.poison (slice y.data 0 n), if y.code = 3 then .done 0 true else .done y.code false),
      s.setSite k { x with answers := x.answers.erase y })
  | none =>
    if x.reqs.any same then (([], .wait), s)
    else
      let (c, s) := s.dieSend k q []
      (([], if c = 0 then .wait else .done c false), s)

/-- Do source and destination rows of a COPY overlap: its results are undefined (R122). -/
def descOverlap (d : Bytes) : Bool :=
  let rows := List.range (dRows d)
  rdb d 0 == 1 && dFlag d 4 == dFlag d 5 && rows.any (fun r => rows.any (fun q =>
    decide (dSrc d r < dDst d q + dLen d ∧ dDst d q < dSrc d r + dLen d)))

/-- Read the source bytes of a part. -/
def State.partRead (s : State) (e : EngRef) (r : RunDesc) (p : Nat × Nat × Nat) : (PBytes × PartEnd) × State :=
  let d := r.desc
  let a := dSrc d p.1 + p.2.1
  if rdb d 0 = 2 then
    ((mark false ((List.range p.2.2).map (fun i => BitVec.ofNat 8 (rdb d (48 + (p.2.1 + i) % 8)))), .done 0 false), s)
  else if dFlag d 4 && s.guestCore (lfCore a) then s.dieRead e r a p.2.2
  else if dFlag d 4 then
    let (code, bs) := s.localRead (lfCore a) (lfAddr a) p.2.2
    ((bs, if code = 3 then .done 0 true else .done code false), s)
  else if dFlag d 3 then
    let (bs, st, s) := s.devRead (s.engIss e r) a p.2.2 (dHintR d)
    ((bs, st.part), s)
  else
    match s.engReadVa e r a p.2.2 with
    | (.ok bs st, s) => ((bs, st.part), s)
    | (.fault va c acc, s) => (([], .wait), s.raiseFault e.xlat e.uid r.asid va c acc)

/-- The held form of a MARK write of an engine's descriptor. -/
def heldMarkOf (e : EngRef) (r : RunDesc) (circ : Bool) : HeldMark :=
  { tag := BitVec.ofNat 12 r.slot, eng := some e, circ := circ, group := rd r.desc 6 2 }

/-- Write the bytes of a part to one core: a MARK write goes to the hopper's ingress, any other straight to memory. `start`
is the row's first address, for the ring. -/
def State.partToCore (s : State) (e : EngRef) (r : RunDesc) (circ : Bool) (g start off : Nat) (bs : PBytes) : PartEnd × State :=
  if s.guestCore g then
    let (c, s) := s.dieSend (siteOfCore g) { att := dieAtt g, tag := BitVec.ofNat 12 r.slot, typ := if circ then 4 else if dFlag r.desc 1 then 3 else 1, addr := g * 2 ^ 48 + start + off, len := bs.length, eng := some (e, r.slot) } (bs.map (·.1))
    (.done c false, s)
  else if dFlag r.desc 1 then
    match s.markArrive g ((s.core g).markBlock start off * 512) bs (heldMarkOf e r circ) with
    | (.done c, s) => (.done c false, s)
    | (.held, s) => (.done 0 false, s)
    | (.full, s) => (.wait, s)
  else
    let (c, s) := s.localWrite g (start + off) bs
    (.done c false, s)

/-- A circular copy for a scale-up port: CIRC_WRITE with the group of the circular link table (R314). -/
def State.circOut (s : State) (iss : Issuer) (l group addr : Nat) (bs : PBytes) : Nat × State :=
  let p := s.port l
  match tfind s.links.circ group, p.freeTag with
  | some grp, some t =>
    if p.mode ≠ .up ∨ !s.remoteOpen p.partner then (5, s)
    else
      let r : RemoteReq := { tag := t, typ := 4, iss := iss, dev := p.partner, off := addr, len := bs.length }
      (0, (s.setPort l { p with reqs := p.reqs ++ [r] }).sendRec l
        { hdr := recHdr 4 (4 * b2n (bs.any (·.2))) t s.links.device p.partner 0 0 bs.length 0 grp addr, data := bs.map (·.1) })
  | _, _ => (5, s)

/-- Write the bytes of a part to its destination: memory, one core, or every target of a group. -/
def State.partWrite (s : State) (e : EngRef) (r : RunDesc) (p : Nat × Nat × Nat) (bs : PBytes) : PartEnd × State :=
  let d := r.desc
  let a := dDst d p.1 + p.2.1
  if rdb d 0 = 3 then
    let (er, rr) := s.engRouter e
    let (tgts, bad) := s.circTargets (rd d 6 2) 64 er rr
    let full := dFlag d 1 && tgts.any (fun t => match t with
      | .core g => (s.core g).full.contains ((s.core g).markBlock (lfAddr (dDst d p.1)) p.2.1) && (s.core g).heldMarks.length ≥ 8
      | _ => false)
    if full then (.wait, s)
    else
      tgts.foldl (fun (acc : PartEnd × State) t =>
        let code := match acc.1 with
          | .done c _ => c
          | .wait => 0
        match t with
        | .core g =>
          match acc.2.partToCore e r true g (lfAddr (dDst d p.1)) p.2.1 bs with
          | (.done c _, s) => (.done (max code c) false, s)
          | (.wait, s) => (.done code false, s)
        | .die n k =>
          let (c, s) := acc.2.dieSend n { att := k, tag := BitVec.ofNat 12 r.slot, typ := 4, addr := lfAddr a, len := bs.length, eng := some (e, r.slot) } (bs.map (·.1))
          (.done (max code c) false, s)
        | .link l =>
          let (c, s) := acc.2.circOut (acc.2.engIss e r) l (rd d 6 2) (lfAddr a) bs
          (.done (max code c) false, s)) (.done (if bad then 6 else 0) false, s)
  else if dFlag d 5 then
    s.partToCore e r false (lfCore (dDst d p.1)) (lfAddr (dDst d p.1)) p.2.1 bs
  else if dFlag d 3 then
    let (st, s) := s.devWrite (s.engIss e r) a bs (dHintW d)
    (st.part, s)
  else
    match s.engWriteVa e r a bs with
    | (.ok _ st, s) => (st.part, s)
    | (.fault va c acc, s) => (.wait, s.raiseFault e.xlat e.uid r.asid va c acc)

/-- ADD one element into device memory by the memory-side adders, or into a remote window by MEMOP (R122, R157, R159). -/
def State.partAdd (s : State) (e : EngRef) (r : RunDesc) (p : Nat × Nat × Nat) (bs : PBytes) : PartEnd × State :=
  let d := r.desc
  let a := dDst d p.1 + p.2.1
  let v := unle (bs.map (·.1))
  match addFmt (rdb d 3) with
  | none => (.done 1 false, s)
  | some (n, f) =>
    let iss := s.engIss e r
    if dFlag d 3 then
      let (_, st, s) := s.memop iss a n (fun o => f o v)
      (st.part, s)
    else
      match s.translate e.xlat e.uid iss r.asid a kMemop e.hub with
      | (.inl c, s) => (.wait, s.raiseFault e.xlat e.uid r.asid a c kMemop)
      | (.inr (.dev phys _), s) =>
        match s.translate e.xlat e.uid iss r.asid (a / 32 * 32 + 32) kMemop e.hub with
        | (.inr (.dev phys2 _), s) =>
          let (_, st, s) := s.memop2 iss phys phys2 n (fun o => f o v)
          (st.part, s)
        | (.inl c, s) =>
          if a % 32 + n ≤ 32 then let (_, st, s) := s.memop iss phys n (fun o => f o v); (st.part, s)
          else (.wait, s.raiseFault e.xlat e.uid r.asid (a / 32 * 32 + 32) c kMemop)
        | (.inr _, s) =>
          if a % 32 + n ≤ 32 then let (_, st, s) := s.memop iss phys n (fun o => f o v); (st.part, s)
          else (.done 1 false, s)
      | (.inr (.remote dv w g off), s) =>
        let (st, s) := s.remoteIssue iss 3 dv w g off n 0 (rdb d 3) bs
        (st.part, s)
      | (.inr (.host _ _), s) => (.done 1 false, s)

/-- Move one part: read it and write it, whole or not at all. A part whose destination does not translate yet is not
read; the parts of a COPY onto itself write free bytes (R122; log 6). -/
def State.movePart (s : State) (e : EngRef) (r : RunDesc) (p : Nat × Nat × Nat) : PartEnd × State :=
  let d := r.desc
  let (hole, s) :=
    if dFlag d 3 || dFlag d 5 then (none, s)
    else s.engProbe e r (dDst d p.1 + p.2.1) p.2.2 (if rdb d 0 = 4 then kMemop else kWrite)
  match hole with
  | some (va, c) => (.wait, s.raiseFault e.xlat e.uid r.asid va c (if rdb d 0 = 4 then kMemop else kWrite))
  | none =>
    match s.partRead e r p with
    | ((_, .wait), s) => (.wait, s)
    | ((bs, .done code unc), s) =>
      if code ≠ 0 then (.done code unc, s)
      else
        let (bs, s) := if descOverlap d then
            let (fb, s) := s.freeBytes bs.length
            (mark (bs.any (·.2)) fb, s)
          else (bs, s)
        match (if rdb d 0 = 4 then s.partAdd e r p bs else s.partWrite e r p bs) with
        | (.wait, s) => (.wait, s)
        | (.done c u, s) => (.done c (u || unc), s)

/-- Status of R125 for a code of R262. -/
def codeStatus (c : Nat) : Nat := if c = 6 then 1 else c

/-- Move every part that can be moved: one that waits stays, an error ends the transfer and nothing further is issued
(R124, R125). -/
def State.moveAll (e : EngRef) (i : Nat) : List (Nat × Nat × Nat) → State → State
  | [], s => s
  | p :: ps, s =>
    match s.runDesc e i with
    | none => s
    | some r =>
      if r.status.isSome then s
      else
        match s.movePart e r p with
        | (.wait, s) => State.moveAll e i ps s
        | (.done code unc, s) =>
          let r := { r with unc := r.unc || unc }
          let r := if code = 0 then { r with todo := r.todo.erase p }
            else { r with status := some (codeStatus code), code := code }
          State.moveAll e i ps (s.setRunDesc e i r)

/-- Run the rows of descriptor i when its operation is `op`; with nothing left to move its transfer has ended. -/
def State.descRun (s : State) (e : EngRef) (i op : Nat) : State :=
  match s.runDesc e i with
  | none => s
  | some r =>
    if rdb r.desc 0 ≠ op ∨ r.status.isSome ∨ (s.eng e).stopped then s
    else
      let s := State.moveAll e i r.todo s
      match s.runDesc e i with
      | none => s
      | some r =>
        if r.status.isNone && r.todo = [] then
          s.setRunDesc e i { r with status := some (if r.unc then 3 else 0) }
        else s

/-- DESCRIPTOR_START (R120). -/
def execDescriptorStart (e : EngRef) (s : State) : Out := atEng e (s.descStart e)
/-- COPY (R122). -/
def execCopy (e : EngRef) (i : Nat) (s : State) : Out := atEng e (s.descRun e i 1)
/-- FILL (R122). -/
def execFill (e : EngRef) (i : Nat) (s : State) : Out := atEng e (s.descRun e i 2)
/-- CIRCULAR (R122). -/
def execCircular (e : EngRef) (i : Nat) (s : State) : Out := atEng e (s.descRun e i 3)
/-- ADD (R122). -/
def execAdd (e : EngRef) (i : Nat) (s : State) : Out := atEng e (s.descRun e i 4)

/-! ## Completion (R124) -/

/-- Writes of a descriptor that are not acknowledged yet: MARK writes held in an ingress, requests open at guest dies and
remote requests. -/
def State.descBusy (s : State) (e : EngRef) (r : RunDesc) : Bool :=
  s.cores.any (fun c => c.2.heldMarks.any (fun h => h.eng == some e && h.tag.toNat == r.slot))
    || s.sites.any (fun x => x.2.reqs.any (fun q => q.eng == some (e, r.slot) && q.typ != 0))
    || (List.range 16).any (fun l => (s.port l).reqs.any (fun q => q.iss.unit == e.reader && q.iss.slot == r.slot && q.typ != 1))

/-- The completion word (R124). -/
def complWord (d : Bytes) (status rows : Nat) : Bytes := le 8 (packN [(0, rd d 4 2), (16, status), (32, rows)])

/-- Write the completion word through the engine's translation; a page that does not translate posts a fault and the
descriptor waits. -/
def State.complWrite (s : State) (e : EngRef) (r : RunDesc) (status : Nat) : Bool × State :=
  let d := r.desc
  let va := rd d 56 8
  if va = 0 then (true, s)
  else
    match s.translate e.xlat e.uid (s.engIss e r) r.asid va kWrite e.hub with
    | (.inl c, s) => (false, s.raiseFault e.xlat e.uid r.asid va c kWrite)
    | (.inr t, s) =>
      let w := mark false (complWord d status (rowsDone d r.todo))
      let (_, s) := s.tgtWrite (s.engIss e r) t w none
      (true, match e, t with
        | .cdma c, .dev _ _ => s.clusterPatch c r.asid va w
        | _, _ => s)

/-- Drop running descriptor i. -/
def State.dropRunDesc (s : State) (e : EngRef) (i : Nat) : State :=
  let x := s.eng e
  s.setEng e { x with running := x.running.eraseIdx i }

/-- Post the completion of descriptor i of an engine: interrupt 22 on a nonzero status (R103), the counts of CDMA_STATUS,
and NOTIFY to the submitting core's queue, where it may wait for an entry (R102). -/
def State.descPost (s : State) (e : EngRef) (i : Nat) (r : RunDesc) (status : Nat) : State :=
  let x := s.eng e
  let x := if status = 0 then x
    else { x with errCount := satAdd x.errCount 1, lastStatus := BitVec.ofNat 8 status }
  let s := s.setEng e x
  match e with
  | .hdma _ => s.dropRunDesc e i
  | .cdma _ =>
    let g := r.core
    let s := if status = 0 then s else s.setCore g ((s.core g).irq 22)
    if dFlag r.desc 0 && !r.mute then
      let (posted, c) := (s.core g).notify (cqEntry status 5 (rd r.desc 4 2)) .dma
      let s := s.setCore g c
      if posted then s.dropRunDesc e i else s.setRunDesc e i { r with held := true }
    else s.dropRunDesc e i

/-- DESCRIPTOR_COMPLETE (R124): the transfer has ended and every write it made is acknowledged. -/
def State.descComplete (s : State) (e : EngRef) (i : Nat) : State :=
  match s.runDesc e i with
  | none => s
  | some r =>
    match r.status with
    | none => s
    | some st =>
      if r.held || s.descBusy e r then s
      else
        let (ok, s) := s.complWrite e r st
        if ok then s.descPost e i r st else s

/-- DESCRIPTOR_COMPLETE (R124). -/
def execDescriptorComplete (e : EngRef) (i : Nat) (s : State) : Out := atEng e (s.descComplete e i)

end Sys2Proof.Machine
end

