-- ==== Sys2Proof/Machine/Special.lean ====
section
/-! DEFINITION. The special functions of the vector unit (R105, R106): reference values to far more than FP32's precision,
and the results a bound of R106 allows. -/
namespace Sys2Proof.Machine

/-- Fraction bits of the fixed-point reference arithmetic. -/
def fxP : Nat := 128

/-- ln 2 in fixed point. -/
def fxLn2 : Int := 0xB17217F7D1CF79ABC9E3B39803F2F6AF

/-- A finite value in fixed point, truncated; magnitudes above 2^10 are cut to it. -/
def flFx : Fl → Int
  | .fin neg m e =>
    let k : Int := e + fxP
    let v : Nat := if (bitLen m : Int) + e > 10 then 2 ^ (fxP + 10) else if k ≥ 0 then m <<< k.toNat else m >>> (-k).toNat
    if neg then -(v : Int) else v
  | _ => 0

/-- Taylor sum of e^r in fixed point: term n onwards, the term itself given. -/
def fxExpSum : Nat → Nat → Int → Int → Int
  | 0, _, _, _ => 0
  | fuel + 1, n, r, term => term + fxExpSum fuel (n + 1) r (term * r / (2 ^ fxP) / (n + 1))

/-- e^x for x in fixed point. -/
def fxExp (x : Int) : Fl :=
  let k := (x + fxLn2 / 2) / fxLn2
  let r := x - k * fxLn2
  .fin false (fxExpSum 48 0 r (2 ^ fxP)).toNat (k - fxP)

/-- Sum of the odd powers z^(2n+1)/(2n+1) in fixed point. -/
def fxAtanhSum : Nat → Nat → Int → Int → Int
  | 0, _, _, _ => 0
  | fuel + 1, n, z2, p => p / (2 * n + 1) + fxAtanhSum fuel (n + 1) z2 (p * z2 / 2 ^ fxP)

/-- ln of a positive value m × 2^e. -/
def refLn (m : Nat) (e : Int) : Fl :=
  let b := bitLen m
  -- f = m / 2^(b-1) in [1, 2)
  let one : Int := 2 ^ fxP
  let f : Int := ((m <<< fxP) >>> (b - 1) : Nat)
  let z := (f - one) * one / (f + one)
  let v := 2 * fxAtanhSum 44 0 (z * z / one) z + (e + b - 1) * fxLn2
  .fin (decide (v < 0)) v.natAbs (-fxP)

/-- Quotient of two magnitudes with 128 bits of precision: (m1 × 2^e1) ÷ (m2 × 2^e2). -/
def refDiv (m1 : Nat) (e1 : Int) (m2 : Nat) (e2 : Int) : Nat × Int :=
  let s := fxP + bitLen m2
  ((m1 <<< s) / m2, e1 - e2 - s)

/-- Integer square root, a bit at a time from bit k down. -/
def isqrtN : Nat → Nat → Nat → Nat
  | 0, _, r => r
  | k + 1, n, r => let t := r + 2 ^ k; if t * t ≤ n then isqrtN k n t else isqrtN k n r

/-- 1 ÷ √(m × 2^e) for positive m. -/
def refRsqrt (m : Nat) (e : Int) : Fl :=
  let (q, f) := refDiv 1 0 m e
  let (q, f) := if f % 2 = 0 then (q <<< 128, f - 128) else (q <<< 129, f - 129)
  .fin false (isqrtN (bitLen q / 2 + 1) q 0) (f / 2)

/-- 1 ÷ (1 + e^−x). -/
def refSigmoid (x : Int) : Fl :=
  match fxExp (-(x.natAbs : Int)) with
  | .fin _ m e =>
    let one : Int := 2 ^ 600
    let E : Int := if e + 600 ≥ 0 then ((m <<< (e + 600).toNat : Nat) : Int) else ((m >>> (-(e + 600)).toNat : Nat) : Int)
    let num := if x < 0 then E else one
    let (q, f) := refDiv num.toNat 0 (one + E).toNat 0
    .fin false q f
  | _ => .fin false 0 0

/-- tanh x. -/
def refTanh (x : Int) : Fl :=
  match fxExp (-2 * (x.natAbs : Int)) with
  | .fin _ m e =>
    let one : Int := 2 ^ 600
    let E : Int := if e + 600 ≥ 0 then ((m <<< (e + 600).toNat : Nat) : Int) else ((m >>> (-(e + 600)).toNat : Nat) : Int)
    let (q, f) := refDiv (one - E).toNat 0 (one + E).toNat 0
    .fin (decide (x < 0)) q f
  | _ => .fin false 0 0

/-- Twice the argument of tanh in GELU: 2 × 0.7978845608 × (a + 0.044715 a³), in fixed point. -/
def geluArg (a : Int) : Int :=
  let one : Int := 2 ^ fxP
  let a3 := a * a / one * a / one
  2 * (7978845608 * (a * 1000000 + 44715 * a3)) / (10000000000 * 1000000)

/-- The FP32 unit in the last place of a magnitude, as an exponent of two. -/
def ulpExp (x : Fl) : Int := max (flLog2 x) (-126) - 23

/-- Magnitude of the difference of two finite values, and whether it is at most b × 2^u or at most 2^−abs. -/
def within (x y : Fl) (b : Nat) (u : Int) (abs : Option Nat) : Bool :=
  match Fl.add x y.neg with
  | .fin _ m e =>
    let g := min e (min u (-400))
    let d := m <<< (e - g).toNat
    decide (d ≤ b <<< (u - g).toNat) || (match abs with | some a => decide (d ≤ 1 <<< (-(a : Int) - g).toNat) | none => false)
  | _ => false

/-- A result near a reference: a free FP32 word where that lies within the bound, the correctly rounded value otherwise
(R106, log 22). -/
def nearRef (ref : Fl) (b : Nat) (abs : Option Nat) (dev : Nat) : Nat :=
  let r := f32 ref
  if (ofF32 r).special then r
  else if within (ofF32 (dev % 2 ^ 32)) ref b (ulpExp ref) abs then dev % 2 ^ 32 else r

/-- Is a value within a relative error of 2^−k of a reference. -/
def withinRel (x y : Fl) (k : Nat) : Bool :=
  match Fl.add x y.neg, y with
  | .fin _ m e, .fin _ q f =>
    let g := min (e + k) f
    decide (m <<< (e + k - g).toNat ≤ q <<< (f - g).toNat)
  | _, _ => false

/-- A result within a relative error of 2^−k of a reference: a free FP32 word where that lies within the bound, the
correctly rounded value otherwise (R82, log 22). -/
def nearRel (ref : Fl) (k dev : Nat) : Nat :=
  let r := f32 ref
  if (ofF32 r).special then r
  else if withinRel (ofF32 (dev % 2 ^ 32)) ref k then dev % 2 ^ 32 else r

/-- The special functions by OP (R105). -/
def specialFn (op : Nat) (x : Fl) (dev : Nat) : Nat :=
  match op, x with
  | _, .nan => f32 .nan
  | 0x87, .inf neg => if neg then 0 else f32 (.inf false)
  | 0x87, x => nearRef (fxExp (flFx x)) 2 none dev
  | 0x88, .inf neg => if neg then f32 .nan else f32 (.inf false)
  | 0x88, .fin neg m e => if m = 0 then f32 (.inf true) else if neg then f32 .nan else nearRef (refLn m e) 2 none dev
  | 0x89, .inf neg => f32 (.fin neg 0 0)
  | 0x89, .fin neg m e =>
    if m = 0 then f32 (.inf neg) else let (q, f) := refDiv 1 0 m e; nearRef (.fin neg q f) 1 none dev
  | 0x8A, .inf neg => if neg then f32 .nan else 0
  | 0x8A, .fin neg m e => if m = 0 then f32 (.inf false) else if neg then f32 .nan else nearRef (refRsqrt m e) 2 none dev
  | 0x8B, .inf neg => f32 (.fin neg 1 0)
  | 0x8B, x => if x.isZero then f32 x else nearRef (refTanh (flFx x)) 2 (some 26) dev
  | 0x8C, .inf neg => if neg then 0 else f32 (.fin false 1 0)
  | 0x8C, x => nearRef (refSigmoid (flFx x)) 2 (some 26) dev
  | 0x8D, .inf neg => if neg then f32 .nan else f32 (.inf false)
  | 0x8D, x => if x.isZero then f32 x else nearRef (Fl.mul x (refSigmoid (geluArg (flFx x)))) 4 (some 24) dev
  | _, .inf neg => if neg then f32 .nan else f32 (.inf false)
  | _, x => if x.isZero then f32 x else nearRef (Fl.mul x (refSigmoid (flFx x))) 3 (some 24) dev

end Sys2Proof.Machine
end

