-- ==== Sys2Proof/Machine/Client.lean ====
section
/-! DEFINITION. Translated reads and writes of the hub's clients, circular delivery by the winnow routers, and directed
rounding (R78, R85, R188, R195, R230, R233). -/
namespace Sys2Proof.Machine

/-- A translation client of the hub: its unit of translation, identifier and issuer. -/
structure Client where
  d : Nat
  unit : W32
  iss : Issuer
  deriving DecidableEq, Repr

/-- The result of a client's access: bytes and ending, or a fault at a page. -/
inductive ClAcc where
  | ok (bs : PBytes) (st : MemSt)
  | fault (va : Nat)
  deriving DecidableEq, Repr

/-- Do the pages of a range translate for an access; if not, the fault is raised and its page answered. -/
def State.clProbe (s : State) (c : Client) (va n acc : Nat) : Option Nat × State :=
  (parts 65536 (n / 65536 + 2) va n).foldl
    (fun (x : Option Nat × State) p =>
      match x.1 with
      | some _ => x
      | none =>
        match x.2.translate c.d c.unit c.iss c.iss.asid p.1 acc false with
        | (.inl cause, s) => (some p.1, s.raiseFault c.d c.unit c.iss.asid p.1 cause acc)
        | (.inr _, s) => (none, s)) (none, s)

/-- Read bytes at a device virtual address, page by page; a fault is raised. -/
def State.clRead (s : State) (c : Client) (va n hint : Nat) : ClAcc × State :=
  (parts 65536 (n / 65536 + 2) va n).foldl
    (fun (acc : ClAcc × State) p =>
      match acc.1 with
      | .fault _ => acc
      | .ok bs st =>
        match acc.2.translate c.d c.unit c.iss c.iss.asid p.1 kRead false with
        | (.inl cause, s) => (.fault p.1, s.raiseFault c.d c.unit c.iss.asid p.1 cause kRead)
        | (.inr t, s) =>
          let (b, e, s) := s.tgtRead c.iss t p.2 (some hint)
          (.ok (bs ++ b) (st.join e), s)) (.ok [] .ok, s)

/-- Write bytes at a device virtual address, page by page; a fault is raised. -/
def State.clWrite (s : State) (c : Client) (va : Nat) (bs : PBytes) (hint : Nat) : ClAcc × State :=
  (parts 65536 (bs.length / 65536 + 2) va bs.length).foldl
    (fun (acc : ClAcc × State) p =>
      match acc.1 with
      | .fault _ => acc
      | .ok _ st =>
        match acc.2.translate c.d c.unit c.iss c.iss.asid p.1 kWrite false with
        | (.inl cause, s) => (.fault p.1, s.raiseFault c.d c.unit c.iss.asid p.1 cause kWrite)
        | (.inr t, s) =>
          let (e, s) := s.tgtWrite c.iss t ((bs.drop (p.1 - va)).take p.2) (some hint)
          (.ok [] (st.join e), s)) (.ok [] .ok, s)

/-- Does a client have an access to a page in a wait slot or waiting for one. -/
def State.waitsOn (s : State) (c : Client) (va : Nat) : Bool :=
  let x := s.xl c.d
  let hit (w : WaitSlot) : Bool := w.client == c.unit && w.asid == c.iss.asid && w.va / 65536 == va / 65536
  x.slots.any hit || x.overflow.any hit

/-! ## Directed rounding -/

/-- m × 2^e as a multiple of 2^f, rounded up or down in magnitude. -/
def scaleDir (up : Bool) (m : Nat) (e f : Int) : Nat :=
  if f ≤ e then m <<< (e - f).toNat
  else
    let k := (f - e).toNat
    let q := m >>> k
    if up && q <<< k != m then q + 1 else q

/-- Rounding of a value toward +Infinity (`pos`) or −Infinity into a format of `eb` exponent and `mb` fraction bits. -/
def flDir (eb mb : Nat) (pos : Bool) : Fl → Nat
  | .nan => (2 ^ eb - 1) * 2 ^ mb + 2 ^ (mb - 1)
  | .inf neg => b2n neg * 2 ^ (eb + mb) + (2 ^ eb - 1) * 2 ^ mb
  | .fin neg m e =>
    let up := neg != pos
    let top := (2 ^ eb - 1) * 2 ^ mb
    let q :=
      if m = 0 then 0
      else
        let bias : Int := 2 ^ (eb - 1) - 1
        let emin : Int := 1 - bias - mb
        let t : Int := (bitLen m : Int) + e - 1 - mb
        let f := if t < emin then emin else t
        scaleDir up m e f + ((f - emin).toNat) * 2 ^ mb
    b2n neg * 2 ^ (eb + mb) + (if q ≥ top then (if up then top else top - 1) else q)

end Sys2Proof.Machine
end

