-- ==== Sys2Proof/Machine/Sieve.lean ====
section
/-! DEFINITION. The page sieve: requests, sealing, scoring, selection and results (R185–R203). -/
namespace Sys2Proof.Machine

/-- Page sieve unit v. -/
def State.sv (s : State) (v : Nat) : SieveState := tget {} s.sieve v
/-- Replace page sieve unit v. -/
def State.setSv (s : State) (v : Nat) (x : SieveState) : State := { s with sieve := tset s.sieve v x }
/-- Identifier of a page sieve unit. -/
def uidSieve (v : Nat) : W32 := uid 0x0B v
/-- The unit as a translation client, in the address space of SIEVE_CTX.ASID (R194). -/
def State.svClient (s : State) (v : Nat) : Client :=
  { d := 12 + v / 4, unit := uidSieve v
    iss := { unit := uidSieve v, asid := bf (s.sv v).ctx 63 48, cls := s.partOfDie (v / 4) } }

/-- LAST_ERR, ERR_COUNT and the logbook entry of a rejection or a failed request (R202). -/
def State.svErr (s : State) (v : Nat) (core : W32) (code : Nat) : State :=
  let x := s.sv v
  (s.setSv v { x with lastErr := BitVec.ofNat 8 code, errCount := satAdd x.errCount 1 }).logAt 0x0205 (uidSieve v) 0
    (le 1 code ++ le 4 core.toNat)

/-! ## Record fields (R192) -/

/-- OP -/
def srOp (r : Bytes) : Nat := rdb r 0
/-- Tokens per page. -/
def srP (r : Bytes) : Nat := 32 * 2 ^ rdb r 1
/-- KFMT -/
def srFmt (r : Bytes) : Nat := rdb r 4
/-- Bytes of an element. -/
def srE (r : Bytes) : Nat := if srFmt r ≤ 1 then 1 else 2
/-- HEADS -/
def srHeads (r : Bytes) : Nat := rdb r 5
/-- DIM -/
def srDim (r : Bytes) : Nat := rd r 8 2
/-- SUM_HINT -/
def srHint (r : Bytes) : Nat := rdb r 10 % 4
/-- RESULT, its core-local address. -/
def srRes (r : Bytes) : Nat := lfAddr (rd r 48 8)

/-- Local form of QUERY or RESULT (R123, R192). -/
def svForm (a : Nat) : Bool := nf a 63 59 == 0 && nf a 47 24 == 0 && a % 32 == 0

/-- The range checks of R192; fields of the other kind of record are reserved. -/
def srGood (r : Bytes) : Bool :=
  let sel := srOp r == 1
  let dim := srDim r
  rdb r 1 ≤ 2 && [0, 1, 4, 5].contains (srFmt r) && 1 ≤ srHeads r && srHeads r ≤ 64
    && 32 ≤ dim && dim ≤ 256 && dim % 32 == 0
    && rdb r 10 < 3 && rdb r 11 == 0 && rd r 56 8 == 0
    && rd r 24 8 % 8 == 0 && rd r 32 8 % 128 == 0 && svForm (rd r 48 8)
    && (if sel then
          rdb r 6 < srHeads r && 1 ≤ rdb r 7 && rdb r 7 ≤ 16 && rd r 12 2 ≤ 512 && 1 ≤ rd r 14 2 && rd r 14 2 ≤ 1024
            && 1 ≤ rd r 16 4 && rd r 16 4 ≤ 16777216 && rd r 20 4 == 0 && svForm (rd r 40 8)
        else
          rdb r 6 == 0 && rdb r 7 == 0 && rd r 12 2 == 0 && rd r 14 2 == 0 && rd r 16 4 == 0 && rd r 20 4 ≤ 524287
            && rd r 40 8 == 0)

/-- Do QUERY and RESULT name the core that owns the slot and lie in its vector memory (R192). -/
def srPlaced (r : Bytes) (g : Nat) : Bool :=
  let sel := srOp r == 1
  let inVm (a n : Nat) : Bool := decide (clVm ≤ a ∧ a + n ≤ clVmEnd)
  lfCore (rd r 48 8) == g && inVm (srRes r) (if sel then 32 + 16 * rd r 14 2 else 32)
    && (!sel || (lfCore (rd r 40 8) == g && inVm (lfAddr (rd r 40 8)) (2 * srDim r * rdb r 7)))

/-- A record arrives in a slot, 0 to 4,031: rejected with an error response, accepted into the queue of 64, or left waiting for a place
(R191–R193, R202). `op` is the kind the row names. -/
def State.svRecord (s : State) (v : Nat) (writer : Option Nat) (slot : Nat) (r : Bytes) (op : Nat) : State :=
  let x := s.sv v
  let w : W32 := match writer with
    | some g => uidCore g
    | none => 0
  let g := slot / 2
  let rej (code : Nat) : State := (s.svErr v w code).emit (.writeAnswer w (uidSieve v) 1)
  if x.stopped then s.emit (.writeAnswer w (uidSieve v) 4)
  else if slot ≥ 4032 then s
  else if !x.ctx.getLsbD 0 then rej 6
  else if writer.any (fun h => s.partOfCore h != s.partOfDie (v / 4) || h != g) then rej 5
  else if srOp r ≠ 1 ∧ srOp r ≠ 2 then rej 1
  else if !srGood r then rej 2
  else if !srPlaced r g then rej 5
  else if srOp r ≠ op ∨ x.queue.length ≥ 64 then s
  else (s.setSv v { x with queue := x.queue ++ [{ core := g, record := slice r 0 64 }] }).emit (.writeAnswer w (uidSieve v) 0)

/-- SIEVE_SELECT (R192, R193); a record of another kind is rejected or is not this row's. -/
def execSieveSelect (v : Nat) (writer : Option Nat) (slot : Nat) (record : Bytes) (s : State) : Out :=
  atUnit "page sieve unit" v 16 (s.svRecord v writer slot record 1)
/-- SIEVE_SEAL (R189, R193). -/
def execSieveSeal (v : Nat) (writer : Option Nat) (slot : Nat) (record : Bytes) (s : State) : Out :=
  atUnit "page sieve unit" v 16 (s.svRecord v writer slot record 2)

/-! ## Summaries (R187, R188) -/

/-- Value of a key element. -/
def keyVal (f w : Nat) : Fl := if f = 0 then eltVal 0 w else if f = 1 then eltVal 1 w else eltVal f w

/-- BF16 word of a bound: −0 is written as +0. -/
def bf16Dir (pos : Bool) (x : Fl) : Nat := let w := flDir 8 7 pos x; if w = 0x8000 then 0 else w

/-- Least value of a non-empty list. -/
def flMin (l : List Fl) : Fl := l.foldl (fun a b => if Fl.cmp b a = some (-1) then b else a) (.inf false)
/-- Greatest value of a list. -/
def flTop (l : List Fl) : Fl := l.foldl (fun a b => if Fl.cmp b a = some 1 then b else a) (.inf true)

/-- MIN and MAX of one channel over the rows of a head's key block (R188). -/
def channelBounds (f : Nat) (vals : List Nat) : Nat × Nat :=
  let xs := vals.map (keyVal f)
  if xs.any Fl.isNan then (0xFF80, 0x7F80) else (bf16Dir false (flMin xs), bf16Dir true (flTop xs))

/-- Summary of one head from its key block (R187); a poisoned key row gives −Infinity and +Infinity throughout (R202). -/
def headSummary (r : Bytes) (keys : PBytes) : Bytes :=
  let dim := srDim r
  let e := srE r
  let bs := keys.map (·.1)
  let bnd := (List.range dim).map (fun c =>
    if keys.any (·.2) then (0xFF80, 0x7F80)
    else channelBounds (srFmt r) ((List.range (srP r)).map (fun t => rd bs (t * dim * e + c * e) e)))
  (bnd.map (fun b => le 2 b.1)).flatten ++ (bnd.map (fun b => le 2 b.2)).flatten

/-! ## Scoring (R195) -/

/-- +Infinity in FP32. -/
def f32Inf : Nat := 0x7F800000
/-- −Infinity in FP32. -/
def f32NegInf : Nat := 0xFF800000

/-- Product in FP32 rounded toward +Infinity; NaN is taken as +Infinity. -/
def mulUp (a b : Fl) : Fl :=
  match Fl.mul a b with
  | .nan => .inf false
  | x => ofF32 (flDir 8 23 true x)

/-- Sum in FP32 rounded toward +Infinity; opposite infinities give +Infinity. -/
def addUp (a b : Fl) : Fl :=
  match Fl.add a b with
  | .nan => .inf false
  | x => ofF32 (flDir 8 23 true x)

/-- Contribution of a channel. -/
def contrib (q mn mx : Fl) : Fl :=
  if q.isZero then .fin false 0 0
  else let a := mulUp q mn; let b := mulUp q mx; if Fl.cmp b a = some 1 then b else a

/-- Bound of one query row against a head's summary. -/
def rowBound (dim : Nat) (q sum : Bytes) : Fl :=
  (List.range dim).foldl (fun a c =>
    addUp a (contrib (flOf 8 7 (rd q (2 * c) 2)) (flOf 8 7 (rd sum (2 * c) 2)) (flOf 8 7 (rd sum (2 * dim + 2 * c) 2))))
    (.fin false 0 0)

/-- Is any query element NaN. -/
def badQuery (dim rows : Nat) (q : Bytes) : Bool :=
  (List.range (dim * rows)).any (fun i => (flOf 8 7 (rd q (2 * i) 2)).isNan)

/-- Score of a sealed page: the greatest bound over the query rows. -/
def pageScore (dim rows : Nat) (q sum : Bytes) : Nat :=
  if badQuery dim rows q then f32Inf
  else f32 (flTop ((List.range rows).map (fun i => rowBound dim (slice q (i * 2 * dim) (2 * dim)) sum)))

/-! ## A SELECT (R197, R198) -/

/-- What was read for one page. -/
structure PageRd where
  entry : Nat
  sealed_ : Bool
  poison : Bool
  score : Nat
  deriving DecidableEq, Repr

/-- How the reads of a request end. -/
inductive SvEnd (α : Type) where
  | fault (va : Nat)
  | wait
  | status (st : Nat) (poison : Bool)
  | ok (a : α)

/-- Read every list entry and the summary of every sealed page, in index order (R197, R200). -/
def State.readPages (s : State) (c : Client) (r q : Bytes) : List Nat → List PageRd → SvEnd (List PageRd) × State
  | [], acc => (.ok acc.reverse, s)
  | i :: is, acc =>
    match s.clRead c (rd r 24 8 + 8 * i) 8 (srHint r) with
    | (.fault va, s) => (.fault va, s)
    | (.ok bs st, s) =>
      match st with
      | .wait => (.wait, s)
      | .err => (.status 8 false, s)
      | .rem => (.status 8 false, s)
      | .unc => (.status 3 true, s)
      | .ok =>
        let e := unle (bs.map (·.1))
        if !nbit e 0 then s.readPages c r q is ({ entry := e, sealed_ := false, poison := false, score := f32Inf } :: acc)
        else
          let dim := srDim r
          match s.clRead c (rd r 32 8 + (i * srHeads r + rdb r 6) * 4 * dim) (4 * dim) (srHint r) with
          | (.fault va, s) => (.fault va, s)
          | (.ok sm st, s) =>
            match st with
            | .wait => (.wait, s)
            | .err => (.status 8 false, s)
            | .rem => (.status 8 false, s)
            | .unc => s.readPages c r q is ({ entry := e, sealed_ := true, poison := true, score := f32Inf } :: acc)
            | .ok =>
              s.readPages c r q is
                ({ entry := e, sealed_ := true, poison := false, score := pageScore dim (rdb r 7) q (sm.map (·.1)) } :: acc)

/-- Where an FP32 word that is not NaN stands in numeric order: its magnitude with its sign; both zeros are 0. -/
def f32Ord (w : Nat) : Int := if w / 2 ^ 31 % 2 = 1 then -((w % 2 ^ 31 : Nat) : Int) else (w % 2 ^ 31 : Nat)

/-- Order of candidates: the higher score first, then the lower index (R197). -/
def candLt (a b : Nat × Nat) : Bool := decide (f32Ord b.2 < f32Ord a.2 ∨ (f32Ord a.2 = f32Ord b.2 ∧ a.1 ≤ b.1))

/-- The result of a SELECT from what was read (R197, R198, R202). -/
def selectResult (ctx : W64) (r q : Bytes) (pages : List PageRd) (req : SieveReq) : SieveRun :=
  let n := pages.length
  let sinks := min (bf ctx 12 8) 16
  let recent := min (bf ctx 22 16) 64
  let isSink (i : Nat) : Bool := decide (i < min sinks n)
  let isRecent (i : Nat) : Bool := decide (n - recent ≤ i)
  let ix := pages.zipIdx
  let forced (x : PageRd × Nat) : Bool := isSink x.2 || isRecent x.2 || x.2 + 1 == n || !x.1.sealed_ || x.1.poison
  let fs := ix.filter forced
  let cand := ((ix.filter (fun x => !forced x)).map (fun x => (x.2, x.1.score))).mergeSort candLt
  let chosen0 := cand.take (rd r 12 2)
  let max := rd r 14 2
  let trunc := decide (fs.length ≤ max ∧ max < fs.length + chosen0.length)
  let chosen := if trunc then chosen0.take (max - fs.length) else chosen0
  let psn := pages.any (·.poison)
  let bad := badQuery (srDim r) (rdb r 7) q
  let scored := (pages.filter (fun p => p.sealed_ && !p.poison)).length
  let base : SieveRun :=
    { req := req, scored := scored, unsealed := (pages.filter (fun p => !p.sealed_)).length, threshold := BitVec.ofNat 32 f32NegInf }
  if fs.length > max then
    { base with status := 7, flags := BitVec.ofNat 8 (packN [(1, b2n bad), (2, b2n psn)]) }
  else
    let keep (x : PageRd × Nat) : Bool := forced x || chosen.any (fun c => c.1 == x.2)
    let ent (x : PageRd × Nat) : SieveEnt :=
      { page := pack 64 [(8, nf x.1.entry 51 8), (56, b2n (isSink x.2)), (57, b2n (isRecent x.2)), (58, b2n (x.2 + 1 == n)),
          (59, b2n (!x.1.sealed_)), (60, b2n (chosen.any (fun c => c.1 == x.2))), (61, b2n x.1.poison)]
        index := x.2
        score := BitVec.ofNat 32 x.1.score }
    { base with
      status := if psn then 3 else 0
      flags := BitVec.ofNat 8 (packN [(0, b2n trunc), (1, b2n bad), (2, b2n psn)])
      threshold := BitVec.ofNat 32 ((chosen.getLast?.map (·.2)).getD f32NegInf)
      entries := (ix.filter keep).map ent }

/-- A request that ended early with a status and COUNT zero. -/
def earlyRun (req : SieveReq) (st : Nat) (psn : Bool) : SieveRun :=
  { req := req, status := st, flags := BitVec.ofNat 8 (4 * b2n psn), threshold := BitVec.ofNat 32 f32NegInf }

/-- Run a SELECT: the query rows, then the pages (R193, R197). -/
def State.runSelect (s : State) (v : Nat) (req : SieveReq) : SvEnd SieveRun × State :=
  let r := req.record
  let c := s.svClient v
  let (code, q) := s.localRead req.core (lfAddr (rd r 40 8)) (2 * srDim r * rdb r 7)
  if code = 4 then (.ok (earlyRun req 4 false), s)
  else if code = 3 then (.ok (earlyRun req 3 true), s)
  else
    let qb := q.map (·.1)
    match s.readPages c r qb (List.range ((rd r 16 4 + srP r - 1) / srP r)) [] with
    | (.fault va, s) => (.fault va, s)
    | (.wait, s) => (.wait, s)
    | (.status st p, s) => (.ok (earlyRun req st p), s)
    | (.ok pages, s) =>
      let x := s.sv v
      let run := selectResult x.ctx r qb pages req
      (.ok run, s.setSv v { x with scored := x.scored + BitVec.ofNat 64 run.scored })

/-- Read the key blocks of every head of a page (R189 step 2). -/
def State.readKeys (s : State) (c : Client) (r : Bytes) (page : Nat) : List Nat → Bytes → Bool → SvEnd (Bytes × Bool) × State
  | [], acc, psn => (.ok (acc, psn), s)
  | h :: hs, acc, psn =>
    let blk := srP r * srDim r * srE r
    match s.clRead c (page + h * 2 * blk) blk hintStream with
    | (.fault va, s) => (.fault va, s)
    | (.ok bs st, s) =>
      match st with
      | .wait => (.wait, s)
      | .err => (.status 8 psn, s)
      | .rem => (.status 8 psn, s)
      | _ => s.readKeys c r page hs (acc ++ headSummary r bs) (psn || bs.any (·.2))

/-- Run a SEAL: list entry, keys, summary, list entry with SEALED as a release (R189, R202, R216). -/
def State.runSeal (s : State) (v : Nat) (req : SieveReq) : SvEnd SieveRun × State :=
  let r := req.record
  let c := s.svClient v
  let i := rd r 20 4
  let ea := rd r 24 8 + 8 * i
  let sum := rd r 32 8 + i * srHeads r * 4 * srDim r
  match s.clProbe c sum (srHeads r * 4 * srDim r) kWrite with
  | (some va, s) => (.fault va, s)
  | (none, s) =>
  match s.clProbe c ea 8 kWrite with
  | (some va, s) => (.fault va, s)
  | (none, s) =>
  match s.clRead c ea 8 (srHint r) with
  | (.fault va, s) => (.fault va, s)
  | (.ok bs st, s) =>
    match st with
    | .wait => (.wait, s)
    | .err => (.ok (earlyRun req 8 false), s)
    | .rem => (.ok (earlyRun req 8 false), s)
    | .unc => (.ok (earlyRun req 3 true), s)
    | .ok =>
      let e := unle (bs.map (·.1))
      match s.readKeys c r (nf e 51 8 * 256) (List.range (srHeads r)) [] false with
      | (.fault va, s) => (.fault va, s)
      | (.wait, s) => (.wait, s)
      | (.status st p, s) => (.ok (earlyRun req st p), s)
      | (.ok (sm, psn), s) =>
        let (a1, s) := s.clWrite c sum (mark false sm) (srHint r)
        let (a2, s) := s.clWrite c ea (mark false (le 8 (setNf e 0 0 1))) (srHint r)
        let bad (a : ClAcc) : Bool := match a with
          | .ok _ .err => true
          | .ok _ .rem => true
          | _ => false
        if bad a1 || bad a2 then (.ok (earlyRun req 8 psn), s) else (.ok (earlyRun req (if psn then 3 else 0) psn), s)

/-- Run one request: a fault sets it aside if one of the eight places is free; a ninth stalls the unit (R194). -/
def State.svRun (s : State) (v : Nat) (req : SieveReq) : State :=
  match (if srOp req.record = 1 then s.runSelect v req else s.runSeal v req) with
  | (.ok run, s) =>
    let x := s.sv v
    s.setSv v { x with running := x.running ++ [run] }
  | (.fault va, s) =>
    let x := s.sv v
    s.setSv v { x with heldReqs := x.heldReqs ++ [(req, va)] }
  | (.status _ _, s) => s
  | (.wait, s) =>
    let x := s.sv v
    s.setSv v { x with queue := req :: x.queue }

/-- SIEVE_REQUEST_START: a request set aside whose page no longer waits resumes first; else the oldest queued request
starts, unless four run or eight are set aside (R194). -/
def execSieveRequestStart (v : Nat) (s : State) : Out :=
  let x := s.sv v
  let c := s.svClient v
  atUnit "page sieve unit" v 16 <|
    if x.stopped ∨ x.running.length ≥ 4 then s
    else
      match x.heldReqs.find? (fun h => !s.waitsOn c h.2) with
      | some h => (s.setSv v { x with heldReqs := x.heldReqs.erase h }).svRun v h.1
      | none =>
        match x.queue with
        | req :: rest => if x.heldReqs.length ≥ 8 then s else (s.setSv v { x with queue := rest }).svRun v req
        | [] => s

/-- The result header (R198). -/
def SieveRun.header (x : SieveRun) (v status : Nat) (valid : Bool) : Bytes :=
  recOf 32 [(0, 1, srOp x.req.record), (1, 1, status), (2, 2, rd x.req.record 2 2), (4, 2, x.entries.length),
    (6, 1, x.flags.toNat + 128 * b2n valid), (7, 1, v), (8, 4, x.scored), (12, 4, x.unsealed), (16, 4, x.threshold.toNat)]

/-- The result entries (R198). -/
def SieveRun.body (x : SieveRun) : Bytes :=
  (x.entries.map (fun e => le 8 e.page.toNat ++ le 4 e.index ++ le 4 e.score.toNat)).flatten

/-- SIEVE_RESULT_WRITE: the entries, then the header with VALID last; a core in reset receives no result (R199, R202). -/
def State.svResult (s : State) (v i : Nat) : State :=
  let x := s.sv v
  match x.running[i]? with
  | none => s
  | some run =>
    let g := run.req.core
    let a := srRes run.req.record
    let x := { x with running := x.running.eraseIdx i }
    let x := if srOp run.req.record = 1 then { x with selects := x.selects + 1 } else { x with seals := x.seals + 1 }
    let s := s.setSv v x
    let s := if run.flags.getLsbD 2 then s.consume (s.partOfDie (v / 4)) (bf x.ctx 63 48) (uidSieve v) 5 3 a else s
    if (s.core g).stopped then s.svErr v (uidCore g) 4
    else
      let s := (s.localWrite g (a + 32) (mark false run.body)).2
      let s := (s.localWrite g a (mark false (run.header v run.status true))).2
      if run.status = 0 then s else s.svErr v (uidCore g) run.status

/-- SIEVE_RESULT_WRITE (R199). -/
def execSieveResultWrite (v i : Nat) (s : State) : Out :=
  atUnit "page sieve unit" v 16 (if (s.sv v).stopped then s else s.svResult v i)

/-- A unit's queue and its held and running requests are discarded (R201). -/
def SieveState.discard (x : SieveState) : SieveState := { x with queue := [], running := [], heldReqs := [] }

/-- SIEVE_CTX as written: its reserved bits read zero. -/
def svCtxMask (v : W64) : W64 := v &&& 0xFFFF0000007F1F01

/-- SIEVE_CTX_WRITE: clearing ENABLE or writing a new ASID discards every request (R201). -/
def State.svCtxWrite (s : State) (v : Nat) (value : W64) : State :=
  let x := s.sv v
  let w := svCtxMask value
  let x' := if (x.ctx.getLsbD 0 && !w.getLsbD 0) || bf x.ctx 63 48 != bf w 63 48 then x.discard else x
  s.setSv v { x' with ctx := w }

/-- SIEVE_CTX_WRITE (R201). -/
def execSieveCtxWrite (v : Nat) (value : W64) (s : State) : Out := atUnit "page sieve unit" v 16 (s.svCtxWrite v value)

/-- A cancelled fault of a unit: the requests set aside on the page end with STATUS 0x02 (R202, R240). -/
def State.svCancel (s : State) (v page : Nat) : State :=
  let x := s.sv v
  let hit := x.heldReqs.filter (fun h => h.2 / 65536 == page / 65536)
  s.setSv v { x with heldReqs := x.heldReqs.filter (fun h => !hit.contains h)
                     running := x.running ++ hit.map (fun h => earlyRun h.1 2 false) }

end Sys2Proof.Machine
end

