-- ==== Sys2Proof/Machine/Winnow.lean ====
section
/-! DEFINITION. The winnow routers: rounds, gate records, selection, token letters and closing (R74–R92). -/
namespace Sys2Proof.Machine

/-- Winnow router f. -/
def State.win (s : State) (f : Nat) : WinnowState := tget {} s.winnow f
/-- Replace winnow router f. -/
def State.setWin (s : State) (f : Nat) (x : WinnowState) : State := { s with winnow := tset s.winnow f x }
/-- Identifier of winnow router f. -/
def uidWinnow (f : Nat) : W32 := uid 0x0C f

/-- Round of an identifier. -/
def WinnowState.round (x : WinnowState) (r : Nat) : Option Round := x.rounds.find? (fun y => y.id == r)
/-- Replace the round of the same identifier. -/
def WinnowState.setRound (x : WinnowState) (r : Round) : WinnowState :=
  { x with rounds := updFirst (fun y => y.id == r.id) (fun _ => r) x.rounds }

/-- The router as a translation client, in the address space of WINNOW_CTX.ASID (R76). -/
def State.winClient (s : State) (f : Nat) : Client :=
  { d := 12 + f, unit := uidWinnow f
    iss := { unit := uidWinnow f, asid := bf (s.win f).ctx 63 48, cls := s.partOfDie f } }

/-- Unit that writes: a core, or firmware (0). -/
def writerUnit : Option Nat → W32
  | some g => uidCore g
  | none => 0

/-- A rejection: error response, LAST_ERR, ERR_COUNT and a logbook entry (R91). -/
def State.winReject (s : State) (f : Nat) (writer : Option Nat) (code : Nat) : State :=
  let x := s.win f
  let s := s.setWin f { x with lastErr := BitVec.ofNat 8 code, errCount := satAdd x.errCount 1 }
  (s.logAt 0x0204 (uidWinnow f) 0 (le 1 code ++ le 4 (writerUnit writer).toNat)).emit
    (.writeAnswer (writerUnit writer) (uidWinnow f) 1)

/-- The checks every write to a router meets first: IN_RESET (R477), the writer's partition (R74), ENABLE (R90). The
answer of a write that ends here. -/
def State.winGate (s : State) (f : Nat) (writer : Option Nat) : Option State :=
  let x := s.win f
  let w := writerUnit writer
  if x.stopped then some (s.emit (.writeAnswer w (uidWinnow f) 4))
  else if writer.any (fun g => s.partOfCore g != s.partOfDie f) then some (s.winReject f writer 5)
  else if !x.ctx.getLsbD 0 then some (s.emit (.writeAnswer w (uidWinnow f) 1))
  else none

/-! ## Opening a round (R75–R78) -/

/-- Is a ROUND_OPEN record inside the ranges of R75. -/
def openGood (r : Bytes) : Bool :=
  let k := rdb r 1
  let ex := rd r 4 2
  rdb r 0 == 1 && 1 ≤ k && k ≤ 8 && k ≤ ex && 1 ≤ ex && ex ≤ 512 && 1 ≤ rd r 6 2 && rd r 6 2 ≤ 16384
    && rdb r 8 ≤ 3 && rdb r 9 ≤ 1 && rd r 10 2 ≤ 1024
    && 32 ≤ rd r 12 4 && rd r 12 4 ≤ 32768 && rd r 12 4 % 32 == 0 && rd r 16 8 % 32 == 0 && rd r 56 8 == 0

/-- The round of a ROUND_OPEN record. -/
def roundOf (r : Bytes) : Round :=
  { id := rd r 2 2, k := rdb r 1, experts := rd r 4 2, tokens := rd r 6 2, norm := rdb r 8, byIndex := rdb r 9 == 1
    scaleBytes := rd r 10 2, rowBytes := rd r 12 4, tableAddr := rd r 16 8, reportAddr := rd r 24 8, outBase := rd r 32 8
    outStride := rd r 40 4, wscale := BitVec.ofNat 32 (rd r 44 4), summaryAddr := rd r 48 8 }

/-- An expert table entry (R77). -/
def expertOf (e : Bytes) : Expert :=
  { group := rd e 0 2, capacity := rd e 2 2, slotBase := rd e 4 2, selBias := BitVec.ofNat 16 (rd e 6 2), hdrOff := rd e 8 4
    rowOff := rd e 12 4, sclOff := rd e 16 4, endOff := rd e 20 4, rowPitch := rd e 24 2, enable := nbit (rdb e 26) 0 }

/-- Does a GROUP reach a core outside the router's partition (R78). -/
def State.groupStrays (s : State) (f group : Nat) : Bool :=
  let part := s.partOfDie f
  (s.circTargets group 64 f 63).1.any (fun t => match t with
    | .core g => s.partOfCore g != part
    | .die n _ => s.partOfDie (n / 3) != part
    | .link _ => true)

/-- Read a round's expert table if it has not been read: a fault holds back only this round (R76). -/
def State.loadTable (s : State) (f : Nat) (r : Round) : State :=
  if r.loaded then s
  else
    match s.clRead (s.winClient f) r.tableAddr (32 * r.experts) hintNormal with
    | (.fault _, s) => s
    | (.ok bs st, s) =>
      if st = .wait then s
      else
        let es := (List.range r.experts).map (fun i => expertOf (slice (bs.map (·.1)) (32 * i) 32))
        let bad := es.any (fun e => e.enable && s.groupStrays f e.group)
        let es := es.map (fun e => { e with enable := e.enable && !s.groupStrays f e.group })
        let s := if bad then s.logAt 0x0204 (uidWinnow f) 0 (le 1 6 ++ le 4 0) else s
        s.setWin f ((s.win f).setRound { r with loaded := true, table := es })

/-- ROUND_OPEN (R75, R76, R91). -/
def execRoundOpen (f : Nat) (writer : Option Nat) (record : Bytes) (s : State) : Out :=
  atUnit "winnow router" f 4 <|
    match s.winGate f writer with
    | some s => s
    | none =>
      let x := s.win f
      if !openGood record then s.winReject f writer 2
      else
        let r := roundOf record
        if (x.round r.id).isSome ∨ x.rounds.length ≥ 16 then s.winReject f writer 3
        else
          ((s.setWin f { x with rounds := x.rounds ++ [r] }).loadTable f r).emit
            (.writeAnswer (writerUnit writer) (uidWinnow f) 0)

/-! ## Gate records (R79, R80, R84) -/

/-- The lowest token of a round neither taken nor declared missing. -/
def Round.lowest (r : Round) : Nat :=
  ((List.range r.tokens).find? (fun t => !r.taken.contains t && !r.missing.contains t)).getD r.tokens

/-- Has the input buffer a place for a record: under INDEX one of the 256 is kept for the lowest index not yet taken
(R84). -/
def WinnowState.room (x : WinnowState) (r : Round) (token : Nat) : Bool :=
  x.buf.length < 255 || (x.buf.length < 256 && (x.rounds.all (fun y => !y.byIndex) || (r.byIndex && token == r.lowest)))

/-- GATE_RECORD: a complete record in a core's slot is accepted, rejected, or waits unanswered for a place (R80, R84,
R91). -/
def execGateRecord (f : Nat) (writer : Option Nat) (slot : Nat) (record : Bytes) (s : State) : Out :=
  atUnit "winnow router" f 4 <|
    match s.winGate f writer with
    | some s => s
    | none =>
      let x := s.win f
      if writer.any (fun g => g != slot / 2) then s.winReject f writer 5
      else
        match x.round (rd record 0 2) with
        | none => s.winReject f writer 1
        | some r =>
          let t := rd record 2 2
          if r.closeFlag.isSome then s.winReject f writer 1
          else if record.length < 16 + 2 * r.experts then s
          else if t ≥ r.tokens ∨ r.received.contains t then s.winReject f writer 4
          else if !x.room r t then s
          else
            let g : GateRec :=
              { round := r.id, token := t, rowAddr := rd record 8 8
                logits := (List.range r.experts).map (fun i => BitVec.ofNat 16 (rd record (16 + 2 * i) 2)) }
            let x := x.setRound { r with received := sins t r.received }
            (s.setWin f { x with buf := x.buf ++ [g] }).emit (.writeAnswer (writerUnit writer) (uidWinnow f) 0)

/-! ## Selection, weights and capacity (R81–R83) -/

/-- FP32 score of an expert: logit + SEL_BIAS; a NaN logit scores −Infinity (R81). -/
def scoreOf (l bias : BitVec 16) : Nat :=
  match flOf 8 7 l.toNat with
  | .nan => f32 (.inf true)
  | v => f32 (Fl.add v (flOf 8 7 bias.toNat))

/-- Does a score order before another: higher first, then the lower index. -/
def scoreLt (a b : Nat × Nat) : Bool :=
  match Fl.cmp (ofF32 a.2) (ofF32 b.2) with
  | some 1 => true
  | some 0 => decide (a.1 ≤ b.1)
  | _ => false

/-- Is a score above −Infinity. -/
def scoreLive (w : Nat) : Bool :=
  match ofF32 w with
  | .inf true => false
  | .nan => false
  | _ => true

/-- Enabled experts with a score above −Infinity, best first: (index, score). -/
def ranked (r : Round) (logits : List (BitVec 16)) : List (Nat × Nat) :=
  ((r.table.zip logits).zipIdx.filterMap (fun x =>
    let sc := scoreOf x.1.2 x.1.1.selBias
    if x.1.1.enable && scoreLive sc then some (x.2, sc) else none)).mergeSort scoreLt

/-- What granting one token's choices leaves (R83): experts assigned (index, rerouted), and counts. -/
structure Grant where
  assigned : Tbl Nat := []
  overflowed : Tbl Nat := []
  got : List (Nat × Bool) := []
  dropped : Nat := 0
  deriving DecidableEq, Repr

/-- Has an expert capacity left in the round. -/
def Grant.free (g : Grant) (r : Round) (e : Nat) : Bool :=
  match r.table[e]? with
  | some x => decide (tget 0 g.assigned e < x.capacity)
  | none => false

/-- Assign an expert to the token. -/
def Grant.take (g : Grant) (e : Nat) (rer : Bool) : Grant :=
  { g with assigned := tset g.assigned e (tget 0 g.assigned e + 1), got := g.got ++ [(e, rer)] }

/-- Grant one choice: its expert, else under REROUTE the first of the offered experts with capacity, else dropped. An
expert the token already has is passed over (log 43). -/
def Grant.choose (r : Round) (offers : List Nat) (g : Grant) (e : Nat) : Grant :=
  if g.free r e then g.take e false
  else
    let g := { g with overflowed := tset g.overflowed e (tget 0 g.overflowed e + 1) }
    match offers.find? (fun o => g.free r o && !g.got.any (fun a => a.1 == o)) with
    | some o => g.take o true
    | none => { g with dropped := g.dropped + 1 }

/-- e^(l − m) of two logits. -/
def expDiff (l m : Fl) : Fl :=
  match l with
  | .inf true => .fin false 0 0
  | l => fxExp (flFx (Fl.add l m.neg))

/-- Exact quotient of two finite values to 128 bits. -/
def flDiv (a b : Fl) : Fl :=
  match a, b with
  | .fin n m e, .fin k q f => if q = 0 then .nan else let (x, y) := refDiv m e q f; .fin (n != k) x y
  | _, _ => .nan

/-- The greatest of a list of values, −Infinity when empty. -/
def flMax (l : List Fl) : Fl := l.foldl (fun a b => if Fl.cmp b a = some 1 then b else a) (.inf true)

/-- Exact weight of an expert before WSCALE under NORM; NaN where a value of the formula is not finite (R82). -/
def normWeight (norm : Nat) (l : Fl) (all set : List Fl) : Fl :=
  match norm with
  | 0 => let m := flMax all; flDiv (expDiff l m) (all.foldl (fun a x => Fl.add a (expDiff x m)) (.fin false 0 0))
  | 1 => let m := flMax set; flDiv (expDiff l m) (set.foldl (fun a x => Fl.add a (expDiff x m)) (.fin false 0 0))
  | 2 => flDiv (sig l) (set.foldl (fun a x => Fl.add a (sig x)) (.fin false 0 0))
  | _ => l
where
  /-- Logistic sigmoid, with its limits. -/
  sig : Fl → Fl
    | .inf neg => if neg then .fin false 0 0 else .fin false 1 0
    | .nan => .nan
    | x => refSigmoid (flFx x)

/-- A weight: within 2^-18 relative of the exact value, by a free amount (R82; log 22); NORM 3 is exact. Where the
formula meets a NaN or an infinity the spec states no value, and the weight is a free word (log 44). -/
def weightOf (norm : Nat) (wscale : W32) (l : Fl) (all set : List Fl) (dev : Nat) : Nat :=
  let fine (x : Fl) : Bool := match x with | .nan => false | .inf false => false | _ => true
  let ok := match norm with
    | 0 => all.all fine
    | 1 | 2 => set.all fine
    | _ => true
  if norm = 3 then f32 (Fl.mul l (ofF32 wscale.toNat))
  else if ok then nearRel (Fl.mul (normWeight norm l all set) (ofF32 wscale.toNat)) 18 dev
  else dev % 2 ^ 32

/-- Take one token (R81–R85): selection, capacity, weights, letters and report. -/
def State.takeToken (s : State) (f : Nat) (r : Round) (g : GateRec) : State :=
  let x := s.win f
  let rk := ranked r g.logits
  let top := rk.take r.k
  let bad := decide (top.length < r.k)
  let depth := if x.ctx.getLsbD 1 then bf x.ctx 7 4 else 0
  let offers := ((rk.drop r.k).take depth).map (·.1)
  let gr := top.foldl (fun a e => Grant.choose r offers a e.1) { assigned := r.assigned, overflowed := r.overflowed : Grant }
  -- the assigned set in descending score
  let fin := rk.filterMap (fun e => (gr.got.find? (fun a => a.1 == e.1)))
  let lg (e : Nat) : Fl := flOf 8 7 ((g.logits.getD e 0).toNat)
  let all := (r.table.zip g.logits).filterMap (fun y => if y.1.enable then some (flOf 8 7 y.2.toNat) else none)
  let set := if x.ctx.getLsbD 8 then fin.map (fun e => lg e.1) else top.map (fun e => lg e.1)
  let (dev, s) := s.freeNat
  let ws := fin.map (fun e => weightOf r.norm r.wscale (lg e.1) all set (Config.ulpDev dev e.1))
  let slotOf (e : Nat) : Nat := ((r.table[e]?.map (·.slotBase)).getD 0) + tget 0 r.assigned e
  let ents := (fin.zip ws).map (fun y => (y.1.1, slotOf y.1.1, BitVec.ofNat 32 y.2))
  let letters := (fin.zip ws).zipIdx.map (fun y =>
    ({ round := r.id, token := g.token, expert := y.1.1.1, slot := slotOf y.1.1.1, weight := BitVec.ofNat 32 y.1.2, rank := y.2
       rerouted := y.1.1.2, rowAddr := g.rowAddr } : Letter))
  let ovr := gr.dropped != 0 || gr.got.any (·.2)
  let flags := packN [(0, b2n ovr), (1, b2n (gr.got.any (·.2))), (2, b2n (gr.dropped != 0)), (3, b2n bad)]
  let wsum := f32 (ws.foldl (fun a w => Fl.add a (ofF32 w)) (.fin false 0 0))
  let rep : RouteReport := { token := g.token, flags := BitVec.ofNat 8 flags, dropped := gr.dropped, wsum := BitVec.ofNat 32 wsum, entries := ents }
  let r := { r with taken := sins g.token r.taken, assigned := gr.assigned, overflowed := gr.overflowed
                    badLogits := r.badLogits + b2n bad, reports := r.reports ++ [rep] }
  let x := (s.win f).setRound r
  s.setWin f { x with buf := x.buf.erase g, sendq := x.sendq ++ letters, records := x.records + 1 }

/-- May a buffered record be taken now (R84). -/
def WinnowState.takeable (x : WinnowState) (g : GateRec) : Bool :=
  match x.round g.round with
  | some r => r.loaded && (!r.byIndex || g.token == r.lowest)
  | none => false

/-- WINNOW_TAKE_TOKEN: the first record that may be taken (R83, R84). Tables still unread are read first. -/
def execWinnowTakeToken (f : Nat) (s : State) : Out :=
  atUnit "winnow router" f 4 <|
    if (s.win f).stopped then s
    else
      let s := (s.win f).rounds.foldl (fun s r => s.loadTable f r) s
      let x := s.win f
      match x.buf.find? x.takeable with
      | none => s
      | some g =>
        match x.round g.round with
        | some r => s.takeToken f r g
        | none => s

/-! ## Letters (R85, R86) -/

/-- A letter header (R85). -/
def letterHeader (round token expert slot : Nat) (weight : W32) (rank flags router out : Nat) : Bytes :=
  recOf 32 [(0, 2, round), (2, 2, token), (4, 2, expert), (6, 2, slot), (8, 4, weight.toNat), (12, 1, rank), (13, 1, flags),
    (14, 1, router), (16, 8, out)]

/-- Write bytes to every target of a group; ports carry them on as circulars (R85, R314). -/
def State.groupWrite (s : State) (f group addr : Nat) (bs : PBytes) : State :=
  (s.circTargets group 64 f 63).1.foldl (fun s t => match t with
    | .core g => (s.localWrite g addr bs).2
    | .die n a => (s.dieSend n { att := a, typ := 4, addr := addr, len := bs.length } (bs.map (·.1))).2
    | .link l => (s.circOut (s.winClient f).iss l group addr bs).2) s

/-- Send one letter: row and scales, then the header with VALID last (R85, R86). -/
def State.sendLetter (s : State) (f : Nat) (r : Round) (l : Letter) (row : PBytes) : State :=
  match r.table[l.expert]? with
  | none => s
  | some e =>
    let s := s.groupWrite f e.group (e.rowOff + l.slot * e.rowPitch * 16) (row.take r.rowBytes)
    let s := s.groupWrite f e.group (e.sclOff + l.slot * r.scaleBytes) (row.drop r.rowBytes)
    let h := letterHeader l.round l.token l.expert l.slot l.weight l.rank (128 + 2 * b2n l.rerouted) f
      ((r.outBase + l.token * r.outStride) % 2 ^ 64)
    let s := s.groupWrite f e.group (e.hdrOff + l.slot * 32) (mark false h)
    let x := s.win f
    s.setWin f { x with letters := x.letters + 1, sendq := x.sendq.erase l }

/-- Send the letters of the first token in the list whose row can be read; the row is read once (R85). -/
def State.sendFirst (f : Nat) : List Letter → State → State
  | [], s => s
  | l :: ls, s =>
    let x := s.win f
    match x.round l.round with
    | none => State.sendFirst f ls s
    | some r =>
      match s.clRead (s.winClient f) l.rowAddr (r.rowBytes + r.scaleBytes) hintNormal with
      | (.fault _, s) => State.sendFirst f ls s
      | (.ok bs st, s) =>
        if st = .wait then State.sendFirst f ls s
        else (x.sendq.filter (fun y => y.round == l.round && y.token == l.token)).foldl (fun s y => s.sendLetter f r y bs) s

/-- TOKEN_LETTER (R85). -/
def execTokenLetter (f : Nat) (s : State) : Out :=
  atUnit "winnow router" f 4 (if (s.win f).stopped then s else State.sendFirst f (s.win f).sendq s)

/-! ## Closing a round (R87, R88) -/

/-- ROUND_CLOSE: no further record of the round is accepted; under INDEX the indices not received are missing (R87,
R91). -/
def execRoundClose (f : Nat) (writer : Option Nat) (record : Bytes) (s : State) : Out :=
  atUnit "winnow router" f 4 <|
    match s.winGate f writer with
    | some s => s
    | none =>
      let x := s.win f
      let zero := rdb record 1 == 0 && rd record 4 4 == 0 && (slice record 16 48).all (· == 0)
      if rdb record 0 ≠ 2 ∨ !zero then s.winReject f writer 2
      else
        match x.round (rd record 2 2) with
        | none => s.winReject f writer 1
        | some r =>
          if r.closeFlag.isSome then s.winReject f writer 1
          else
            let miss := if r.byIndex then (List.range r.tokens).filter (fun t => !r.received.contains t) else []
            (s.setWin f (x.setRound { r with closeFlag := some (rd record 8 8), missing := miss })).emit
              (.writeAnswer (writerUnit writer) (uidWinnow f) 0)

/-- A route report (R88). -/
def RouteReport.bytes (p : RouteReport) (f : Nat) : Bytes :=
  let ents := (List.range 8).map (fun i => match p.entries[i]? with
    | some e => le 2 e.1 ++ le 2 e.2.1 ++ le 4 e.2.2.toNat
    | none => le 2 0xFFFF ++ zeros 6)
  recOf 32 [(0, 2, p.token), (2, 1, p.entries.length), (3, 1, p.flags.toNat), (4, 1, p.dropped), (5, 1, f), (8, 4, p.wsum.toNat)]
    ++ ents.flatten

/-- The round summary (R88). -/
def Round.summary (r : Round) : Bytes :=
  recOf 16 [(0, 2, r.id), (4, 4, r.taken.length), (8, 4, r.missing.length), (12, 4, r.badLogits)]
    ++ ((List.range r.experts).map (fun e => le 2 (tget 0 r.assigned e) ++ le 2 (tget 0 r.overflowed e))).flatten

/-- The writes to memory that closing a round makes, in order: (address, bytes). -/
def Round.closing (r : Round) (f flag : Nat) : List (Nat × Bytes) :=
  let miss := r.missing.map (fun t => ({ token := t, flags := 16 } : RouteReport))
  (if r.reportAddr = 0 then [] else (r.reports ++ miss).map (fun p => (r.reportAddr + p.token * 96, p.bytes f)))
    ++ (if r.summaryAddr = 0 then [] else [(r.summaryAddr, r.summary)])
    ++ [(flag, le 8 1)]

/-- An END letter to the group of an expert (R87). -/
def State.endLetter (s : State) (f : Nat) (r : Round) (i : Nat) (e : Expert) : State :=
  if !e.enable then s
  else s.groupWrite f e.group (e.endOff + f * 32) (mark false (letterHeader r.id 0 i (tget 0 r.assigned i) 0 0 0x81 f 0))

/-- ROUND_CLOSE_FINISH: with every token taken and every letter sent, the reports and the summary, the END letters, then
the close flag; a page that does not translate holds the whole back (R76, R87). -/
def execRoundCloseFinish (f round : Nat) (s : State) : Out :=
  atUnit "winnow router" f 4 <|
    let x := s.win f
    match x.round round with
    | none => s
    | some r =>
      match r.closeFlag with
      | none => s
      | some flag =>
        if x.stopped || !r.loaded || x.buf.any (fun g => g.round == round) || x.sendq.any (fun l => l.round == round) then s
        else
          let c := s.winClient f
          let ws := r.closing f flag
          let (hole, s) := ws.foldl (fun (a : Option Nat × State) w =>
            match a.1 with
            | some _ => a
            | none => a.2.clProbe c w.1 w.2.length kWrite) (none, s)
          if hole.isSome then s
          else
            let s := (ws.dropLast).foldl (fun s w => (s.clWrite c w.1 (mark false w.2) hintNormal).2) s
            let s := r.table.zipIdx.foldl (fun s e => s.endLetter f r e.2 e.1) s
            let s := (s.clWrite c flag (mark false (le 8 1)) hintNormal).2
            let x := s.win f
            s.setWin f { x with rounds := x.rounds.filter (fun y => y.id != round) }

/-- A router's rounds, records and unsent letters are discarded (R90). -/
def WinnowState.discard (x : WinnowState) : WinnowState := { x with rounds := [], buf := [], sendq := [] }

/-- WINNOW_CTX as written: its reserved bits read zero. -/
def winCtxMask (v : W64) : W64 := v &&& 0xFFFF0000000001F3

/-- WINNOW_CTX_WRITE: clearing ENABLE or writing a new ASID discards every open round (R90). -/
def State.winCtxWrite (s : State) (f : Nat) (value : W64) : State :=
  let x := s.win f
  let v := winCtxMask value
  let x' := if (x.ctx.getLsbD 0 && !v.getLsbD 0) || bf x.ctx 63 48 != bf v 63 48 then x.discard else x
  s.setWin f { x' with ctx := v }

/-- WINNOW_CTX_WRITE (R90). -/
def execWinnowCtxWrite (f : Nat) (value : W64) (s : State) : Out := atUnit "winnow router" f 4 (s.winCtxWrite f value)

/-- A cancelled fault of a router (R240): a record whose row was wanted is treated as missing, MISSING in its report and
no letters sent. A round whose table or closing pages were wanted is discarded with a log entry (log 45). -/
def State.winCancel (s : State) (f page : Nat) : State :=
  let x := s.win f
  let inPage (a n : Nat) : Bool := decide (a / 65536 ≤ page / 65536 ∧ page / 65536 ≤ (a + n - 1) / 65536)
  let hit := x.sendq.filter (fun l => match x.round l.round with
    | some r => inPage l.rowAddr (r.rowBytes + r.scaleBytes)
    | none => false)
  let x := hit.foldl (fun (x : WinnowState) l =>
    match x.round l.round with
    | some r => x.setRound { r with reports := r.reports.filter (fun p => p.token != l.token)
                                    taken := srem l.token r.taken, missing := sins l.token r.missing }
    | none => x) { x with sendq := x.sendq.filter (fun l => !hit.contains l) }
  let x := { x with rounds := x.rounds.filter (fun r =>
    !((!r.loaded && inPage r.tableAddr (32 * r.experts))
      || (match r.closeFlag with
          | some flag => x.buf.all (fun g => g.round != r.id) && x.sendq.all (fun l => l.round != r.id)
              && (r.closing f flag).any (fun w => inPage w.1 w.2.length)
          | none => false))) }
  (s.setWin f x).logAt 0x0204 (uidWinnow f) 0 (le 1 0 ++ le 4 0)

end Sys2Proof.Machine
end

