-- ==== Sys2Proof/Machine/Translate.lean ====
section
/-! DEFINITION. Page walks, the fault collector, replays and cancels, invalidations and the access counters (R233–R245). -/
namespace Sys2Proof.Machine

/-- PAGE_WALK_COMPLETE: a walk for a client's access ends: a leaf is installed in the shared TLB and the client's, and the
time it took is counted; otherwise the access waits in a slot (R233, R236). -/
def execPageWalkComplete (d : Nat) (client : W32) (asid va acc ns : Nat) (s : State) : Out :=
  atUnit "translation unit" d 16 <|
    let x := s.xl d
    let s := s.setXl d { x with count := cnt (cnt x.count 1 1) 2 ns }
    let iss : Issuer := { unit := client, asid := asid, cls := 4 }
    match s.walk d iss asid va with
    | (.hit e _, s) =>
      let x := s.xl d
      s.setXl d { x with tlb := tlbPut 8192 e x.tlb, ctlb := tset x.ctlb client.toNat (tlbPut 32 e (x.ctlbOf client)) }
    | (.fault c, s) => s.raiseFault d client asid va c acc

/-! ## The fault collector (R237, R238) -/

/-- Merge a fault into an entry. -/
def FaultEnt.merge (e : FaultEnt) (m : FaultMsg) : FaultEnt :=
  { e with dies := e.dies ||| (if m.die < 16 then 1 <<< m.die else 0), count := satAdd e.count 1, access := e.access ||| m.acc }

/-- Does an address lie in the host window (R223). -/
def inHostWindow (va : Nat) : Bool := decide (0x8000000000000 ≤ va ∧ va < 0x8100000000000)

/-- A new entry. -/
def faultEntOf (m : FaultMsg) : FaultEnt :=
  { page := m.page, asid := m.asid, cause := m.cause
    access := m.acc ||| (if m.cause != 0x10 && inHostWindow m.page then 16 else 0)
    dies := if m.die < 16 then 1 <<< m.die else 0
    count := 1, firstUnit := m.client, firstTime := m.time }

/-- Entries of the ring in use: one header and its entries for each batch. -/
def BagState.used (b : BagState) : Nat := (b.ring.map (fun x => x.entries.length + 1)).foldl (· + ·) 0

/-- Close the open batch when the ring has room for it: it is written to the ring, header first, and the sorting office
interrupted. -/
def BagState.close (b : BagState) (now : Nat) : BagState :=
  match b.openB with
  | none => b
  | some es =>
    if b.used + es.length + 1 ≤ b.size then
      { b with openB := none, ring := b.ring ++ [{ num := b.nextBatch, closeTime := now, entries := es }]
               nextBatch := b.nextBatch + 1, irq := true }
    else b

/-- A fault reaches the collector: merged into an entry of the open batch, added to it, or kept waiting while the batch is
full and cannot close. -/
def BagState.collect (b : BagState) (now : Nat) (m : FaultMsg) : BagState :=
  match b.openB with
  | none => { b with openB := some [faultEntOf m] }
  | some es =>
    let same (e : FaultEnt) : Bool := e.asid == m.asid && e.page == m.page && (e.cause == 0x10) == (m.cause == 0x10)
    if es.any same then { b with openB := some (updFirst same (fun e => e.merge m) es) }
    else if es.length < 64 then
      let b := { b with openB := some (es ++ [faultEntOf m]) }
      if es.length + 1 = 64 then b.close now else b
    else { b with waiting := b.waiting ++ [m] }

/-- FAULT_MESSAGE: the oldest message reaches the collector (R237). -/
def execFaultMessage (s : State) : Out :=
  .next <|
    match s.bag.msgs with
    | m :: rest => { s with bag := { s.bag with msgs := rest }.collect s.time m }
    | [] => s

/-- FAULT_BATCH_CLOSE: 16 µs after its first entry the open batch closes if the ring has room; the faults that waited are
collected into the next (R237). -/
def execFaultBatchClose (s : State) : Out :=
  .next <|
    let b := s.bag.close s.time
    if b.openB.isSome then { s with bag := b }
    else
      let w := b.waiting
      { s with bag := w.foldl (fun b m => b.collect s.time m) { b with waiting := [] } }

/-! ## Replay and cancel (R240) -/

/-- Clients with an access in a wait slot of unit d for a page. -/
def State.waiters (s : State) (d asid page : Nat) : List W32 :=
  ((s.xl d).slots.filter (fun w => w.asid == asid && w.va / 65536 == page / 65536)).map (·.client)

/-- A control processor that waited on the page runs again (replay) or will take its page fault (cancel). -/
def State.cpRelease (s : State) (g page : Nat) (cancel : Bool) : State :=
  let c := s.core g
  match c.cp.stall with
  | .fault va acc =>
    if va / 65536 = page / 65536 then s.setCore g (c.setStall (if cancel then .cancelled va acc else .none)) else s
  | _ => s

/-- The descriptors of an engine with a part, or the completion word, on a cancelled page stop with STATUS 0x02. -/
def State.engCancel (s : State) (e : EngRef) (asid page : Nat) : State :=
  let x := s.eng e
  let hit (a n : Nat) : Bool := decide (a / 65536 ≤ page / 65536 ∧ page / 65536 ≤ (a + n - 1) / 65536)
  let touches (r : RunDesc) : Bool :=
    r.asid == asid && !dFlag r.desc 3
      && (r.todo.any (fun p => (!dFlag r.desc 4 && rdb r.desc 0 != 2 && hit (dSrc r.desc p.1 + p.2.1) p.2.2)
                            || (!dFlag r.desc 5 && hit (dDst r.desc p.1 + p.2.1) p.2.2)))
  s.setEng e { x with running := x.running.map (fun r =>
    if r.status.isNone && touches r then { r with status := some 2 }
    else if r.status.isSome && r.asid == asid && rd r.desc 56 8 != 0 && hit (rd r.desc 56 8) 8 then
      { r with desc := putBytes r.desc 56 (zeros 8), status := some 2 }
    else r) }

/-- What one client does when its waiting accesses are released. -/
def State.clientRelease (s : State) (asid page : Nat) (cancel : Bool) (client : W32) : State :=
  let idx := bf client 15 0
  match bf client 31 24 with
  | 0x04 => s.cpRelease idx page cancel
  | 0x07 => if cancel then s.engCancel (.cdma idx) asid page else s
  | 0x08 => if cancel then s.engCancel (.hdma idx) asid page else s
  | 0x0B => if cancel then s.svCancel idx page else s
  | 0x0C => if cancel then s.winCancel idx page else s
  | _ => s

/-- TRANSLATE_REPLAY: every wait slot of unit d with the ASID and page is released, and its client translates again
(R240). -/
def State.replay (s : State) (d asid page : Nat) : State :=
  let w := s.waiters d asid page
  w.foldl (fun s c => s.clientRelease asid page false c) (s.releaseSlots d asid page)

/-- TRANSLATE_CANCEL: the same slots are released as failures (R240). -/
def State.cancel (s : State) (d asid page : Nat) : State :=
  let w := s.waiters d asid page
  w.foldl (fun s c => s.clientRelease asid page true c) (s.releaseSlots d asid page)

/-- TRANSLATE_REPLAY (R240). -/
def execTranslateReplay (d asid page : Nat) (s : State) : Out := atUnit "translation unit" d 16 (s.replay d asid page)
/-- TRANSLATE_CANCEL (R240). -/
def execTranslateCancel (d asid page : Nat) (s : State) : Out := atUnit "translation unit" d 16 (s.cancel d asid page)

/-! ## Invalidation (R241) -/

/-- Does a TLB entry overlap a range of an ASID. -/
def TlbEnt.overlaps (e : TlbEnt) (asid va len : Nat) : Bool :=
  e.asid == asid && decide (e.base < va + len ∧ va < e.base + 2 ^ e.log2)

/-- Clients of a translation unit (R233): cores, clusters and cluster DMAs of a compute die; hub DMA engines, winnow router
and sieve units of a field die. -/
def unitClients (d : Nat) : List W32 :=
  if d < 12 then
    (List.range 168).map (fun i => uidCore (d * 168 + i)) ++ (List.range 21).map (fun i => uidCluster (d * 21 + i))
      ++ (List.range 21).map (fun i => uid 0x07 (d * 21 + i))
  else
    let f := d - 12
    (List.range 8).map (fun i => uid 0x08 (f * 8 + i)) ++ [uidWinnow f] ++ (List.range 4).map (fun i => uidSieve (f * 4 + i))

/-- TRANSLATE_INVALIDATE: the unit drops the overlapping entries of its shared TLB and walker cache and passes the
invalidation to each client (R241 step 3). -/
def State.invalidate (s : State) (d asid va len : Nat) : State :=
  let x := s.xl d
  s.setXl d { x with
    tlb := x.tlb.filter (fun e => !e.overlaps asid va len)
    wcache := x.wcache.filter (fun e => e.asid != asid)
    invals := x.invals ++ [{ asid := asid, va := va, len := len, clients := unitClients d, sent := s.time }] }

/-- TRANSLATE_INVALIDATE (R241). -/
def execTranslateInvalidate (d asid va len : Nat) (s : State) : Out := atUnit "translation unit" d 16 (s.invalidate d asid va len)

/-- Lines of an ASID with a byte in a non-empty range. -/
def overLine (asid va len : Nat) (l : Line) : Bool :=
  l.asid == asid && decide (l.tag * 128 < va + len ∧ va < l.tag * 128 + 128)

/-- What a client does under an invalidation: its TLB entries go; a core cache writes its dirty sectors back through its
cluster's cache to the home slices, a cluster cache to the home slices, and they drop the lines (R241 step 4). An access of this model is complete when it is
made, so nothing else is waited for. -/
def State.clientInval (s : State) (d : Nat) (client : W32) (asid va len : Nat) : State :=
  let x := s.xl d
  let s := s.setXl d { x with ctlb := tset x.ctlb client.toNat ((x.ctlbOf client).filter (fun e => !e.overlaps asid va len)) }
  let sel := overLine asid va len
  let idx := bf client 15 0
  match bf client 31 24 with
  | 0x04 =>
    (((s.flushCore idx sel).dropCore idx sel).flushCluster (clusterOf idx) sel).dropCluster (clusterOf idx) sel
  | 0x03 => (s.flushCluster idx sel).dropCluster idx sel
  | _ => s

/-- TRANSLATE_ACK: a client has finished the oldest invalidation that waits for it, and its acknowledgement reaches
firmware (R241). -/
def State.invalAck (s : State) (d : Nat) (client : W32) : State :=
  match (s.xl d).invals.find? (fun i => i.clients.contains client) with
  | none => s
  | some i =>
    let s := s.clientInval d client i.asid i.va i.len
    let x := s.xl d
    s.setXl d { x with
      invals := (updFirst (fun y => y == i) (fun y => { y with clients := y.clients.erase client }) x.invals).filter
        (fun y => y.clients != [])
      count := cnt x.count 4 1 }

/-- TRANSLATE_ACK (R241). -/
def execTranslateAck (d : Nat) (client : W32) (s : State) : Out := atUnit "translation unit" d 16 (s.invalAck d client)

/-- ACCESS_COUNTER_DECAY: every counter of the port halves (R244). -/
def execAccessCounterDecay (p : Nat) (s : State) : Out :=
  atUnit "host port" p 2
    { s with acc := { s.acc with ctrs := tset s.acc.ctrs p ((tget [] s.acc.ctrs p).map (fun c => { c with count := c.count / 2 })) } }

end Sys2Proof.Machine
end

