-- ==== Sys2Proof/Machine/Barrier.lean ====
section
/-! DEFINITION. Barriers on the post network (R267, R268, R315). -/
namespace Sys2Proof.Machine

/-- Post router or stop r of die code d: routers 0–15, the stop of physical cluster position q at 16 + q (R272). -/
def State.postR (s : State) (d r : Nat) : PostState := tget {} s.posts (d * 64 + r)
/-- BAR_ENTRY of an ID. -/
def State.barEnt (s : State) (d r id : Nat) : W64 := tget 0 (s.postR d r).bar id
/-- Replace BAR_ENTRY of an ID. -/
def State.setBar (s : State) (d r id : Nat) (v : W64) : State :=
  { s with posts := tset s.posts (d * 64 + r) { s.postR d r with bar := tset (s.postR d r).bar id v } }
/-- Identifier of a post router (R265). -/
def uidPost (d r : Nat) : W32 := uid 0x13 (d * 0x1000 + r)

/-- Core that child port i of a stop is. -/
def State.stopCore (s : State) (d r i : Nat) : Option Nat :=
  if 4 ≤ d ∧ 16 ≤ r ∧ i < 8 then (s.clusterAt (d - 4) (r - 16)).map (fun c => c * 8 + i) else none

/-- A departure at a router or stop: every router passes it to each CHILDREN port; at a stop it completes the waits of the
participating cores whose last arrival was for the ID (R267, R268). -/
def State.depart (s : State) (d r id : Nat) : State :=
  let e := s.barEnt d r id
  ((List.range 32).filter (fun i => e.getLsbD (16 + i))).foldl (fun s i =>
    match s.stopCore d r i with
    | some g =>
      let c := s.core g
      if c.barId = id then s.setCore g { c with departed := true } else s
    | none => s.emit (.barDown d r i id)) s

/-- An arrival counts; at EXPECT the router clears COUNT and flips PHASE, and sends one arrival up or, at a ROOT, starts the
departures. One for an invalid entry or from a port outside CHILDREN is discarded and logged (R267). -/
def State.arrive (s : State) (d r port id : Nat) : State :=
  let e := s.barEnt d r id
  if !e.getLsbD 63 || !e.getLsbD (16 + port % 32) || port ≥ 32 then s.logAt 0x0304 (uidPost d r) 0 (le 1 1 ++ le 1 id)
  else
    let n := bf e 15 8 + 1
    if n ≥ bf e 7 0 then
      let e := setBf (setBf e 15 8 0) 61 61 (1 - bf e 61 61)
      let s := s.setBar d r id e
      if e.getLsbD 62 then s.depart d r id else s.emit (.barUp d r (bf e 60 56) id)
    else s.setBar d r id (setBf e 15 8 n)

/-- Does a post router or stop exist. -/
def postExists (d r : Nat) : Bool := if d < 4 then decide (r < 4) else decide (d < 16 ∧ (r = 0 ∨ (16 ≤ r ∧ r < 38)))

/-- Answer a next state for a post router or stop of the package. -/
def atPost (d r : Nat) (s : State) : Out := if postExists d r then .next s else .fault (.noSuchUnit "post router" (d * 64 + r))

/-- BARRIER_ARRIVE: at a stop, the arrival is one that the port's core has sent (R267). -/
def execBarrierArrive (d r port id : Nat) (s : State) : Out :=
  atPost d r <|
    match s.stopCore d r port with
    | some g =>
      let c := s.core g
      if c.barSent.contains (id % 256) then
        (s.setCore g { c with barSent := c.barSent.erase (id % 256) }).arrive d r port (id % 256)
      else s
    | none => s.arrive d r port (id % 256)

/-- BARRIER_DEPART: a departure reaches a router or stop from its parent (R267). -/
def execBarrierDepart (d r id : Nat) (s : State) : Out := atPost d r (s.depart d r (id % 256))

end Sys2Proof.Machine
end

