-- ==== Sys2Proof/Machine/Crypto.lean ====
section
/-! DEFINITION. Cryptographic operations at the lengths chapter 16 gives them, over the functions of Config (log 7). -/
namespace Sys2Proof.Machine

/-- ASCII bytes of a string. -/
def ascii (s : String) : Bytes := s.toList.map (fun c => BitVec.ofNat 8 c.toNat)

/-- SHA-256, 32 bytes. -/
def sha (b : Bytes) : Bytes := slice (Config.sha256 b) 0 32
/-- HKDF-Extract, 32 bytes. -/
def extract (salt ikm : Bytes) : Bytes := slice (Config.hkdfExtract salt ikm) 0 32
/-- HKDF-Expand, n bytes. -/
def expand (prk info : Bytes) (n : Nat) : Bytes := slice (Config.hkdfExpand prk info n) 0 n
/-- HMAC-SHA-256, 32 bytes. -/
def hmac (key msg : Bytes) : Bytes := slice (Config.hmac256 key msg) 0 32
/-- AES-256-GCM: ciphertext and tag, 16 bytes longer than the plaintext. -/
def gcmSeal (key iv aad pt : Bytes) : Bytes := slice (Config.gcmSeal key iv aad pt) 0 (pt.length + 16)
/-- AES-256-GCM opened: the plaintext, 16 bytes shorter, or none. -/
def gcmOpen (key iv aad ct : Bytes) : Option Bytes :=
  if ct.length < 16 then none else (Config.gcmOpen key iv aad ct).map (fun p => slice p 0 (ct.length - 16))
/-- ML-KEM-1024 encapsulation key of (d, z), 1,568 bytes. -/
def kemEk (d z : Bytes) : Bytes := slice (Config.kemEk d z) 0 1568
/-- ML-KEM-1024 decapsulation key of (d, z), 3,168 bytes. -/
def kemDk (d z : Bytes) : Bytes := slice (Config.kemDk d z) 0 3168
/-- ML-KEM-1024 decapsulation, 32 bytes. -/
def kemDecaps (dk ct : Bytes) : Bytes := slice (Config.kemDecaps dk ct) 0 32
/-- SLH-DSA-SHA2-128f public key, 32 bytes. -/
def slhPk (seed : Bytes) : Bytes := slice (Config.slhPk seed) 0 32
/-- SLH-DSA-SHA2-128f signature, 17,088 bytes. -/
def slhSign (seed msg : Bytes) : Bytes := slice (Config.slhSign seed msg) 0 17088

/-- Exclusive or of byte strings. -/
def xorBytes : Bytes → Bytes → Bytes
  | a :: as, b :: bs => (a ^^^ b) :: xorBytes as bs
  | as, [] => as
  | [], _ => []

/-- Nonce of a sealed record: the direction's IV with SEQ, in 8 bytes, XORed into bytes 4–11 (R413). -/
def recNonce (iv : Bytes) (seq : Nat) : Bytes := iv.take 4 ++ xorBytes (iv.drop 4) (le 8 seq)

/-- Header of a sealed record (R413). -/
def recHeader (kind owner len seq bind : Nat) : Bytes :=
  recOf 32 [(0, 4, 0x31534C5A), (4, 1, 1), (5, 1, kind), (8, 4, owner), (12, 4, len), (16, 8, seq), (24, 8, bind)]

/-- A sealed record, LENGTH + 48 bytes long (R413). -/
def sealRec (kind owner seq bind : Nat) (key iv pt : Bytes) : Bytes :=
  let h := recHeader kind owner pt.length seq bind
  h ++ gcmSeal key (recNonce iv seq) h pt

/-- Opens a sealed record of a kind and owner: its SEQ, BINDING and plaintext (R413, R415). -/
def openRec (kind owner : Nat) (key iv b : Bytes) : Option (Nat × Nat × Bytes) :=
  let n := rd b 12 4
  if rd b 0 4 ≠ 0x31534C5A ∨ rdb b 4 ≠ 1 ∨ rdb b 5 ≠ kind ∨ rd b 8 4 ≠ owner
      ∨ n = 0 ∨ n > 2 ^ 30 - 48 ∨ n + 48 ≠ b.length then none
  else
    (gcmOpen key (recNonce iv (rd b 16 8)) (b.take 32) (b.drop 32)).map (fun p => (rd b 16 8, rd b 24 8, p))

/-- The session keys' slices of okm (R411). -/
def kC2D (okm : Bytes) : Bytes := slice okm 0 32
/-- Key device to client. -/
def kD2C (okm : Bytes) : Bytes := slice okm 32 32
/-- Client confirmation key. -/
def kCConf (okm : Bytes) : Bytes := slice okm 64 32
/-- Device confirmation key. -/
def kDConf (okm : Bytes) : Bytes := slice okm 96 32
/-- IV client to device. -/
def ivC2D (okm : Bytes) : Bytes := slice okm 128 12
/-- IV device to client. -/
def ivD2C (okm : Bytes) : Bytes := slice okm 140 12

end Sys2Proof.Machine
end

