-- ==== Sys2Proof/Machine/Meter.lean ====
section
/-! DEFINITION. The service meter (R390–R393). -/
namespace Sys2Proof.Machine

/-- Replace the sorting office's state. -/
def State.setServe (s : State) (x : ServeState) : State := { s with serve := x }
/-- The meter of a context ID. -/
def State.mctx (s : State) (c : Nat) : MeterCtx := tget {} s.serve.meter c
/-- Replace the meter of a context ID. -/
def State.setMctx (s : State) (c : Nat) (x : MeterCtx) : State :=
  s.setServe { s.serve with meter := tset s.serve.meter c x }
/-- A request by number, if there is one. -/
def State.req (s : State) (id : Nat) : Option ReqState := tfind s.serve.reqs id
/-- Replace a request. -/
def State.setReq (s : State) (id : Nat) (r : ReqState) : State := s.setServe { s.serve with reqs := tset s.serve.reqs id r }

/-- Numbers of the 4-byte counts of a period block (R392). -/
def pcArrived : Nat := 0
/-- ENDED -/
def pcEnded : Nat := 1
/-- RESTARTS -/
def pcRestarts : Nat := 2
/-- PREEMPTED -/
def pcPreempted : Nat := 3
/-- ABORTED -/
def pcAborted : Nat := 4
/-- CANCELLED -/
def pcCancelled : Nat := 5
/-- OVERRUN -/
def pcOverrun : Nat := 6
/-- WARNINGS -/
def pcWarnings : Nat := 7

/-- Add one to a saturating count of a period (R392). -/
def Period.bump (p : Period) (i : Nat) : Period := { p with counts := tset p.counts i (satAdd (tget 0 p.counts i) 1) }

/-- Integer eighth root, bit by bit from bit k. -/
def root8 (m : Nat) : Nat → Nat → Nat
  | 0, r => r
  | k + 1, r => if (r + 2 ^ k) ^ 8 ≤ m then root8 m k (r + 2 ^ k) else root8 m k r

/-- E_i = round(16,000 × 2^(i ÷ 8)) ns (R391). -/
def binEdge (i : Nat) : Nat := (root8 (32000 ^ 8 * 2 ^ i) 40 0 + 1) / 2

/-- The bin of an interval in ns: the first whose edge lies above it, else 159 (R391). -/
def binOf (t : Nat) : Nat :=
  match (List.range 159).find? (fun i => decide ((2 * t + 1) ^ 8 ≤ 32000 ^ 8 * 2 ^ i)) with
  | some i => i
  | none => 159

/-- Count an interval in a histogram. -/
def histAdd (h : Tbl Nat) (t : Nat) : Tbl Nat := let b := binOf t; tset h b ((tget 0 h b + 1) % 2 ^ 64)

/-- Change both the current window and the receipt period of a context (R395 keeps them apart). -/
def State.meterUpd (s : State) (c : Nat) (f : Period → Period) : State :=
  if c < 64 then
    let m := s.mctx c
    s.setMctx c { m with cur := f m.cur, rcpt := f m.rcpt }
  else s

/-- Is a request one that keeps its context busy: admitted or waiting and not held (R390). -/
def ReqState.busy (r : ReqState) : Bool := r.phase != .ended && !r.held

/-- Bring BUSY of a context up to date after a change of its requests (R390). -/
def State.busyTouch (s : State) (c : Nat) : State :=
  if c ≥ 64 then s
  else
    let on := s.serve.reqs.any (fun e => e.2.ctx == c && e.2.busy)
    let m := s.mctx c
    match m.busySince with
    | none => if on then s.setMctx c { m with busySince := some s.time } else s
    | some t =>
      let d := s.time - t
      let s := s.meterUpd c (fun p => { p with busy := p.busy + d })
      s.setMctx c { s.mctx c with busySince := if on then some s.time else none }

/-- Change a request and bring its context's BUSY up to date. -/
def State.putReq (s : State) (id : Nat) (r : ReqState) : State := (s.setReq id r).busyTouch r.ctx

/-- An event is posted to the meter: kind, request number at the meter, context (R390). -/
def State.postEvent (s : State) (k : MeterKind) (serial c : Nat) : State :=
  s.setServe { s.serve with events := s.serve.events ++ [(k, serial, c)] }

/-- The meter stamps an event with the timebase and bins the interval it derives (R390, R391, R403). -/
def State.meterEvent (s : State) (k : MeterKind) (n c : Nat) : State :=
  let put (s : State) (r : MeterReq) : State := s.setServe { s.serve with mreqs := tset s.serve.mreqs n r }
  match k with
  | .arrive => (put s { ctx := c, arrive := s.time }).meterUpd c (fun p => p.bump pcArrived)
  | _ =>
    match tfind s.serve.mreqs n with
    | none => s
    | some r =>
      match k with
      | .arrive => s
      | .first => s.meterUpd r.ctx (fun p => { p with ttft := histAdd p.ttft (s.time - r.arrive) })
      | .token =>
        let s1 := put s { r with lastTok := some s.time, heldGap := 0 }
        match r.lastTok with
        | none => s1
        | some t => s1.meterUpd r.ctx (fun p => { p with itl := histAdd p.itl (s.time - t - r.heldGap) })
      | .hold => put s { r with holdAt := some s.time }
      | .unhold =>
        match r.holdAt with
        | none => s
        | some t =>
          (put s { r with holdAt := none, heldGap := r.heldGap + (s.time - t) }).meterUpd r.ctx
            (fun p => { p with heldNs := p.heldNs + (s.time - t) })
      | .end_ st reply =>
        let s := s.setServe { s.serve with mreqs := tdel s.serve.mreqs n }
        let s := if reply then s.meterUpd r.ctx (fun p => p.bump pcEnded) else s
        if st = 0x0401 then s.meterUpd r.ctx (fun p => p.bump pcAborted)
        else if st = 0x0402 then s.meterUpd r.ctx (fun p => p.bump pcCancelled)
        else s

/-- METER_EVENT: the meter takes the oldest event posted to it (R390). -/
def execMeterEvent (s : State) : Out :=
  .next <|
    match s.serve.events with
    | [] => s
    | (k, n, c) :: rest => (s.setServe { s.serve with events := rest }).meterEvent k n c

/-- Total count of a histogram. -/
def histTotal (h : Tbl Nat) : Nat := (h.map (·.2)).sum

/-- The measured percentile of a histogram, in 0.01% units: the edge of the first bin at which the cumulative count
reaches it; none for +Infinity (R391). -/
def percentile (h : Tbl Nat) (pct : Nat) : Option Nat :=
  let tot := histTotal h
  let cum (i : Nat) : Nat := ((h.filter (fun e => e.1 ≤ i)).map (·.2)).sum
  match (List.range 159).find? (fun i => decide (pct * tot ≤ 10000 * cum i)) with
  | some i => some (binEdge i)
  | none => none

/-- End the current window of a context at a snapshot: it becomes the last window and a new one starts (R387, R392). -/
def State.endWindow (s : State) (c : Nat) : State :=
  let s := s.busyTouch c
  let m := s.mctx c
  s.setMctx c { m with last := { m.cur with stop := s.time }, cur := { start := s.time }, warned := [] }

/-- Bytes of a period block; a period still open ends at the snapshot (R392). -/
def Period.bytes (p : Period) (stop : Nat) : Bytes :=
  recOf 96 ([(0, 8, p.start), (8, 8, stop), (16, 8, p.tokens), (24, 8, p.reprefilled), (32, 8, p.busy), (40, 8, p.heldNs)]
    ++ (List.range 8).map (fun i => (48 + 4 * i, 4, (tget (0 : W32) p.counts i).toNat)))
  ++ ((List.range 160).map (fun i => le 8 (tget 0 p.ttft i))).flatten
  ++ ((List.range 160).map (fun i => le 8 (tget 0 p.itl i))).flatten

end Sys2Proof.Machine
end

