-- ==== Sys2Proof/Machine/Host.lean ====
section
/-! DEFINITION. The host interface: functions, trays, interrupts, answers, and the taking of letters (R321–R340, R345). -/
namespace Sys2Proof.Machine

/-- Function f of port p. -/
def State.fn (s : State) (p f : Nat) : HostFunc := tget {} s.hostFn (p * 32 + f)
/-- Replace a function. -/
def State.setFn (s : State) (p f : Nat) (x : HostFunc) : State := { s with hostFn := tset s.hostFn (p * 32 + f) x }
/-- Host port p. -/
def State.hport (s : State) (p : Nat) : HostPort := tget {} s.hostPorts p

/-- Does the command name a function of a host port (R321). -/
def atFn (p f : Nat) (s : State) : Out := if p < 2 ∧ f < 32 then .next s else .fault (.noSuchUnit "host function" (p * 32 + f))

/-- Physical form of bus address b on port p (R224). -/
def hostPhys (p b : Nat) : Nat := 0x100000000000 + p * 2 ^ 43 + b
/-- Virtual form of bus address b on port p (R224). -/
def hostVirt (p b : Nat) : Nat := 0x8000000000000 + p * 2 ^ 43 + b

/-- Does the device serve its host: after READY (R339, R468). -/
def State.serves (s : State) : Bool := s.dev.mode == .ready || s.dev.mode == .unfit || s.dev.mode == .shuttingDown

/-- ALERT_N: asserted while a die is in WARNING or above, the device is UNFIT, or a hot start is held (R445, R448). -/
def State.alert (s : State) : Bool :=
  s.pwr.dies.any (fun d => d.2.warn || d.2.thr) || s.dev.mode == .unfit || s.board.hotHold

/-- STATE as DEV_STATE and IDENTIFY report it (R339, R352). -/
def State.stateCode (s : State) : Nat := match s.dev.mode with | .unfit => 2 | .shuttingDown => 3 | _ => 1

/-! ## Interrupts (R324, R335) -/

/-- Is vector v of a function masked (R324; the table's layout is PCI Express's, log 55). -/
def HostFunc.masked (x : HostFunc) (v : Nat) : Bool := (tget (1 <<< 32 : W64) x.msix (2 * v + 1)).getLsbD 32

/-- A message of vector v, or its pending bit while the vector is masked. -/
def State.msixSend (s : State) (p f v : Nat) : State :=
  let x := s.fn p f
  if x.masked v then s.setFn p f { x with pba := x.pba ||| BitVec.ofNat 4 (2 ^ v) } else s.emit (.msix p f v)

/-- Vector 0 for a stamp just written: at once, or at the end of the running interval (R335). -/
def State.msi0 (s : State) (p f : Nat) : State :=
  let x := s.fn p f
  let due := match x.lastMsi with
    | none => true
    | some t => x.moderate = 0 || decide (t + x.moderate.toNat * 1000 ≤ s.time)
  if due then (s.setFn p f { x with lastMsi := some s.time, msiPend := false }).msixSend p f 0
  else s.setFn p f { x with msiPend := true }

/-- Vector 1 of every function of a port whose link is up: a change of DEV_STATE.STATE or ALERT (R335). -/
def State.msi1 (s : State) : State :=
  (List.range 64).foldl (fun s i => if (s.hport (i / 32)).up then s.msixSend (i / 32) (i % 32) 1 else s) s

/-- MSIX_MODERATION_EXPIRE: the interval ends and vector 0 signals the stamps written within it (R335). -/
def execMsixModerationExpire (p f : Nat) (s : State) : Out :=
  atFn p f (let x := s.fn p f
    if x.msiPend then (s.setFn p f { x with msiPend := false, lastMsi := some s.time }).msixSend p f 0 else s)

/-- Vector 1 if ALERT changed from what it was. -/
def State.alertFrom (s : State) (was : Bool) : State := if s.alert = was then s else s.msi1

/-! ## Slots, trays and replies (R329–R334) -/

/-- Base of slot k in the letterbox. -/
def slotBase (k : Nat) : Nat := k * 4096

/-- The slot becomes FREE: LENGTH is set to zero, and SLOT_STATE keeps the answer (R327, R329). -/
def HostFunc.freeSlot (x : HostFunc) (slot status seq : Nat) : HostFunc :=
  { x with lb := mwrite x.lb (slotBase slot) [0, 0], taken := tdel x.taken slot, last := tset x.last slot (status, seq) }

/-- Count of the entry after one of count c; 0 is skipped (R330). -/
def nextCount (c : W32) : W32 := if c + 1 = 0 then 1 else c + 1

/-- What the stamp of a TOKENS reply means to its request and to the meter (R390, R392, R402). -/
def State.stamped (s : State) (r : HostReply) : State :=
  match r.req with
  | none => s
  | some id =>
    match s.req id with
    | none => s
    | some q =>
      let s := s.meterUpd q.ctx (fun p => { p with tokens := p.tokens + r.tokens })
      let s := s.setReq id { q with delivered := q.delivered + r.tokens, finSent := q.finSent || r.final }
      let s := if r.first then s.postEvent .first q.serial q.ctx else s
      if r.final then s.postEvent (.end_ (rd r.entry 2 2) true) q.serial q.ctx else s

/-- Write one reply to the next entry of the tray, then its stamp; its slot becomes FREE in the same step (R329, R332). -/
def State.writeEntry (s : State) (p f : Nat) (r : HostReply) : State :=
  let x := s.fn p f
  match x.tray with
  | none => s
  | some t =>
    let s := (s.emit (.trayWrite p f t.next r.entry)).emit (.trayStamp p f t.next t.count)
    let t := { t with
      next := (t.next + 1) % t.n, count := nextCount t.count, ahead := t.ahead - 1
      used := t.used ++ [match r.req with | some id => some (id, r.span, r.final) | none => none] }
    let x := { x with tray := some t }
    let x := match r.slot with
      | some k => x.freeSlot k (rd r.entry 2 2) (rd r.entry 6 2)
      | none => x
    let s := (s.setFn p f x).stamped r
    if r.noIntr then s else s.msi0 p f

/-- Held replies go to the tray while entries are known to be free (R333, R334). -/
def State.flushTray (s : State) (p f : Nat) : State :=
  let x := s.fn p f
  match x.tray with
  | none => s
  | some t =>
    let k := min t.ahead x.held.length
    (x.held.take k).foldl (fun s r => s.writeEntry p f r) (s.setFn p f { x with held := x.held.drop k })

/-- A reply for a function. -/
def State.pushReply (s : State) (p f : Nat) (r : HostReply) : State :=
  let x := s.fn p f
  (s.setFn p f { x with held := x.held ++ [r] }).flushTray p f

/-- Bytes 0–55 of a reply-tray entry (R331). -/
def entryBytes (typ flags status slot seq cookie ctx sess : Nat) (body : Bytes) : Bytes :=
  putBytes (recOf 56 [(0, 1, typ), (1, 1, flags), (2, 2, status), (4, 1, slot), (6, 2, seq), (8, 8, cookie), (16, 2, ctx), (20, 4, sess)])
    24 (slice body 0 32)

/-- The entry that answers a letter, or reports the end of its lasting work (slot 0xFF) (R331). -/
def letterEntry (b : Bytes) (slot status : Nat) (body : Bytes) : Bytes :=
  entryBytes 1 0 status slot (rd b 10 2) (rd b 16 8) (rd b 8 2) (rd b 12 4) body

/-- The letter taken at a source (R327). -/
def State.letterAt (s : State) : LSrc → Option Bytes
  | .host p f k => tfind (s.fn p f).taken k
  | .mgmt k => tfind s.mgmt.taken k

/-- Leave the order of the letters. -/
def State.unqueue (s : State) (src : LSrc) : State := { s with letters := s.letters.filter (fun q => q.src != src) }

/-- One message of the management path (R340). -/
def State.mgmtSend (s : State) (entry data : Bytes) : State :=
  { s.emit (.mgmtReply (entry ++ le 8 s.mgmt.count.toNat) data) with mgmt := { s.mgmt with count := nextCount s.mgmt.count } }

/-- Answer a taken letter: a reply-tray entry whose stamp frees the slot, SLOT_STATE alone for a function without a tray, or a
message of the management path (R329, R340). -/
def State.answer (s : State) (src : LSrc) (status : Nat) (body data : Bytes) : State :=
  match s.letterAt src with
  | none => s
  | some b =>
    let s := s.unqueue src
    match src with
    | .host p f k =>
      let x := s.fn p f
      let x := if status = 0x0102 ∨ status = 0x0103 then { x with rejected := satAdd x.rejected 1 } else x
      match x.tray with
      | none => s.setFn p f (x.freeSlot k status (rd b 10 2))
      | some _ =>
        (s.setFn p f x).pushReply p f
          { entry := letterEntry b k status body, slot := some k, noIntr := nbit (rd b 4 2) 0 }
    | .mgmt k =>
      ({ s with mgmt := { s.mgmt with taken := tdel s.mgmt.taken k } }).mgmtSend (letterEntry b k status body) data

/-- An error answer: DETAIL in body bytes 0–3 (R344). -/
def State.answerErr (s : State) (src : LSrc) (status detail : Nat) : State := s.answer src status (le 4 detail) []

/-- DONE of lasting work, without a slot (R329, R345). -/
def State.workDone (s : State) (w : Work) (status : Nat) (body : Bytes) : State :=
  if w.mute then s
  else s.pushReply w.p w.f { entry := letterEntry w.letter 0xFF status body, noIntr := nbit (rd w.letter 4 2) 0 }

/-- A reply that goes to every PF0 tray that is set (R372). -/
def State.toOperators (s : State) (entry : Bytes) : State :=
  [0, 1].foldl (fun s p => if (s.fn p 0).tray.isSome then s.pushReply p 0 { entry := entry } else s) s

/-! ## The opcode table (R341, R345) -/

/-- How a letter uses the CONTEXT or SESSION field of its header. -/
inductive Names where
  | unused | must | may
  deriving DecidableEq, Repr

/-- A row of the opcode table, with the reserved fields of the letter: offset, bytes, and the bits that are not reserved. -/
structure OpRow where
  /-- Roles: operator, function, management. -/
  o : Bool := true
  f : Bool := false
  m : Bool := false
  ctx : Names := .unused
  sess : Names := .unused
  /-- LENGTH; 0 for CAL_USER_SET, whose LENGTH follows its COUNT. -/
  len : Nat := 48
  /-- A configuration letter (R349). -/
  cfg : Bool := false
  /-- Served while UNFIT and while BIST_RUN runs (R184). -/
  unfit : Bool := false
  /-- Served on the management path before READY (R340). -/
  early : Bool := false
  /-- A result letter (R341). -/
  res : Bool := false
  resv : List (Nat × Nat × Nat) := []
  deriving DecidableEq, Repr

/-- The reserved field of a result descriptor. -/
def resDesc : Nat × Nat × Nat := (44, 4, 0)

/-- The opcode table (R345, R349, R184, R340, R351–R371). -/
def opRow : Nat → Option OpRow
  | 0x0101 => some { m := true, len := 56, unfit := true, early := true, res := true, resv := [resDesc] }
  | 0x0102 => some { m := true, len := 56, unfit := true, res := true, resv := [resDesc] }
  | 0x0103 => some { m := true, len := 72, unfit := true, early := true, res := true, resv := [resDesc, (60, 4, 0)] }
  | 0x0104 => some { m := true, len := 64, unfit := true, early := true, res := true, resv := [resDesc, (50, 6, 0)] }
  | 0x0105 => some { f := true, len := 72, unfit := true, resv := [(44, 4, 0), (60, 4, 0)] }
  | 0x0201 => some { cfg := true, resv := [(33, 7, 0)] }
  | 0x0202 => some { cfg := true, len := 104, resv := [(37, 1, 7), (52, 4, 0)] }
  | 0x0203 => some { cfg := true, ctx := .must, len := 40 }
  | 0x0204 => some { cfg := true, ctx := .must, resv := [(33, 1, 0), (36, 4, 0)] }
  | 0x0205 => some { cfg := true, resv := [(33, 1, 1), (34, 6, 0)] }
  | 0x0301 => some { cfg := true, len := 96, resv := [(49, 7, 0)] }
  | 0x0302 => some { cfg := true, resv := [(36, 4, 0)] }
  | 0x0401 => some { f := true, ctx := .must, len := 96, res := true, resv := [resDesc, (80, 4, 1), (84, 4, 0)] }
  | 0x0402 => some { f := true, sess := .must, len := 1640 }
  | 0x0403 => some { f := true, sess := .must, len := 40 }
  | 0x0404 => some { f := true, ctx := .must, sess := .must, len := 72, resv := [(62, 2, 0)] }
  | 0x0405 => some { f := true, sess := .must, resv := [(36, 4, 0)] }
  | 0x0406 => some { f := true, sess := .may, len := 64, resv := [(34, 6, 0)] }
  | 0x0501 => some { cfg := true, ctx := .may, len := 72, resv := [(57, 7, 0)] }
  | 0x0502 => some { cfg := true, ctx := .must, len := 72, resv := [(63, 1, 0)] }
  | 0x0503 => some { cfg := true, ctx := .must, len := 56 }
  | 0x0504 => some { cfg := true, resv := [(36, 1, 1), (37, 3, 0)] }
  | 0x0505 => some { cfg := true, len := 80, resv := [(33, 7, 0), (40, 1, 15), (44, 4, 0), (64, 8, 0)] }
  | 0x0506 => some { cfg := true, len := 56 }
  | 0x0507 => some { cfg := true, len := 64, resv := [(33, 7, 0)] }
  | 0x0601 => some { cfg := true, ctx := .must, len := 64, resv := [(54, 1, 1), (55, 1, 0)] }
  | 0x0602 => some { ctx := .must, len := 64, res := true, resv := [resDesc, (48, 1, 1), (49, 7, 0)] }
  | 0x0603 => some { ctx := .must, len := 88, res := true, resv := [resDesc] }
  | 0x0604 => some { m := true, len := 64, unfit := true, res := true, resv := [resDesc, (52, 4, 0)] }
  | 0x0605 => some { ctx := .may, len := 128, res := true,
                     resv := [resDesc, (53, 3, 0)] ++ (List.range 8).map (fun i => (62 + 8 * i, 2, 0)) }
  | 0x0701 => some { len := 88, unfit := true, res := true, resv := [resDesc] }
  | 0x0702 => some { cfg := true, len := 64, resv := [(33, 7, 0), (52, 4, 0)] }
  | 0x0703 => some { len := 56, unfit := true, res := true, resv := [resDesc] }
  | 0x0801 => some { cfg := true, len := 56 }
  | 0x0802 => some { cfg := true, len := 40 }
  | 0x0803 => some { cfg := true, resv := [(32, 1, 1), (33, 7, 0)] }
  | 0x0901 => some { cfg := true, resv := [(32, 1, 3), (33, 7, 0)] }
  | 0x0902 => some { len := 56, res := true, resv := [resDesc] }
  | 0x0903 => some { cfg := true, len := 88, resv := [(33, 1, 3), (34, 2, 0), (76, 4, 0)] }
  | 0x0A01 => some { m := true, cfg := true, resv := [(34, 6, 0)] }
  | 0x0A02 => some { m := true, len := 56, unfit := true, early := true, res := true, resv := [resDesc] }
  | 0x0A03 => some { cfg := true, len := 0, resv := [(34, 6, 0)] }
  | 0x0A04 => some { cfg := true, len := 40 }
  | 0x0A05 => some { m := true, len := 64, unfit := true, res := true, resv := [resDesc, (48, 1, 1), (49, 7, 0)] }
  | 0x0A06 => some { cfg := true, len := 88, resv := [(34, 1, 1), (35, 5, 0)] ++ (List.range 5).map (fun i => (47 + 8 * i, 1, 0)) }
  | 0x0B01 => some { m := true, len := 56, unfit := true, res := true, resv := [resDesc] }
  | 0x0B02 => some { cfg := true, len := 80, resv := [(34, 1, 1), (37, 3, 0)] }
  | 0x0B03 => some { m := true, len := 56, unfit := true, res := true, resv := [resDesc] }
  | _ => none

/-- Is an opcode a session or request letter, ordered within its session (R350). -/
def isSessOp (op : Nat) : Bool := op / 256 == 4

/-- The first reserved field of a letter that is not zero: header, parameters, franking word (R12, R328). -/
def resvBad (row : OpRow) (b : Bytes) : Option Nat :=
  let n := rd b 0 2
  let bad (x : Nat × Nat × Nat) : Bool :=
    decide (x.1 + x.2.1 ≤ n - 8) && decide (rd b x.1 x.2.1 &&& (2 ^ (8 * x.2.1) - 1 - x.2.2) ≠ 0)
  match ([(4, 2, 1), (6, 2, 0xFF), (24, 8, 0)] ++ row.resv).find? bad with
  | some x => some x.1
  | none => if rd b (n - 6) 2 ≠ 0 then some (n - 6) else none

/-- SENDER of the letters of a source (R325, R340). -/
def senderOf : LSrc → Nat
  | .host p f _ => f + 32 * p + 64 * (if f = 0 then 0 else 1)
  | .mgmt _ => 128

/-- May the role of a source send the opcode (R10, R345). -/
def OpRow.permits (row : OpRow) : LSrc → Bool
  | .host _ f _ => if f = 0 then row.o else row.f
  | .mgmt _ => row.m

/-- The checks of R328, in order: the status and DETAIL of the first that fails. -/
def State.frankCheck (s : State) (src : LSrc) (b : Bytes) : Option (Nat × Nat) :=
  let n := rd b 0 2
  if n < 40 ∨ n > 4096 ∨ n % 8 ≠ 0 then some (0x0102, 0)
  else if rd b (n - 8) 2 ≠ rd b 10 2 ∨ rd b (n - 4) 4 ≠ crc32c (b.take (n - 4)) then some (0x0103, 0)
  else
    match opRow (rd b 2 2) with
    | none => some (0x0100, 0)
    | some row =>
      if rd b 6 1 ≠ senderOf src ∨ ¬ row.permits src then some (0x0200, 0)
      else
        match resvBad row b with
        | some d => some (0x0101, d)
        | none =>
          match src with
          | .host p f _ => if (s.fn p f).tray.isNone ∧ rd b 2 2 ≠ 0x0105 then some (0x0200, 0) else none
          | .mgmt _ => none

/-- A letter has been taken: it enters the order of the letters, an ARRIVE is posted for a REQUEST_SUBMIT, and the checks of
R328 are made. -/
def State.takeLetter (s : State) (src : LSrc) (b : Bytes) : State :=
  let n := s.serve.nextSerial
  let sub := rd b 2 2 == 0x0404
  let q : LetterQ := { src := src, serial := if sub then n else 0 }
  let s : State := { s with letters := s.letters ++ [q] }
  let s := if sub then
      (s.setServe { s.serve with nextSerial := n + 1 }).postEvent .arrive n (rd b 8 2)
    else s
  match s.frankCheck src b with
  | some (st, d) => s.answerErr src st d
  | none => s

/-- LETTERBOX_WRITE: a write of 1–512 bytes within one slot. A TAKEN slot discards and counts it; covering byte T − 1 of a
FREE slot takes the letter (R324, R327, R329). -/
def execLetterboxWrite (p f off : Nat) (data : Bytes) (s : State) : Out :=
  atFn p f <|
    let k := off / 4096
    let o := off % 4096
    let n := data.length
    let x := s.fn p f
    if k ≥ 64 ∨ n = 0 ∨ n > 512 ∨ o + n > 4096 ∨ ¬ s.serves ∨ ¬ (s.hport p).up then s
    else if (tfind x.taken k).isSome then s.setFn p f { x with discarded := satAdd x.discarded 1 }
    else
      let t := min 4096 (unle (mread x.lb (slotBase k) 2))
      let x := { x with lb := mwrite x.lb off data }
      if t ≠ 0 ∧ o ≤ t - 1 ∧ t - 1 < o + n then
        let b := mread x.lb (slotBase k) t
        (s.setFn p f { x with taken := tset x.taken k b }).takeLetter (.host p f k) b
      else s.setFn p f x

/-- MCTP_LETTER: a message of subtype 0x01 carries a letter to the RTP; a fifth letter is answered BUSY (R340). Nothing answers
while the device is off. -/
def execMctpLetter (letter : Bytes) (s : State) : Out :=
  .next <|
    if s.dev.mode = .off ∨ s.board.stage < 2 then s
    else
      match (List.range 4).find? (fun k => (tfind s.mgmt.taken k).isNone) with
      | none => s.mgmtSend (letterEntry letter 0xFF 0x0300 (le 4 0)) []
      | some k => State.takeLetter { s with mgmt := { s.mgmt with taken := tset s.mgmt.taken k letter } } (.mgmt k) letter

/-! ## Status registers as the host reads them -/

/-- DEV_STATE (R323). -/
def State.devStateReg (s : State) : Nat :=
  packN [(32, s.links.ownInc.toNat), (8, s.dev.layout), (4, b2n s.alert), (0, s.stateCode)]

/-- The 64-bit word at an offset of the status block (R323, R324). -/
def State.barWord (s : State) (p f off : Nat) : Nat :=
  let x := s.fn p f
  let hp := s.hport p
  let takenMask : Nat := ((List.range 64).filter (fun k => (tfind x.taken k).isSome)).foldl (fun a k => a + 2 ^ k) 0
  if off = 0x00 then s.devStateReg
  else if off = 0x08 then packN [(6, if f = 0 then 0 else 1), (5, p), (0, f)]
  else if off = 0x10 then s.time % 2 ^ 64
  else if off = 0x18 then packN [(12, b2n hp.flit), (8, hp.rate), (0, hp.width)]
  else if off = 0x20 then packN [(48, x.discarded.toNat), (32, x.rejected.toNat), (0, 64 - x.taken.length)]
  else if off = 0x28 then takenMask
  else if off = 0x30 then
    match x.tray with
    | none => packN [(16, min 0xFFFF x.held.length)]
    | some t => packN [(32, t.count.toNat), (16, min 0xFFFF x.held.length), (1, b2n t.full), (0, 1)]
  else if off = 0x40 then x.moderate.toNat
  else if 0x200 ≤ off ∧ off < 0x400 ∧ off % 8 = 0 then
    let k := (off - 0x200) / 8
    let l := tget (0, 0) x.last k
    packN [(48, l.2), (32, l.1), (0, b2n (tfind x.taken k).isSome)]
  else if 0x2000 ≤ off ∧ off < 0x2040 ∧ off % 8 = 0 then
    let i := (off - 0x2000) / 8
    (tget (if i % 2 = 1 then (1 <<< 32 : W64) else 0) x.msix i).toNat
  else if off = 0x3000 then x.pba.toNat
  else 0

/-- A write of 4 or 8 bytes, naturally aligned, to the status block: INTR_CTL.MODERATE and the MSI-X table; unmasking a
vector whose pending bit is set sends its message (R324, log 55). -/
def State.barWrite (s : State) (p f off size value : Nat) : State :=
  let x := s.fn p f
  if ¬ (size = 4 ∨ size = 8) ∨ off % size ≠ 0 then s
  else if off = 0x40 then s.setFn p f { x with moderate := BitVec.ofNat 16 value }
  else if 0x2000 ≤ off ∧ off < 0x2040 then
    let i := (off - 0x2000) / 8
    let old := (tget (if i % 2 = 1 then (1 <<< 32 : W64) else 0) x.msix i).toNat
    let sh := 8 * (off % 8)
    let new := setNf old (sh + 8 * size - 1) sh value
    let x := { x with msix := tset x.msix i (BitVec.ofNat 64 new) }
    let v := i / 2
    if ¬ x.masked v ∧ x.pba.getLsbD v then
      (s.setFn p f { x with pba := x.pba &&& ~~~(BitVec.ofNat 4 (2 ^ v)) }).emit (.msix p f v)
    else s.setFn p f x
  else s

end Sys2Proof.Machine
end

