-- ==== Sys2Proof/Machine/Requests.lean ====
section
/-! DEFINITION. Output records, the end and the restart of requests, the closing of sessions, and port resets
(R338, R362–R366, R379, R380, R402, R413). -/
namespace Sys2Proof.Machine

/-! ## The model's profile (R419) -/

/-- Model by number. -/
def State.model (s : State) (m : Nat) : ModelState := tget {} s.serve.models m
/-- Context by number. -/
def State.ctx (s : State) (c : Nat) : CtxState := tget {} s.ctxs c
/-- The manifest of a context's model. -/
def State.manifest (s : State) (c : Nat) : Bytes := (s.model (s.ctx c).model).manifest
/-- Session by number. -/
def State.sess (s : State) (i : Nat) : SessState := tget {} s.serve.sessions i
/-- Replace a session. -/
def State.setSess (s : State) (i : Nat) (x : SessState) : State :=
  s.setServe { s.serve with sessions := tset s.serve.sessions i x }

/-! ## Text (R379, R380) -/

/-- Bytes of the character that a lead byte begins; a byte that begins none counts alone. -/
def charLen (b : Byte) : Nat :=
  if b.toNat < 0xC0 then 1 else if b.toNat < 0xE0 then 2 else if b.toNat < 0xF0 then 3 else 4

/-- Length of the longest prefix of whole characters. -/
def wholeChars : Nat → Bytes → Nat
  | 0, _ => 0
  | _, [] => 0
  | n + 1, b :: bs => if charLen b ≤ bs.length + 1 then charLen b + wholeChars n (bs.drop (charLen b - 1)) else 0

/-- For each token its ID, the characters it completes, and whether bytes are held back after it (R380). -/
def pieces (man : Bytes) : Bytes → List Nat → List (Nat × Bytes × Bool)
  | _, [] => []
  | pend, t :: ts =>
    let buf := pend ++ Config.tokenText man t
    let n := wholeChars buf.length buf
    (t, buf.take n, decide (n < buf.length)) :: pieces man (buf.drop n) ts

/-- Does a byte string occur in another. -/
def occurs (pat : Bytes) : Bytes → Bool
  | [] => pat == []
  | b :: bs => pat.isPrefixOf (b :: bs) || occurs pat bs

/-- Stop strings of a prompt record (R376). -/
def stopStrings (h : Bytes) : List Bytes :=
  (List.range (min 4 (rdb h 33))).map (fun i => slice h (96 + 32 * i + 1) (rdb h (96 + 32 * i)))

/-- Stop token IDs of a prompt record. -/
def stopIds (h : Bytes) : List Nat := (List.range (min 8 (rdb h 32))).map (fun i => rd h (64 + 4 * i) 4)

/-- Does the last token sampled end the request (R379). -/
def State.ends (s : State) (r : ReqState) : Bool :=
  let man := s.manifest r.ctx
  match r.outp.getLast? with
  | none => false
  | some t =>
    t == rd man 36 4 || (stopIds r.head).contains t
      || decide (r.outp.length ≥ r.maxOut) || decide (r.prompt.length + r.outp.length ≥ (s.ctx r.ctx).maxTokens)
      || (let text := ((pieces man [] r.outp).map (·.2.1)).flatten
          (stopStrings r.head).any (fun p => occurs p text))

/-- A token entry (R380). -/
def tokEntry (h : Bytes) (stop : Bool) (x : Nat × Bytes × Bool) : Bytes :=
  let ids := nbit (rdb h 3) 0
  let text := if nbit (rdb h 3) 1 then x.2.1 else []
  le 4 (if ids then x.1 else 0) ++ le 2 text.length ++ le 2 (b2n stop + 2 * b2n x.2.2) ++ text

/-! ## Output records (R364–R366) -/

/-- Body of a TOKENS reply (R372). -/
def tokensBody (id first count flags len off time : Nat) : Bytes :=
  recOf 32 [(0, 4, id), (4, 4, first), (8, 2, count), (10, 1, flags), (12, 4, len), (16, 8, off), (24, 8, time)]

/-- A TOKENS reply of a request. -/
def ReqState.reply (r : ReqState) (id status : Nat) (body : Bytes) : HostReply :=
  { entry := entryBytes 2 0 status 0xFF r.seq r.cookie r.ctx r.sess body, noIntr := r.noIntr, req := some id }

/-- Tokens of the next record, if one is due: the first token alone, PER_REPLY tokens, as many as fit in OUT_LEN, or at the
end what remains (R364, R365). -/
def ReqState.due (r : ReqState) (es : List Bytes) : Option Nat :=
  let want := if r.sealed = 0 then 1 else r.perReply
  let fit := ((List.range es.length).filter (fun k => decide (48 + ((es.take (k + 1)).map List.length).sum ≤ r.outLen))).length
  if es = [] then none
  else if es.length ≥ want ∨ fit < es.length ∨ r.fin.isSome then some (min want (max 1 fit)) else none

/-- Do two byte ranges overlap. -/
def overlap (a n b m : Nat) : Bool := decide (a < b + m ∧ b < a + n)

/-- Seal the next record that is due and write it into the output range, followed by its TOKENS reply; the request is held
while the range is taken (R364). A SEQ of 2^64 − 1 is never used (R414). -/
def State.sealOne (s : State) (id : Nat) : Bool × State :=
  match s.req id with
  | none => (false, s)
  | some r =>
    if r.phase = .ended ∨ (s.sess r.sess).tokSeq ≥ 2 ^ 64 - 1 then (false, s)
    else
      let ps := (pieces (s.manifest r.ctx) [] r.outp)
      let n := ps.length
      let es := (ps.zipIdx.map (fun x => tokEntry r.head (r.fin.isSome && x.2 + 1 == n) x.1)).drop r.sealed
      match r.due es with
      | none => (false, s)
      | some k =>
        let pt := (es.take k).flatten
        let len := pt.length + 48
        let off := if r.outOff + len ≤ r.outLen then r.outOff else 0
        if r.outUsed.any (fun u => overlap off len u.1 u.2) then
          (false, if r.held then s else (s.putReq id { r with held := true }).postEvent .hold r.serial r.ctx)
        else
          let q := s.sess r.sess
          let last := r.fin.isSome && r.sealed + k == n
          let rec_ := sealRec 2 r.sess q.tokSeq (id + r.sealed * 2 ^ 32) (kD2C q.okm) (ivD2C q.okm) pt
          let first := r.sealed == 0
          let body := tokensBody id r.sealed k (b2n last + 2 * b2n first) len off s.time
          let rep := { r.reply id (if last then r.fin.getD 0 else 0) body with
                       tokens := k, span := (off, len), back := r.outOff, first := first, final := last }
          let s := (s.setSess r.sess { q with tokSeq := q.tokSeq + 1 }).emit (.hostWrite r.f (hostPhys r.p (r.outBus + off)) rec_)
          let s := if r.held then s.postEvent .unhold r.serial r.ctx else s
          let r' := { r with sealed := r.sealed + k, outOff := off + len, outUsed := r.outUsed ++ [(off, len)], held := false }
          let r' := if last then { r' with phase := .ended, prompt := [], outp := [], head := [], filled := 0 } else r'
          (true, (s.putReq id r').pushReply r.p r.f rep)

/-- Seal every record that is due. -/
def State.sealAll : Nat → State → Nat → State
  | 0, s, _ => s
  | n + 1, s, id =>
    let r := s.sealOne id
    if r.1 then State.sealAll n r.2 id else r.2

/-- Seal what is due of a request. -/
def State.sealReq (s : State) (id : Nat) : State :=
  match s.req id with
  | none => s
  | some r => s.sealAll (r.outp.length + 1) id

/-! ## The end of a request -/

/-- End a request with a final TOKENS reply of a status and COUNT 0, its plaintext filled with zero first (R366, R427). -/
def State.endReq (s : State) (id status : Nat) : State :=
  match s.req id with
  | none => s
  | some r =>
    if r.phase = .ended then s
    else
      let s := if r.held then s.postEvent .unhold r.serial r.ctx else s
      let s := s.putReq id { r with phase := .ended, held := false, prompt := [], outp := [], head := [], filled := 0, fin := some status }
      s.pushReply r.p r.f { r.reply id status (tokensBody id r.sealed 0 1 0 0 s.time) with final := true }

/-- End a request whose function's tray is forgotten: no reply, and the sorting office posts its END (R338, R390). -/
def State.dropReq (s : State) (id : Nat) : State :=
  match s.req id with
  | none => s
  | some r =>
    let s := s.setServe { s.serve with reqs := tdel s.serve.reqs id }
    let s := s.busyTouch r.ctx
    if r.finSent then s else s.postEvent (.end_ (if r.phase = .ended then r.fin.getD 0 else 0x0401) false) r.serial r.ctx

/-- Requests that satisfy a predicate, by number. -/
def State.reqsOf (s : State) (p : ReqState → Bool) : List Nat := (s.serve.reqs.filter (fun e => p e.2)).map (·.1)

/-- End every request that satisfies a predicate with ABORTED. -/
def State.abortReqs (s : State) (p : ReqState → Bool) : State :=
  (s.reqsOf p).foldl (fun s id => s.endReq id 0x0401) s

/-- The lowest place in the waiting queue less one: its head (R402). -/
def State.headPlace (s : State) : Int := (s.serve.reqs.foldl (fun m e => min m e.2.place) 0) - 1

/-- Restart or preempt a request by re-prefill: its KV pages are released, tokens whose record's reply is not stamped are
discarded, a RESTARTED notice is sent and it returns to the head of the waiting queue; the fifth restart ends it
(R386, R402, R403). -/
def State.restartReq (s : State) (id : Nat) (preempt : Bool) : State :=
  match s.req id with
  | none => s
  | some r =>
    if r.phase = .ended then s
    else if ¬ preempt ∧ r.restarts ≥ 4 then s.endReq id 0x0401
    else
      let s := if r.held then s.postEvent .unhold r.serial r.ctx else s
      let x := s.fn r.p r.f
      let mine (h : HostReply) : Bool := h.req == some id && h.tokens != 0
      let gone := x.held.filter mine
      let s := s.setFn r.p r.f { x with held := x.held.filter (fun h => !mine h) }
      let s := s.putReq id { r with
        phase := .waiting, admitted := 0, filled := 0, held := false, fin := none
        seen := max r.seen r.filled
        outp := r.outp.take r.delivered, sealed := r.delivered
        outUsed := gone.foldl (fun u h => u.erase h.span) r.outUsed
        outOff := match gone.head? with | some h => h.back | none => r.outOff
        place := s.headPlace
        restarts := if preempt then r.restarts else r.restarts + 1 }
      let s := s.meterUpd r.ctx (fun p => p.bump (if preempt then pcPreempted else pcRestarts))
      s.pushReply r.p r.f (r.reply id 0x0400 (tokensBody id r.delivered 0 0 0 0 s.time))

/-- Is a request in progress: from its admission until it ends (R401). -/
def ReqState.inProgress (r : ReqState) : Bool := r.phase == .prefill || r.phase == .decoding

/-! ## Sessions (R362) -/

/-- Close a session: its requests end with ABORTED, its buffers are withdrawn, its keys zeroised and its ID freed. -/
def State.closeSess (s : State) (i : Nat) : State :=
  match tfind s.serve.sessions i with
  | none => s
  | some q =>
    let s := s.abortReqs (fun r => r.sess == i)
    let x := s.fn q.p q.f
    let s := s.setFn q.p q.f { x with bufs := x.bufs.filter (fun b => b.2.session != i) }
    s.setServe { s.serve with sessions := tdel s.serve.sessions i }

/-- Every session of a predicate is closed. -/
def State.closeSessions (s : State) (p : SessState → Bool) : State :=
  ((s.serve.sessions.filter (fun e => p e.2)).map (·.1)).foldl (fun s i => s.closeSess i) s

/-! ## Port resets (R338) -/

/-- A port reset as one function sees it: its letters and their answers are discarded, its requests end without a final
reply, its sessions close, and its tray and buffers are forgotten (R338). -/
def State.fnReset (s : State) (p f : Nat) : State :=
  let mine : LSrc → Bool
    | .host a b _ => a == p && b == f
    | .mgmt _ => false
  let s := (s.reqsOf (fun r => r.p == p && r.f == f)).foldl (fun s id => s.dropReq id) s
  let s := s.setFn p f {}
  let s := s.closeSessions (fun q => q.p == p && q.f == f)
  { s with
    letters := s.letters.filter (fun q => !mine q.src)
    works := s.works.map (fun w => if w.p == p && w.f == f then { w with mute := true } else w)
    sec := { s.sec with
      sig := s.sec.sig.map (fun j => if mine j.src then { j with mute := true } else j)
      sigQ := s.sec.sigQ.filter (fun j => !mine j.src)
      unlock := s.sec.unlock.filter (fun j => !mine j)
      activate := s.sec.activate.filter (fun j => !mine j) } }

/-- PORT_RESET: every function of the port; with PERST, a hot reset or a link-down its link is down as well (R338, R506). -/
def execPortReset (p : Nat) (cause : PortCause) (s : State) : Out :=
  atUnit "host port" p 2 <|
    let s := (List.range 32).foldl (fun s f => s.fnReset p f) s
    let down : Bool := cause == .perst || cause == .hot || cause == .linkDown
    let s := if down then { s with hostPorts := tset s.hostPorts p {} } else s
    if cause = .perst then { s with board := { s.board with perstN := tset s.board.perstN p false } } else s

/-- VF_FLR: the same for one VF alone (R338). -/
def execVfFlr (p f : Nat) (s : State) : Out :=
  if f = 0 then .fault (.noSuchUnit "virtual function" 0) else atFn p f (s.fnReset p f)

/-- PERST_RELEASE: the port may train its PCIe link (R506). -/
def execPerstRelease (p : Nat) (s : State) : Out :=
  atUnit "host port" p 2 { s with board := { s.board with perstN := tset s.board.perstN p true } }

/-- PCIE_LINK_UP: the link has trained, at a rate and width that PORT_LINK then reports; only after the release of PERSTn_N
and step 5 of the start (R321, R506). -/
def execPcieLinkUp (p rate width : Nat) (flit : Bool) (s : State) : Out :=
  atUnit "host port" p 2 <|
    if tget false s.board.perstN p ∧ s.board.stage ≥ 5 ∧ 1 ≤ rate ∧ rate ≤ 7
        ∧ [1, 2, 4, 8, 16].contains width then
      { s with hostPorts := tset s.hostPorts p { up := true, rate := rate, width := width, flit := flit } }
    else s

/-! ## Stamps read back (R333, R334) -/

/-- An entry is given back: its output bytes may be used again, and a request whose final reply it held is forgotten
(R364, R367). -/
def State.giveBack (s : State) (u : Option (Nat × (Nat × Nat) × Bool)) : State :=
  match u with
  | none => s
  | some (id, span, final) =>
    match s.req id with
    | none => s
    | some r =>
      if final then s.setServe { s.serve with reqs := tdel s.serve.reqs id }
      else (s.setReq id { r with outUsed := r.outUsed.erase span }).sealReq id

/-- One stamp read as zero: an entry becomes known to be free. -/
def State.stampZero (s : State) (p f : Nat) : State :=
  let x := s.fn p f
  match x.tray with
  | none => s
  | some t =>
    if t.virgin > 0 then s.setFn p f { x with tray := some { t with virgin := t.virgin - 1, ahead := t.ahead + 1, full := false } }
    else
      match t.used with
      | [] => s
      | u :: rest =>
        (s.setFn p f { x with tray := some { t with used := rest, ahead := t.ahead + 1, full := false } }).giveBack u

/-- Stamps read in order, up to the first that is not zero; the tray is full when that is the next entry's (R333, R334). -/
def State.stampsRead (s : State) (p f : Nat) (zero : List Bool) : State :=
  let k := ((zero.take 16).takeWhile id).length
  let s := (List.range k).foldl (fun s _ => s.stampZero p f) s
  let x := s.fn p f
  let s := match x.tray with
    | some t => if k < zero.length ∧ k < 16 ∧ t.ahead = 0 then s.setFn p f { x with tray := some { t with full := true } } else s
    | none => s
  s.flushTray p f

/-- TRAY_STAMP_READ: a read-ahead of 16 stamps completes; `zero` tells which of the entries after those known to be free
read as zero (R333). -/
def execTrayStampRead (p f : Nat) (zero : List Bool) (s : State) : Out := atFn p f (s.stampsRead p f zero)

/-- TRAY_FULL_REREAD: every 10 µs the stamps of a full tray are read again (R334). -/
def execTrayFullReread (p f : Nat) (zero : List Bool) (s : State) : Out :=
  atFn p f (match (s.fn p f).tray with
    | some t => if t.full then s.stampsRead p f zero else s
    | none => s)

end Sys2Proof.Machine
end

