-- ==== Sys2Proof/Machine/Budget.lean ====
section
/-! DEFINITION. The readings of the housekeeping round as quantities, the fields of a capability block, and the division of the
power cap (R280, R440, R454). -/
namespace Sys2Proof.Machine

/-- Power and thermal state of a die: 0–11 the die of a site, 12–15 a field die. -/
def State.pd (s : State) (d : Nat) : PowerDie := tget {} s.pwr.dies d
/-- Replace it. -/
def State.setPd (s : State) (d : Nat) (x : PowerDie) : State := { s with pwr := { s.pwr with dies := tset s.pwr.dies d x } }

/-! ## Readings (R440) -/

/-- Calibrated value of a channel in the last completed round; none where it gave no reading. -/
def State.chan (s : State) (c : Nat) : Option Int := tfind s.pwr.vals c
/-- The same as a number, zero where there is none. -/
def State.chanN (s : State) (c : Nat) : Nat := ((s.chan c).getD 0).toNat

/-- Input power in mW: channel 410 in µV times channel 471 in mA (R440). -/
def State.inputMw (s : State) : Nat := s.chanN 410 * s.chanN 471 / 1000000

/-- Power of a site in mW: its VCOMP and VSRAM currents times the 6.8 V bus voltage of its quadrant (R440). -/
def State.siteMw (s : State) (n : Nat) : Nat := (s.chanN (435 + n) + s.chanN (447 + n)) * s.chanN (406 + n / 3) / 1000000

/-! ## Capability blocks (R280) -/

/-- Partition of a site (R23). -/
def State.partOfSite (s : State) (n : Nat) : Nat := s.partOfDie (n / 3)
/-- ATTACH of a block. -/
def cbAttach (b : Bytes) : Nat := rd b 96 4
/-- ISSUES of a block. -/
def cbIssues (b : Bytes) : Nat := rdb b 101
/-- OUTSTANDING of a block. -/
def cbOutstanding (b : Bytes) : Nat := rd b 102 2
/-- P_MIN of a block. -/
def cbPmin (b : Bytes) : Nat := rd b 104 2
/-- P_MAX of a block. -/
def cbPmax (b : Bytes) : Nat := rd b 106 2

/-- Number of ones in the low n bits. -/
def ones (n v : Nat) : Nat := ((List.range n).filter (fun i => nbit v i)).length


/-! ## The division of the cap (R454); powers in units of 0.125 W -/

/-- Sites whose dies are UP. -/
def State.upSites (s : State) : List Nat := (List.range 12).filter (fun n => (s.site n).mode == .up)
/-- Floor of a site: P_MIN, 35 W for a Varoft compute die. -/
def State.floorOf (s : State) (n : Nat) : Nat := 8 * (if s.guestSite n then cbPmin (s.site n).block else 35)
/-- P_MAX of a site: 240 W for a Varoft compute die. -/
def State.pmaxOf (s : State) (n : Nat) : Nat := 8 * (if s.guestSite n then cbPmax (s.site n).block else 240)
/-- A site's power over the last round. -/
def State.drawOf (s : State) (n : Nat) : Nat := s.siteMw n / 125
/-- The compute allowance A, rounded down to 0.125 W. -/
def State.allowance (s : State) (cap : Nat) : Int :=
  let m : Int := (s.inputMw : Int) - ((s.upSites.map s.siteMw).sum : Nat)
  ((cap : Int) * 970 - m) / 125
/-- Sum of the floors. -/
def State.floors (s : State) : Nat := (s.upSites.map s.floorOf).sum
/-- A demanding site: it drew at least 95% of its budget, or sent a REQUEST. -/
def State.demanding (s : State) (n : Nat) : Bool :=
  decide (s.drawOf n * 100 ≥ (s.pd n).share * 95) || (s.pd n).request != 0

/-- Exact shares of a division of the allowance (R454 steps 3–5). -/
def State.sharesQ (s : State) (a : Int) (demand : Nat → Bool) : Tbl Rat :=
  let up := s.upSites
  let idle (n : Nat) : Nat := min (s.pmaxOf n) (max (s.floorOf n) (s.drawOf n * 11 / 10))
  let rest := (a - s.floors - (((up.filter (fun n => !demand n)).map (fun n => idle n - s.floorOf n)).sum : Nat)).toNat
  let span (n : Nat) : Nat := s.pmaxOf n - s.floorOf n
  let total := ((up.filter demand).map span).sum
  up.map (fun n =>
    let w : Rat := if demand n then min (s.pmaxOf n : Rat) ((s.floorOf n : Rat) + ((rest * span n : Nat) : Rat) / (max 1 total : Nat)) else (idle n : Nat)
    (n, max (s.floorOf n : Rat) (w - (((s.pd n).cut * span n : Nat) : Rat) / 10)))

/-- The shares, rounded down to 0.125 W (log 63). -/
def State.shares (s : State) (a : Int) (demand : Nat → Bool) : Tbl Nat :=
  (s.sharesQ a demand).map (fun e => (e.1, e.2.floor.toNat))

end Sys2Proof.Machine
end

