-- ==== Sys2Proof/Machine/Capacity.lean ====
section
/-! DEFINITION. Predicted step times, the sustainable clock, reserves and the check of R397 (R381, R382, R396, R397, R460).
Times are exact rational numbers of nanoseconds. -/
namespace Sys2Proof.Machine

/-! ## The serving profile (R419) -/

/-- W of a manifest. -/
def pfW (m : Bytes) : Nat := rd m 8 8
/-- LAYERS. -/
def pfLayers (m : Bytes) : Nat := rd m 16 2
/-- HKV. -/
def pfHkv (m : Bytes) : Nat := rdb m 18
/-- Bytes of an element of the KV format: 1 for the 8-bit formats, codes 0 and 1, 2 for the others (R185, R192). -/
def pfE (m : Bytes) : Nat := if rdb m 19 ≤ 1 then 1 else 2
/-- DIM. -/
def pfDim (m : Bytes) : Nat := rd m 20 2
/-- SEL. -/
def pfSel (m : Bytes) : Nat := rd m 22 2
/-- VOCAB. -/
def pfVocab (m : Bytes) : Nat := rd m 32 4
/-- MACs per array per ACLK of CLASS (R25). -/
def pfMacs (m : Bytes) : Nat := if rdb m 44 = 0 then 1024 else if rdb m 44 = 1 then 512 else 256
/-- F. -/
def pfF (m : Bytes) : Nat := rd m 112 8
/-- W_SOWN. -/
def pfSown (m : Bytes) : Nat := rd m 120 8

/-- Tokens of a KV page by PSIZE (R356). -/
def pageTokens (psize : Nat) : Nat := 32 * 2 ^ psize

/-- S(L): bytes that a step reads for a sequence of L tokens (R396). -/
def stepSeqBytes (m : Bytes) (pt l : Nat) : Nat :=
  let n := (l + pt - 1) / pt
  let ns := l / pt
  pfLayers m * pfHkv m * (4 * pfDim m * ns + 8 * n + 2 * pt * pfDim m * pfE m * min n (pfSel m) + 2 * pfDim m * pfE m)

/-- Bytes of pages, summaries and page list of a sequence of L tokens (R185, R186, R385). -/
def kvSeqBytes (m : Bytes) (pt l : Nat) : Nat :=
  let n := (l + pt - 1) / pt
  let ns := l / pt
  pfLayers m * (pfHkv m * (2 * pt * pfDim m * pfE m * n + 4 * pfDim m * ns) + 8 * n)

/-- Mean of a quantity over a mix of (CONTEXT_TOKENS, SHARE in parts per 10,000). -/
def mixMean (f : Nat → Nat) (mix : List (Nat × Nat)) : Rat := (((mix.map (fun e => e.2 * f e.1)).sum : Nat) : Rat) / 10000

/-! ## The partition as it stands (R396, R460) -/

/-- Stacks of a partition. -/
def State.stacksOf (s : State) (p : Nat) : List Nat := (List.range 12).filter (fun k => s.partOfDie (k / 3) == p)
/-- Varoft sites of a partition that are UP. -/
def State.coreSites (s : State) (p : Nat) : List Nat :=
  (List.range 12).filter (fun n => s.partOfSite n == p && !s.guestSite n && (s.site n).mode == .up)
/-- Strongest throttling of a stack: 0, 1 or 2 (R155, R445, R454). -/
def StackState.throttle (x : StackState) : Nat := max x.thrStack (max x.thrDie x.thrPower)
/-- Highest refresh step among the partition's stacks. -/
def State.topRefresh (s : State) (p : Nat) : Nat := ((s.stacksOf p).map (fun k => (s.stack k).refresh)).foldl max 1
/-- Strongest throttling among them. -/
def State.topThrottle (s : State) (p : Nat) : Nat := ((s.stacksOf p).map (fun k => (s.stack k).throttle)).foldl max 0
/-- 0.91 × f_ref × f_thr. -/
def State.efficiency (s : State) (p : Nat) : Rat :=
  (91 / 100 : Rat) * (if s.topRefresh p ≤ 1 then 97 / 100 else if s.topRefresh p = 2 then 94 / 100 else 88 / 100)
    * (if s.topThrottle p = 0 then 1 else if s.topThrottle p = 1 then 1 / 2 else 1 / 4)
/-- 29.4912 TB/s ÷ LAYOUT, in bytes per ns. -/
def State.pinRate (s : State) : Rat := (294912 / 10 : Rat) / s.dev.layout

/-- Sum of WIDTH over the arrays of a list of sites. -/
def State.widthSum (s : State) (l : List Nat) : Nat :=
  (l.map (fun n => 672 * 16 - ((s.dev.badCols.filter (fun e => e.1 / 672 == n)).map (fun e => 16 - min 16 (17 - e.2.length))).sum)).sum

/-- Sustainable clock of a compute die in kHz at a share in 0.125 W: the highest ratio that fits, at most the plan's, or the duty
cycle at 8/16 (R455, R460). -/
def State.dieSus (s : State) (n share : Nat) : Nat :=
  match ((List.range 17).filter (fun r => decide (8 ≤ r ∧ r ≤ (s.pd n).planMax) && decide (Config.ratioPower n r ≤ share))).getLast? with
  | some r => 140625 * r
  | none =>
    let idle := Config.ratioPower n 0
    1125000 * (share - idle) / max 1 (Config.ratioPower n 8 - idle)

/-- ACLK_SUS of a partition in kHz: with every site demanding, what every compute site sustains; 0 without one (R460). -/
def State.aclkSus (s : State) (p : Nat) : Nat :=
  let sh := s.shares (s.allowance s.pwr.cap) (fun _ => true)
  match (s.coreSites p).map (fun n => s.dieSus n (tget 0 sh n)) with
  | [] => 0
  | x :: l => l.foldl min x

/-- Compute allowance of a partition's sites with every site demanding, in W (R460). -/
def State.budgetW (s : State) (p : Nat) : Nat :=
  let sh := s.sharesQ (s.allowance s.pwr.cap) (fun _ => true)
  ((sh.filter (fun e => s.partOfSite e.1 == p)).foldl (fun a e => a + e.2) (0 : Rat) / 8).floor.toNat

/-! ## t(B) (R396) -/

/-- t(B) of a model on a partition with S_mix; none where no compute clock runs the model's array work. -/
def State.stepTime (s : State) (p : Nat) (m : Bytes) (smix : Rat) (b : Nat) : Option Rat :=
  let sites := s.coreSites p
  let khz : Rat := s.aclkSus p
  let psus : Rat := 2 * pfMacs m * ((s.widthSum sites : Rat) / 16) * khz / 1000000
  let sown : Rat := (168 * sites.length : Nat) * 32 * khz / 1000000
  let mem : Rat := ((pfW m : Rat) + b * smix) / (s.pinRate * s.efficiency p)
  if psus ≤ 0 then (if pfF m = 0 ∧ pfSown m = 0 ∨ b = 0 then some mem else none)
  else
    let mac : Rat := (b * pfF m : Nat) / ((9 / 10 : Rat) * psus)
    let sow : Rat := (pfSown m * ((b + 63) / 64) : Nat) / sown
    some (max mem (max mac sow))

/-! ## Reserves (R381, R382, R388) -/

/-- RATE, ITL_US and FLAGS of contract bytes. -/
def ctRate (b : Bytes) : Nat := rd b 0 4
/-- TTFT_US. -/
def ctTtft (b : Bytes) : Nat := rd b 4 4
/-- ITL_US. -/
def ctItl (b : Bytes) : Nat := rd b 12 4
/-- Any contract target. -/
def ctAny (b : Bytes) : Bool := ctRate b != 0 || ctTtft b != 0 || ctItl b != 0

/-- Contexts of a partition that may run: those not suspended (R375, R382). -/
def State.ctxsOf (s : State) (p : Nat) : List Nat := (s.ctxs.filter (fun e => e.2.part == p && !e.2.suspended)).map (·.1)

/-- Smallest ITL target among contexts, in ns, or 20 ms (R381). -/
def minItl (l : List Bytes) : Nat :=
  match (l.map ctItl).filter (· != 0) with
  | [] => 20000000
  | x :: t => 1000 * t.foldl min x

/-- S_mix of a context: its declared mix, or every sequence at MAX_TOKENS (R388). -/
def State.ctxMix (s : State) (c : Nat) : List (Nat × Nat) :=
  let mix := (s.mctx c).mix
  if mix = [] then [((s.ctx c).maxTokens, 10000)] else mix

/-- Predicted time of a step of context c with B decoding sequences of its declared mix. -/
def State.ctxStepTime (s : State) (c b : Nat) : Option Rat :=
  let m := s.manifest c
  s.stepTime (s.ctx c).part m (mixMean (stepSeqBytes m (pageTokens (s.ctx c).psize)) (s.ctxMix c)) b

/-- The least whole number at or above a rational. -/
def ceilNat (q : Rat) : Nat := q.ceil.toNat

/-- Reserve of a context under contract bytes in rounds of L ns (R382); none where its rate cannot be met at all. -/
def State.reserve (s : State) (c : Nat) (ct : Bytes) (l : Nat) : Option Rat :=
  if ctRate ct = 0 then some 0 else s.ctxStepTime c (ceilNat ((ctRate ct : Rat) * (95 / 100) * l / 1000000000))

/-- Switch costs of n contexts (R382). -/
def switchCost (n : Nat) : Nat := if n ≥ 2 then 35000 * n else 0

/-- Sum of optional quantities. -/
def sumOpt : List (Option Rat) → Option Rat
  | [] => some 0
  | none :: _ => none
  | some x :: t => (sumOpt t).map (x + ·)

/-- Reserves and switch costs of contexts under given contracts, in rounds of L ns. -/
def State.needs (s : State) (l : List (Nat × Bytes)) (itl : Nat) : Option Rat :=
  (sumOpt (l.map (fun e => s.reserve e.1 e.2 itl))).map (· + (switchCost l.length : Nat))

/-- Contracts of the contexts of a partition that may run. -/
def State.contracts (s : State) (p : Nat) : List (Nat × Bytes) := (s.ctxsOf p).map (fun c => (c, (s.mctx c).contract))

/-- What the reserves and switch costs of contracts exceed D by, in ns; a rate that cannot be met counts as the round's L. -/
def State.overD (s : State) (l : List (Nat × Bytes)) : Rat :=
  let itl := minItl (l.map (·.2))
  match s.needs l itl with
  | some t => t - (9 / 10 : Rat) * itl
  | none => itl

/-- The reserves of a partition are recomputed; when they exceed D, CAPACITY_SHORT is logged, which goes as an EVENT (R397). -/
def State.recheckPart (s : State) (p : Nat) : State :=
  let ovr := s.overD (s.contracts p)
  if ovr > 0 then
    s.post { mkMsg 0x0604 (uid 0x0D 0) 0 (le 4 (ceilNat (ovr / 1000))) with part := p }
  else s

/-- The same for every partition of the layout that holds a context. -/
def State.recheck (s : State) : State :=
  ((List.range s.dev.layout).filter (fun p => (s.ctxsOf p) != [])).foldl (fun s p => s.recheckPart p) s

end Sys2Proof.Machine
end

