-- ==== Sys2Proof/Machine/Links.lean ====
section
/-! DEFINITION. Scale-up ports: training, flits and retry, loss and fencing, and the remote accesses that arrive (chapter
12). -/
namespace Sys2Proof.Machine

/-! ## State changes of a port (R306–R310, R317, R318) -/

/-- STATE of LINK_STATUS (R319). -/
def PortMode.code : PortMode → Nat
  | .disabled => 0
  | .training => 1
  | .up => 2
  | .retraining => 3
  | .down => 4

/-- Each change of state or width is logged with STATE, WIDTH and the cause (R309, R493). -/
def State.logPort (s : State) (l : Nat) : State :=
  let p := s.port l
  s.logAt 0x0405 (uidPort l) 0 [BitVec.ofNat 8 p.mode.code, BitVec.ofNat 8 p.width, p.cause]

/-- One message on crossing the minimum of UP ports in either direction (R318). -/
def State.minCheck (s : State) : State :=
  let n := s.upPorts.length
  let b := decide (n < s.links.minPorts)
  if b = s.links.below then s
  else ({ s with links := { s.links with below := b } } : State).logAt 0x0407 (uid 0x0E 0) 0 [BitVec.ofNat 8 n, BitVec.ofNat 8 s.links.minPorts]

/-- After a change of a port's state or width: log it, rewrite the selection table, check the minimum, and recompute the
reserves while a multi-module context exists (R397). -/
def State.portChanged (s : State) (l : Nat) : State :=
  let s := ((s.logPort l).reselect).minCheck
  if s.ctxs.any (fun c => c.2.multi) then s.recheck else s

/-- The descriptors of an agent whose requests a port could not complete end with a status of R125. -/
def State.descFail (s : State) (iss : Issuer) (code : Nat) : State :=
  let e := if bf iss.unit 31 24 = 0x08 then EngRef.hdma (bf iss.unit 15 0) else .cdma (bf iss.unit 15 0)
  if bf iss.unit 31 24 = 0x08 ∨ bf iss.unit 31 24 = 0x03 then
    let x := s.eng e
    s.setEng e { x with running := x.running.map (fun r =>
      if r.slot = iss.slot ∧ (r.status.isNone ∨ r.status = some 0 ∨ r.status = some 3) then
        { r with status := some (codeStatus code), code := max r.code code } else r) }
  else s

/-- The issuer of remote requests whose agent was reset: their answers are absorbed (R477). -/
def orphanUnit : W32 := uid 0xFF 0

/-- A request that a port sent ends with a code of R262: a READ's answer waits for its agent, a write or a circular of a
transfer engine fails its descriptor, and a forwarded one is answered to the port it came from. -/
def State.remoteEnd (s : State) (r : RemoteReq) (code : Nat) (poison : Bool) (data : Bytes) : State :=
  match r.fwd with
  | some (l, tag) =>
    let typ := if r.typ = 1 then 8 else if r.typ = 4 then 0xA else 9
    if typ = 9 then s.sendRec l { hdr := recOf 8 [(0, 1, 9), (1, 1, code), (2, 2, tag), (4, 1, r.dev), (5, 1, (s.port l).partner)] }
    else s.sendRec l { hdr := recHdr typ (4 * b2n poison) tag r.dev (s.port l).partner 0 code data.length 0 0 0, data := data }
  | none =>
    match r.pkt with
    | some (i, tag) =>
      let x := tget {} s.netIf i
      { s with netIf := tset s.netIf i { x with inbox := x.inbox ++
        [{ typ := if r.typ = 1 then 8 else 9, tag := BitVec.ofNat 12 tag, poison := poison, code := BitVec.ofNat 8 code, data := data }] } }
    | none =>
    if r.iss.unit = orphanUnit then s
    else if r.typ = 1 then
      { s with links := { s.links with answers := s.links.answers ++ [{ req := r, code := code, poison := poison, data := data }] } }
    else if code = 0 then s
    else s.descFail r.iss code

/-- Every request outstanding on a port that satisfies `q` completes with status 0x05 (R309, R317). -/
def State.failReqs (s : State) (l : Nat) (q : RemoteReq → Bool) : State :=
  let p := s.port l
  (p.reqs.filter q).foldl (fun s r => s.remoteEnd r 5 false []) (s.setPort l { p with reqs := p.reqs.filter (fun r => !q r) })

/-- Partitions of the contexts that span a device (R317). -/
def State.peerContexts (s : State) (dev : Nat) : List (Nat × CtxState) := s.ctxs.filter (fun c => c.2.peers.getLsbD dev)

/-- Fence a partner (R317): outstanding requests to it complete with 0x05, and each context that spans it takes an
uncorrectable fault in its partition. -/
def State.fence (s : State) (dev : Nat) : State :=
  if s.links.fenced.contains dev ∨ dev ≥ 255 then s
  else
    let s := { s with links := { s.links with fenced := s.links.fenced ++ [dev], greeted := s.links.greeted.filter (· != dev) } }
    let s := (List.range 16).foldl (fun s l => s.failReqs l (fun r => r.dev == dev)) s
    let s := s.logAt 0x0406 (uid 0x0E 0) 0 [BitVec.ofNat 8 dev]
    ((s.peerContexts dev).map (fun c => c.2.part)).eraseDups.foldl (fun s p => s.reportPart p 0x0406) s

/-- A port goes DOWN (R309): its requests end with 0x05, its queued circulars with them; it leaves its group; PORT_DOWN goes
to every other live port; a partner whose last UP port this was is fenced (R317). -/
def State.portDown (s : State) (l cause : Nat) : State :=
  let p := s.port l
  if p.mode = .down ∨ p.mode = .disabled then s
  else
    let was := p.mode = .up ∨ p.mode = .retraining
    let partner := p.partner
    let s := s.failReqs l (fun _ => true)
    let p := s.port l
    let others := s.upPorts.filter (· != l)
    let s := s.setPort l { p with
      mode := .down, width := 0, lanes := 0, cause := BitVec.ofNat 8 cause, since := s.time, signal := false
      txSeq := 0, rxSeq := 0, nak := false, replay := [], rxBytes := [], rxQ := [], rxEx := [], credits := [], txQ := [], txEx := []
      pdSent := others != [] }
    let e := expressEntry 3 s.links.device partner [BitVec.ofNat 8 p.partnerPort, BitVec.ofNat 8 cause]
    let s := if partner = 0xFF then s else others.foldl (fun s o => s.sendExpress o e) s
    let s := s.portChanged l
    if was && partner != 0xFF && !(s.upPorts.any (fun o => (s.port o).partner == partner)) then s.fence partner else s

/-- SIGNAL_DETECT (R306): training begins, and the HELLO of its step 4 leaves. -/
def execSignalDetect (l : Nat) (s : State) : Out :=
  atUnit "scale-up port" l 16 <|
    let p := s.port l
    match p.mode with
    | .training | .retraining =>
      if p.signal then s
      else
        let lanes : BitVec 8 := ~~~p.unused
        (s.setPort l { p with signal := true }).emit (.hello l s.links.device p.group lanes s.links.ownInc)
    | _ => s

/-- Is a fence of a device due to be lifted: its fault handling has ended (R317). -/
def State.fenceDone (s : State) (dev : Nat) : Bool :=
  (s.peerContexts dev).all (fun c => (s.part c.2.part).phase == .none && (s.part c.2.part).reports.all (fun r => r.1 != 0x0406))

/-- Fences are lifted of the devices that have sent a HELLO since and whose fault handling has ended (R317). -/
def State.liftFences (s : State) : State :=
  let off (d : Nat) : Bool := s.links.greeted.contains d && s.fenceDone d
  { s with links := { s.links with fenced := s.links.fenced.filter (fun d => !off d), greeted := s.links.greeted.filter (fun d => !off d) } }

/-- HELLO (R307, R308): the lanes good at both ends give the width; the port comes UP, resuming replay when it is the same
partner and incarnation within a retraining, starting at SEQ 0 otherwise. No good lane, or the device's own number, makes it
DOWN. -/
def State.hello (s : State) (l device port : Nat) (mine theirs : BitVec 8) (inc : W32) : State :=
  let p := s.port l
  if p.mode ≠ .training ∧ p.mode ≠ .retraining ∨ !p.signal then s
  else
    let good := mine &&& theirs &&& ~~~p.unused
    let n := ((List.range 8).filter (fun i => good.getLsbD i)).length
    if device = s.links.device ∧ device ≠ 0xFF then s.portDown l 3
    else if n = 0 then s.portDown l (if mine &&& theirs = 0 then 2 else 7)
    else
      let resume := p.mode = .retraining && p.partner == device && p.partnerPort == port && p.inc == inc
      let s := if p.mode = .retraining && !resume then s.failReqs l (fun _ => true) else s
      let p := s.port l
      let p := { p with mode := .up, width := widthOf n, lanes := good, partner := device, partnerPort := port, inc := inc
                        cause := 0, pdSent := false, since := s.time }
      let p := if resume then p
        else { p with txSeq := 0, rxSeq := 0, nak := false, replay := [], rxBytes := [], rxQ := [], rxEx := [], credits := [] }
      let s := (s.setPort l p).portChanged l
      let s := if s.links.fenced.contains device then
          State.liftFences { s with links := { s.links with greeted := s.links.greeted ++ [device] } } else s
      let s := if resume then s
        else (List.range 9).foldl (fun s q =>
          s.sendRec l { hdr := recOf 8 [(0, 1, 0x0C), (1, 1, q), (2, 2, (Config.linkUnits q).toNat)] }) s
      let s := if resume then
          p.replay.foldl (fun s f => s.emit (.linkFlit l (flitOf (b2n f.express) f.seq (p.rxSeq - 1) p.nak f.body))) s
        else s
      State.pump (p.txQ.length + p.txEx.length + 1) s l

/-- HELLO (R307). -/
def execHello (l device port _group : Nat) (mine theirs : BitVec 8) (inc : W32) (s : State) : Out :=
  atUnit "scale-up port" l 16 (s.hello l (device % 256) (port % 256) mine theirs inc)

/-- PORT_RETRY (R306, R309): a port without a partner, or DOWN, trains again. -/
def execPortRetry (l : Nat) (s : State) : Out :=
  atUnit "scale-up port" l 16 <|
    let p := s.port l
    if p.mode = .down then (s.setPort l { p with mode := .training, signal := false }).portChanged l
    else if p.mode = .training then s.setPort l { p with signal := false }
    else s

/-! ## Flits (R300–R304) -/

/-- Length of the record at the head of a byte stream, when its header is whole: a TYPE of padding ends the body. -/
def recLen (bs : Bytes) : Option Nat :=
  match bs with
  | [] => none
  | t :: _ =>
    match t.toNat with
    | 0x09 | 0x0C => some 8
    | 0x01 => some 32
    | _ => if bs.length ≥ 32 then some (32 + rd bs 8 2) else none

/-- Take whole records from a byte stream; what is left, and the records. -/
def takeRecs : Nat → Bytes → Bytes × List LinkRec
  | 0, bs => (bs, [])
  | n + 1, bs =>
    if bs.all (· == 0) then ([], [])
    else if rdb bs 0 = 0 then ([], [])
    else
      match recLen bs with
      | none => (bs, [])
      | some k =>
        if bs.length < k then (bs, [])
        else
          let hl := min k 32
          let (rest, rs) := takeRecs n (bs.drop k)
          (rest, { hdr := bs.take hl, data := (bs.take k).drop hl } :: rs)

/-- The six express entries of a body (R304). -/
def expressEntries (body : Bytes) : List Bytes := (List.range 6).map (fun i => slice body (40 * i) 40)

/-- An ACK covers every flit in the replay buffer up to and including its SEQ (R303). -/
def dropAcked (ack : BitVec 12) (r : List SentFlit) : List SentFlit :=
  match r with
  | [] => []
  | f :: _ => let n := (ack - f.seq).toNat + 1; if n ≤ r.length then r.drop n else r

/-- Express entries as received: empty ones are skipped, one of a reserved KIND is discarded and logged. -/
def State.takeExpress (s : State) (l : Nat) (body : Bytes) : State :=
  (expressEntries body).foldl (fun s e =>
    match rdb e 0 with
    | 0 => s
    | 1 | 2 | 3 => let p := s.port l; s.setPort l { p with rxEx := p.rxEx ++ [e] }
    | k => s.logAt 0x0304 (uidPort l) 0 [0xFF, BitVec.ofNat 8 k]) s

/-- Send every flit of the replay buffer again, in order. -/
def State.resend (s : State) (l : Nat) : State :=
  let p := s.port l
  let s := s.setPort l { p with replays := satAdd p.replays 1 }
  p.replay.foldl (fun s f => s.emit (.linkFlit l (flitOf (b2n f.express) f.seq (p.rxSeq - 1) p.nak f.body))) s

/-- LINK_FLIT (R300, R303): a good flit's ACK and NAK act on the replay buffer; a bulk or express flit in SEQ order is
accepted, and answered in the next flit sent; any other sets NAK. `bad` tells that it overlaps an uncorrected codeword. -/
def State.linkFlit (s : State) (l : Nat) (flit : Bytes) (bad : Bool) : State :=
  let p := s.port l
  if p.mode ≠ .up then s
  else if bad || flit.length != 256 || rd flit 252 4 != crc32c (flit.take 252) then
    let p := { p with nak := true, fecUnfixed := if bad then satAdd p.fecUnfixed 1 else p.fecUnfixed }
    (s.setPort l p).emit (.linkFlit l (flitOf 2 0 (p.rxSeq - 1) true (zeros 248)))
  else
    let h := rd flit 0 4
    let kind := nf h 31 30
    let seq := BitVec.ofNat 12 (nf h 29 18)
    let p := { p with replay := dropAcked (BitVec.ofNat 12 (nf h 17 6)) p.replay }
    let s := s.setPort l p
    let s := if nbit h 5 then s.resend l else s
    let s :=
      if kind ≥ 2 then s
      else
        let p := s.port l
        if seq ≠ p.rxSeq then
          (s.setPort l { p with nak := true }).emit (.linkFlit l (flitOf 2 0 (p.rxSeq - 1) true (zeros 248)))
        else
          let body := (flit.drop 4).take 248
          let p := { p with rxSeq := p.rxSeq + 1, nak := false }
          let s :=
            if kind = 1 then (s.setPort l p).takeExpress l body
            else
              let (rest, rs) := takeRecs 32 (p.rxBytes ++ body)
              let n := (rs.map (fun r => r.data.length)).foldl (· + ·) 0
              s.setPort l { p with rxBytes := rest, rxQ := p.rxQ ++ rs, bytesIn := satAdd p.bytesIn n }
          s.emit (.linkFlit l (flitOf 2 0 seq false (zeros 248)))
    let p := s.port l
    State.pump (p.txQ.length + p.txEx.length + 1) s l

/-- LINK_FLIT (R303). -/
def execLinkFlit (l : Nat) (flit : Bytes) (bad : Bool) (s : State) : Out :=
  atUnit "scale-up port" l 16 (s.linkFlit l flit bad)

/-- LINK_LOSS (R308): the port enters RETRAINING, keeping its replay buffer; unsent packets go to other ports of its group
that are UP. -/
def State.linkLoss (s : State) (l : Nat) : State :=
  let p := s.port l
  if p.mode ≠ .up then s
  else
    let s := (s.setPort l { p with mode := .retraining, width := 0, signal := false, since := s.time, retrains := satAdd p.retrains 1 }).portChanged l
    let p := s.port l
    match s.upPorts.find? (fun o => (s.port o).group == p.group && (s.port o).partner == p.partner) with
    | none => s
    | some o =>
      let mv := p.txQ.filter (fun r => r.2.cls = 0)
      mv.foldl (fun s r =>
        let tag := rd r.2.hdr 2 2
        match p.reqs.find? (fun q => q.tag == tag), (s.port o).freeTag with
        | some q, some t =>
          let a := s.port l
          let s := s.setPort l { a with txQ := a.txQ.erase r, reqs := a.reqs.erase q }
          let b := s.port o
          (s.setPort o { b with reqs := b.reqs ++ [{ q with tag := t }] }).sendRec o { r.2 with hdr := putBytes r.2.hdr 2 (le 2 t) }
        | _, _ => s) s

/-- LINK_LOSS (R308). -/
def execLinkLoss (l : Nat) (s : State) : Out := atUnit "scale-up port" l 16 (s.linkLoss l)

/-- RETRAIN_TIMEOUT (R308): 10 ms after it entered RETRAINING the port is DOWN. -/
def execRetrainTimeout (l : Nat) (s : State) : Out :=
  atUnit "scale-up port" l 16 (if (s.port l).mode = .retraining then s.portDown l 4 else s)

/-! ## Express entries (R304, R309, R312, R315–R317) -/

/-- The oldest express entry of a KIND that a port received, taken from its queue. -/
def State.takeEx (s : State) (l kind : Nat) : Option Bytes × State :=
  let p := s.port l
  match p.rxEx.find? (fun e => rdb e 0 == kind) with
  | some e => (some e, s.setPort l { p with rxEx := p.rxEx.erase e })
  | none => (none, s)

/-- PORT_DOWN_RECEIVED (R309): the port of this device that the entry names goes DOWN; one for another device is forwarded
(R312). -/
def State.portDownReceived (s : State) (l : Nat) : State :=
  match s.takeEx l 3 with
  | (none, s) => s
  | (some e, s) =>
    if rdb e 2 = s.links.device then s.portDown (rdb e 8 % 16) 5
    else
      match tfind s.links.fwd (rdb e 2) with
      | none => s
      | some g =>
        match s.upPorts.find? (fun o => (s.port o).group == g) with
        | some o => s.sendExpress o e
        | none => s

/-- PORT_DOWN_RECEIVED (R309). -/
def execPortDownReceived (l : Nat) (s : State) : Out := atUnit "scale-up port" l 16 (s.portDownReceived l)

/-- FAREWELL_RECEIVED (R316, R317): causes 0x01–0x04 fence the partner; 0x05 takes the port down. -/
def State.farewellReceived (s : State) (l : Nat) : State :=
  match s.takeEx l 2 with
  | (none, s) => s
  | (some e, s) =>
    let c := rdb e 8
    if 1 ≤ c ∧ c ≤ 4 then s.fence (rdb e 1) else if c = 5 then s.portDown l 6 else s

/-- FAREWELL_RECEIVED (R317). -/
def execFarewellReceived (l : Nat) (s : State) : Out := atUnit "scale-up port" l 16 (s.farewellReceived l)

/-- EXPRESS_POST (R315): an arrival or a departure reaches post router 3 of the port's field die, from the port. -/
def State.expressPost (s : State) (l : Nat) : State :=
  match s.takeEx l 1 with
  | (none, s) => s
  | (some e, s) =>
    let h := rd e 8 8
    match nf h 63 60 with
    | 1 => s.arrive (l / 4) 3 (Config.postPort l) (nf h 7 0)
    | 2 => s.depart (l / 4) 3 (nf h 7 0)
    | t => s.logAt 0x0304 (uidPort l) 0 [BitVec.ofNat 8 t, 1]

/-- EXPRESS_POST (R315). -/
def execExpressPost (l : Nat) (s : State) : Out := atUnit "scale-up port" l 16 (s.expressPost l)

/-! ## Remote accesses that arrive (R247, R312–R314) -/

/-- Take the oldest received record of a TYPE that satisfies `q`; its credits go back as a CREDIT record (R302). -/
def State.takeRec (s : State) (l typ : Nat) : Option LinkRec × State :=
  let p := s.port l
  match p.rxQ.find? (fun r => rdb r.hdr 0 == typ) with
  | none => (none, s)
  | some r =>
    let s := s.setPort l { p with rxQ := p.rxQ.erase r }
    (some r, if typ = 0x0C then s else s.sendRec l { hdr := recOf 8 [(0, 1, 0x0C), (1, 1, r.cls * 3 + r.hops), (2, 2, 1)] })

/-- Context of an ASID. -/
def State.ctxOfAsid (s : State) (asid : Nat) : Option CtxState := (s.ctxs.find? (fun c => c.2.asid == asid)).map (·.2)

/-- Why a device refuses every remote access, if it does: number unset, farewell sent, sender fenced, self-test running
(R310, R316, R317, R495). -/
def State.remoteShut (s : State) (src : Nat) : Bool := !s.remoteOpen src || s.dev.bist

/-- The window check of R247; FLAGS bit `need` must permit the access. Code 0 with the device virtual address and ASID, 0x05
refused, 0x04 while the partition is in reset (R480). -/
def State.windowCheck (s : State) (src window off len need : Nat) : Nat × Nat × Nat :=
  let w := tget ({} : WindowEnt) s.windows window
  let from_ok := if w.from_ = 0xFF then
      (match s.ctxOfAsid w.asid with
       | some c => c.peers.getLsbD src
       | none => false)
    else w.from_ == src
  if s.remoteShut src || !w.flags.getLsbD 0 || !from_ok || decide (off + len > w.size) || !w.flags.getLsbD need then (5, 0, 0)
  else
    match s.ctxOfAsid w.asid with
    | some c => if (s.part c.part).phase ≠ .none then (4, 0, 0) else (0, w.base + off, w.asid)
    | none => (0, w.base + off, w.asid)

/-- A refused remote access is counted at its port (R247). -/
def State.refuse (s : State) (l : Nat) : State := let p := s.port l; s.setPort l { p with refused := satAdd p.refused 1 }

/-- Issuer of a remote access that arrived on a port: class 4 (R313). -/
def remoteIss (l asid : Nat) : Issuer := { unit := uidPort l, asid := asid, cls := 4 }

/-- Translate for a remote access, page by page; a fault is recorded with the port's identifier and not held (R247). -/
def State.remoteXlate (s : State) (l asid va len acc : Nat) : Option (List (Target × Nat × Nat)) × State :=
  (parts 65536 (len / 65536 + 2) va len).foldl
    (fun (x : Option (List (Target × Nat × Nat)) × State) p =>
      match x.1 with
      | none => x
      | some ts =>
        let d := 12 + l / 4
        match x.2.translate d (uidPort l) (remoteIss l asid) asid p.1 acc false with
        | (.inl c, s) =>
          (none, (s.logCause d asid p.1 c).postFault d { client := uidPort l, asid := asid, va := p.1, cause := c, acc := acc })
        | (.inr t, s) => (some (ts ++ [(t, p.1 - va, p.2)]), s)) (some [], s)

/-- An ACK record (R301). -/
def State.sendAck (s : State) (l code tag dst : Nat) : State :=
  s.sendRec l { hdr := recOf 8 [(0, 1, 9), (1, 1, code), (2, 2, tag), (4, 1, s.links.device), (5, 1, dst)] }

/-- A DATA record (R301). -/
def State.sendData (s : State) (l code tag dst hops : Nat) (bs : PBytes) : State :=
  let pz := bs.any (·.2)
  s.sendRec l { hdr := recHdr 8 (4 * b2n pz + 16 * hops) tag s.links.device dst 0 code bs.length 0 0 0, data := bs.map (·.1) }

/-- Forward a request for another device through the group of the forwarding table, HOPS one more (R312); refused with
0x05 at HOPS 2 or without a group. -/
def State.forward (s : State) (l : Nat) (r : LinkRec) (answer : Nat → State → State) : State :=
  let dst := rdb r.hdr 5
  let refuse (s : State) : State := answer 5 (s.refuse l)
  if r.hops ≥ 2 then refuse s
  else
    match tfind s.links.fwd dst with
    | none => refuse s
    | some g =>
      match s.remotePort g (rd r.hdr 16 8) dst (rdb r.hdr 6) with
      | none => refuse s
      | some o =>
        match (s.port o).freeTag with
        | none => refuse s
        | some t =>
          let q := s.port o
          let req : RemoteReq := { tag := t, typ := rdb r.hdr 0, dev := dst, window := rdb r.hdr 6, off := rd r.hdr 16 8, len := rd r.hdr 8 2,
                                   fwd := some (l, rd r.hdr 2 2) }
          let hdr := putBytes (putBytes r.hdr 1 (le 1 (setNf (rdb r.hdr 1) 5 4 (r.hops + 1)))) 2 (le 2 t)
          (s.setPort o { q with reqs := q.reqs ++ [req] }).sendRec o { r with hdr := hdr }

/-- REMOTE_READ (R313): checked, translated, performed and answered with DATA. -/
def State.serveRead (s : State) (l : Nat) : State :=
  match s.takeRec l 1 with
  | (none, s) => s
  | (some r, s) =>
    let tag := rd r.hdr 2 2
    let src := rdb r.hdr 4
    let answer (c : Nat) (s : State) : State := s.sendData l c tag src 0 []
    if rdb r.hdr 5 ≠ s.links.device then s.forward l r answer
    else
      let len := rd r.hdr 8 2
      match s.windowCheck src (rdb r.hdr 6) (nf (rd r.hdr 16 8) 43 0) len 1 with
      | (0, va, asid) =>
        match s.remoteXlate l asid va len kRead with
        | (none, s) => answer 5 (s.refuse l)
        | (some ts, s) =>
          let (bs, st, s) := ts.foldl (fun (acc : PBytes × MemSt × State) t =>
            let (b, e, s) := acc.2.2.tgtRead (remoteIss l asid) t.1 t.2.2 (some (nf (rdb r.hdr 1) 1 0))
            (acc.1 ++ b, acc.2.1.join e, s)) ([], .ok, s)
          s.sendData l st.code tag src 0 bs
      | (c, _, _) => answer c (s.refuse l)

/-- REMOTE_WRITE (R313): checked, translated, performed and acknowledged. -/
def State.serveWrite (s : State) (l : Nat) : State :=
  match s.takeRec l 2 with
  | (none, s) => s
  | (some r, s) =>
    let tag := rd r.hdr 2 2
    let src := rdb r.hdr 4
    let answer (c : Nat) (s : State) : State := s.sendAck l c tag src
    if rdb r.hdr 5 ≠ s.links.device then s.forward l r answer
    else
      match s.windowCheck src (rdb r.hdr 6) (nf (rd r.hdr 16 8) 43 0) r.data.length 2 with
      | (0, va, asid) =>
        match s.remoteXlate l asid va r.data.length kWrite with
        | (none, s) => answer 5 (s.refuse l)
        | (some ts, s) =>
          let bs := mark (nbit (rdb r.hdr 1) 2) r.data
          let (st, s) := ts.foldl (fun (acc : MemSt × State) t =>
            let (e, s) := acc.2.tgtWrite (remoteIss l asid) t.1 ((bs.drop t.2.1).take t.2.2) (some (nf (rdb r.hdr 1) 1 0))
            (acc.1.join e, s)) (.ok, s)
          s.sendAck l st.code tag src
      | (c, _, _) => answer c (s.refuse l)

/-- Operation of a MEMOP: CODE numbers R157's operations in its order (log 46), FORMAT its element. -/
def memopFn (code fmt v : Nat) : Option (Nat × (Nat → Nat)) :=
  let wide : Option Nat := if fmt = 0x0E then some 4 else if fmt = 0x0F then some 8 else none
  match code with
  | 0 => (addFmt fmt).map (fun x => (x.1, fun o => x.2 o v))
  | _ => wide.bind (fun n =>
      let m (x : Nat) : Nat := x % 2 ^ (8 * n)
      match code with
      | 1 => some (n, fun o => m (o + v))
      | 2 => some (n, fun _ => m v)
      | 3 => some (n, fun o => m (o &&& v))
      | 4 => some (n, fun o => m (o ||| v))
      | 5 => some (n, fun o => m (o ^^^ v))
      | 6 => some (n, fun o => m (minS (8 * n) o v))
      | 7 => some (n, fun o => m (maxS (8 * n) o v))
      | 8 => some (n, fun o => min o (m v))
      | 9 => some (n, fun o => max o (m v))
      | _ => none)

/-- REMOTE_MEMOP (R313): checked, translated, applied by the adders and acknowledged. -/
def State.serveMemop (s : State) (l : Nat) : State :=
  match s.takeRec l 3 with
  | (none, s) => s
  | (some r, s) =>
    let tag := rd r.hdr 2 2
    let src := rdb r.hdr 4
    let answer (c : Nat) (s : State) : State := s.sendAck l c tag src
    if rdb r.hdr 5 ≠ s.links.device then s.forward l r answer
    else
      match memopFn (rdb r.hdr 7) (rdb r.hdr 10) (unle r.data) with
      | none => answer 1 s
      | some (n, f) =>
        match s.windowCheck src (rdb r.hdr 6) (nf (rd r.hdr 16 8) 43 0) n 3 with
        | (0, va, asid) =>
          match s.remoteXlate l asid va n kMemop with
          | (some ((.dev phys _, _, k) :: ts), s) =>
            let phys2 := match ts with
              | (.dev q _, _, _) :: _ => q
              | _ => phys / 32 * 32 + 32
            if k = n ∨ ts ≠ [] then
              let (_, st, s) := s.memop2 (remoteIss l asid) phys phys2 n f
              s.sendAck l st.code tag src
            else answer 1 s
          | (some _, s) => answer 1 s
          | (none, s) => answer 5 (s.refuse l)
        | (c, _, _) => answer c (s.refuse l)

/-- REMOTE_CIRC_WRITE (R314): accepted for an opened group, injected into its tree from the port's router, and answered with
one CIRC_ACK when every target has acknowledged. A whole block for the hopper is a MARK write (log 47). -/
def State.serveCirc (s : State) (l : Nat) : State :=
  match s.takeRec l 4 with
  | (none, s) => s
  | (some r, s) =>
    let tag := rd r.hdr 2 2
    let src := rdb r.hdr 4
    let group := rd r.hdr 12 2
    let ack (c : Nat) (s : State) : State := s.sendRec l { hdr := recHdr 0x0A 0 tag s.links.device src 0 c 0 0 group 0 }
    if s.remoteShut src || !s.links.opened.contains (src, group) then ack 5 (s.refuse l)
    else
      let (er, rr) := routerOfPort l
      let (tgts, bad) := s.circTargets group 64 er rr
      let a := lfAddr (rd r.hdr 16 8)
      let bs := mark (nbit (rdb r.hdr 1) 2) r.data
      let mk := decide (a < clHopEnd) && r.data.length == 512 && a % 512 == 0
      let (code, held, s) := tgts.foldl (fun (acc : Nat × Bool × State) t =>
        match t with
        | .core g =>
          if mk then
            match acc.2.2.markArrive g a bs { tag := BitVec.ofNat 12 tag, src := BitVec.ofNat 16 src, group := group, circ := true, link := some (l, tag) } with
            | (.done c, s) => (max acc.1 c, acc.2.1, s)
            | (_, s) => (acc.1, true, s)
          else
            let (c, s) := acc.2.2.localWrite g a bs
            (max acc.1 c, acc.2.1, s)
        | .die n a' =>
          let (c, s) := acc.2.2.dieSend n { att := a', typ := 4, addr := a, len := r.data.length } r.data
          (max acc.1 c, acc.2.1, s)
        | .link o =>
          if o = l then acc
          else let (c, s) := acc.2.2.circOut (remoteIss l 0) o group a bs; (max acc.1 c, acc.2.1, s)) (if bad then 6 else 0, false, s)
      let late (h : HeldMark) : HeldMark := if h.link = some (l, tag) then { h with code := code } else h
      if held then { s with cores := s.cores.map (fun c => (c.1, { c.2 with heldMarks := c.2.heldMarks.map late })) } else ack code s

/-- REMOTE_READ (R313). -/
def execRemoteRead (l : Nat) (s : State) : Out := atUnit "scale-up port" l 16 (s.serveRead l)
/-- REMOTE_WRITE (R313). -/
def execRemoteWrite (l : Nat) (s : State) : Out := atUnit "scale-up port" l 16 (s.serveWrite l)
/-- REMOTE_MEMOP (R313). -/
def execRemoteMemop (l : Nat) (s : State) : Out := atUnit "scale-up port" l 16 (s.serveMemop l)
/-- REMOTE_CIRC_WRITE (R314). -/
def execRemoteCircWrite (l : Nat) (s : State) : Out := atUnit "scale-up port" l 16 (s.serveCirc l)

/-! ## Answers and credits -/

/-- An answer ends the request of its tag; one to a request already completed is discarded (R317). -/
def State.remoteAnswer (s : State) (l tag code : Nat) (poison : Bool) (data : Bytes) : State :=
  let p := s.port l
  match p.reqs.find? (fun r => r.tag == tag) with
  | none => s
  | some r => (s.setPort l { p with reqs := p.reqs.erase r }).remoteEnd r code poison data

/-- REMOTE_DATA (R301). -/
def execRemoteData (l : Nat) (s : State) : Out :=
  atUnit "scale-up port" l 16 <|
    match s.takeRec l 8 with
    | (none, s) => s
    | (some r, s) => s.remoteAnswer l (rd r.hdr 2 2) (rdb r.hdr 7) (nbit (rdb r.hdr 1) 2) r.data

/-- REMOTE_ACK (R301). -/
def execRemoteAck (l : Nat) (s : State) : Out :=
  atUnit "scale-up port" l 16 <|
    match s.takeRec l 9 with
    | (none, s) => s
    | (some r, s) => s.remoteAnswer l (rd r.hdr 2 2) (rdb r.hdr 1) false []

/-- REMOTE_CIRC_ACK (R314). -/
def execRemoteCircAck (l : Nat) (s : State) : Out :=
  atUnit "scale-up port" l 16 <|
    match s.takeRec l 0x0A with
    | (none, s) => s
    | (some r, s) => s.remoteAnswer l (rd r.hdr 2 2) (rdb r.hdr 7) false []

/-- CREDIT (R302): units come back to a queue, and what waited for them is sent. -/
def State.creditIn (s : State) (l : Nat) : State :=
  match s.takeRec l 0x0C with
  | (none, s) => s
  | (some r, s) =>
    let p := s.port l
    let q := rdb r.hdr 1
    State.pump (p.txQ.length + p.txEx.length + 1) (s.setPort l { p with credits := tset p.credits q (tget 0 p.credits q + rd r.hdr 2 2) }) l

/-- CREDIT (R302). -/
def execCredit (l : Nat) (s : State) : Out := atUnit "scale-up port" l 16 (s.creditIn l)

end Sys2Proof.Machine
end

