-- ==== Sys2Proof/Machine/Device.lean ====
section
/-! DEFINITION. What concerns the whole device: GENERATION, event records, FAREWELL, stopping the compute clocks, and UNFIT
(R184, R316, R422, R449–R451). -/
namespace Sys2Proof.Machine

/-- GENERATION rises by one (R422). -/
def State.bumpGen (s : State) : State := { s with dev := { s.dev with generation := s.dev.generation + 1 } }

/-- Set the device's mode. -/
def State.setMode (s : State) (m : DevMode) : State := { s with dev := { s.dev with mode := m } }

/-! ## Readings -/

/-- Insert a reading, hottest first; of equal readings the one inserted last. -/
def insHot (x : Nat × Nat) : List (Nat × Nat) → List (Nat × Nat)
  | [] => [x]
  | y :: t => if y.2 ≤ x.2 then x :: y :: t else y :: insHot x t

/-- Temperature channels with a reading, hottest first, equal ones in channel order: channel and code (R440, R450). -/
def State.hottest (s : State) : List (Nat × Nat) :=
  ((List.range 302).filterMap (fun c => (s.chan c).map (fun v => (c, v.toNat)))).foldr insHot []

/-! ## Event records (R449–R451) -/

/-- STATE of an event record. -/
def State.recState (s : State) : Nat := match s.dev.mode with | .ready => 1 | .unfit => 2 | .shuttingDown => 3 | _ => 4

/-- An event record's 256 bytes (R450). A place for a reading that no channel gives holds channel and code all ones. -/
def State.eventBytes (s : State) (cause : Nat) (unit : W32) (detail : Bytes) : Bytes :=
  let temps := (s.hottest.take 32 ++ List.replicate 32 (0xFFFF, 0xFFFF)).take 32
  let h := recOf 112 [(0, 4, 0x56454C5A), (4, 1, 1), (5, 1, cause), (6, 1, s.flash.nvPos),
    (7, 1, b2n (s.pwr.suspect != []) + 2 * b2n (decide (s.pwr.cap < 4000))), (8, 8, s.flash.nvSeq),
    (16, 4, s.links.ownInc.toNat), (20, 4, s.flash.poh), (24, 8, s.time), (32, 4, unit.toNat),
    (36, 4, s.fuse.population.toNat), (40, 2, s.chanN 410 / 10000), (42, 2, s.inputMw / 1000), (44, 2, s.pwr.cap),
    (46, 1, s.recState)]
  let b := putBytes h 48 (slice detail 0 64) ++ (temps.map (fun t => le 2 t.1 ++ le 2 t.2)).flatten
    ++ le 8 (s.log.nextSeq - 1) ++ zeros 4
  b ++ le 4 (crc32c b)

/-- The RTP writes an event record into the next slot; filling the last slot of a sector erases the next sector (R449). A write
cut short leaves the rest of the slot erased, from a place the spec does not fix. -/
def State.eventRecord (s : State) (cause : Nat) (unit : W32) (detail : Bytes) (complete : Bool) : State :=
  let pos := s.flash.nvPos
  let b := s.eventBytes cause unit detail
  let (cut, s) := if complete then (256, s) else (let r := s.freeNat; (r.1 % 256, r.2))
  let b := b.take cut ++ List.replicate (256 - cut) (0xFF : Byte)
  let nv := tset s.flash.nv pos b
  let next := (pos / 16 + 1) % 4
  let nv := if pos % 16 = 15 then nv.filter (fun e => e.1 / 16 != next) else nv
  { s with flash := { s.flash with nv := nv, nvPos := (pos + 1) % 64, nvSeq := s.flash.nvSeq + 1 } }

/-! ## FAREWELL and the compute clocks (R316, R439, R447) -/

/-- FAREWELL with a cause on every live port; after causes 0x01–0x04 the device refuses every remote access (R316). -/
def State.sendFarewell (s : State) (cause : Nat) : State :=
  let s := s.upPorts.foldl (fun s l => s.sendExpress l (expressEntry 2 s.links.device (s.port l).partner [BitVec.ofNat 8 cause])) s
  { s with links := { s.links with farewell := true } }

/-- ACLK and SCLK stop on every compute site, for good. -/
def State.stopCompute (s : State) : State :=
  (List.range 12).foldl (fun s n => s.setPd n { s.pd n with stopped := true }) s

/-- A message to every guest die (R439, R447). -/
def State.toGuests (s : State) (m : Nat → SiteMsg) : State :=
  (List.range 12).foldl (fun s n => if s.guestSite n then s.emit (.site n (m n)) else s) s

/-! ## UNFIT (R184) -/

/-- Enter UNFIT: requests in progress end with ABORTED, scheduling stops, FAREWELL is sent, an event record is written and
ALERT_N asserted (R184 steps 2–5). A device UNFIT already writes the record of the further loss alone (DEDUCED, log 111). -/
def State.enterUnfit (s : State) (cause : BitVec 8) (recCause : Nat) (unit : W32) (detail : Bytes) : State :=
  if s.dev.mode = .unfit then s.eventRecord recCause unit detail true
  else
    let s := s.abortReqs ReqState.inProgress
    let s := s.setServe { s.serve with stopped := true }
    let s := s.sendFarewell 3
    let s := s.eventRecord recCause unit detail true
    (({ s with dev := { s.dev with mode := .unfit, unfitCause := cause } }).bumpGen).msi1

/-- A lost stack: its dirty granary lines are discarded and its held writes complete with an error; the device enters UNFIT,
and the event record names the stack (R183, R184). -/
def State.loseStack (s : State) (k : Nat) : State :=
  let st := s.stack k
  let ch := match st.retrain.find? (fun e => decide (e.2.fails ≥ 3)) with | some e => e.1 | none => 0
  let pc := match st.badRows.head? with | some r => r.1 | none => 0
  (s.setStack k { st with lines := [], held := [] }).enterUnfit 1 3 (uidStack k) [BitVec.ofNat 8 k, st.lossCause, BitVec.ofNat 8 ch, BitVec.ofNat 8 pc]

/-- STACK_LOST: in operation, what follows a controller's declaration that its stack is lost. -/
def State.stackLost (s : State) (k : Nat) : State :=
  let st := s.stack k
  if st.lost ∧ (s.dev.mode = .ready ∨ s.dev.mode = .unfit) then
    (s.logAt 0x010A (uidStack k) 0 [st.lossCause]).loseStack k
  else s

/-- STACK_LOST (R184). -/
def execStackLost (k : Nat) (s : State) : Out := atUnit "stack" k 12 (s.stackLost k)

end Sys2Proof.Machine
end

