-- ==== Sys2Proof/Machine/Net.lean ====
section
/-! DEFINITION. The bulk network as its packets show it: interfaces, routes, what a packet does where it arrives, responses,
circular trackers and statistics (R248–R264, R270). -/
namespace Sys2Proof.Machine

/-- Network interface i. -/
def State.nif (s : State) (i : Nat) : NetIf := tget {} s.netIf i
/-- Replace network interface i. -/
def State.setNif (s : State) (i : Nat) (x : NetIf) : State := { s with netIf := tset s.netIf i x }

/-- Die code and router of network interface i, none for a reserved index (R250, R272). -/
def State.ifRouter (s : State) (i : Nat) : Option (Nat × Nat) :=
  if i < 252 then
    some (4 + i / 21, if s.guestSite (i / 21) then i % 21 else s.posOfCluster i)
  else if 256 ≤ i ∧ i < 288 then some ((i - 256) / 8, 25 + (i - 256) % 8)
  else if 288 ≤ i ∧ i < 292 then some (i - 288, 63)
  else if 292 ≤ i ∧ i < 308 then some ((i - 292) / 4, 74 + (i - 292) % 4)
  else if 308 ≤ i ∧ i < 340 then some ((i - 308) / 8, 38 + (i - 308) % 8)
  else if i = 340 then some (0, 9)
  else if i = 341 then some (2, 92)
  else if 342 ≤ i ∧ i < 358 then some (routerOfPort (i - 342))
  else if 358 ≤ i ∧ i < 370 then some (4 + (i - 358), 22)
  else if 370 ≤ i ∧ i < 374 then some (i - 370, 62)
  else if i = 374 then some (0, 51)
  else if i = 375 then some (0, 52)
  else if 376 ≤ i ∧ i < 388 then some ((i - 376) / 3, 50)
  else if 388 ≤ i ∧ i < 392 then some (i - 388, 50)
  else none

/-- Unit identifier of the agent of network interface i. -/
def ifUnit (i : Nat) : W32 :=
  if i < 252 then uidCluster i
  else if i < 288 then uid 0x08 (i - 256)
  else if i < 292 then uid 0x0C (i - 288)
  else if i < 308 then uid 0x0B (i - 292)
  else if i < 340 then uid 0x0D (i - 308)
  else if i < 342 then uid 0x0F (i - 340)
  else if i < 358 then uidPort (i - 342)
  else if i < 374 then uidXlate (i - 358)
  else if i = 374 then uidRtp
  else if i = 375 then uid 0x01 0
  else if i < 388 then uid 0x0A (i - 376)
  else uid 0x01 (i - 388)

/-- Is the agent of an interface one through which firmware works: sorting-office cores, hub DMA engines and the RTP. -/
def ifFirmware (i : Nat) : Bool := decide ((256 ≤ i ∧ i < 288) ∨ (308 ≤ i ∧ i < 340) ∨ i = 374)

/-- Partition of an interface's die. -/
def State.ifPart (s : State) (i : Nat) : Nat :=
  match s.ifRouter i with
  | some (d, _) => s.partOfDie (if d < 4 then d else (d - 4) / 3)
  | none => 0

/-! ## Routes (R254) -/

/-- Field die of a die code. -/
def fieldOf (d : Nat) : Nat := if d < 4 then d else (d - 4) / 3

/-- A leg: waypoint and exit. -/
def legOf (d r exit : Nat) : Nat := (d * 4096 + r) * 16 + exit

/-- The bridge leg from one field die to a neighbour; the alternative chooses the bridge router (the choice is log 50). -/
def bridgeLeg (a b alt : Nat) : Nat :=
  if a / 2 = b / 2 then legOf a (12 * (2 * alt) + (if a < b then 11 else 0)) 8
  else legOf a ((if a < b then 84 else 0) + 2 + 2 * alt) 8

/-- The table legs of alternative `alt` from a router to a die: down from a compute die, then one or two bridges; two
alternatives go through each intermediate die (R254). -/
def defaultLegs (sd sr dd alt : Nat) : List Nat :=
  if sd = dd then []
  else
    let a := fieldOf sd
    let b := fieldOf dd
    let down := if sd ≥ 4 then [legOf sd sr 5] else []
    if a = b then down
    else if a ^^^ b = 3 then
      let m := if alt < 2 then a ^^^ 1 else a ^^^ 2
      down ++ [bridgeLeg a m alt, bridgeLeg m b alt]
    else down ++ [bridgeLeg a b alt]

/-- A ROUTE_ALT word. -/
def altWord (legs : List Nat) : W64 :=
  pack 64 [(63, 1), (60, legs.length), (40, legs.getD 2 0), (20, legs.getD 1 0), (0, legs.getD 0 0)]

/-- The default die route tables (R254). -/
def State.defaultRoutes (s : State) : State :=
  { s with netIf := ((List.range 392).filter (fun i => (s.ifRouter i).isSome)).map (fun i =>
      let a := (s.ifRouter i).getD (0, 0)
      (i, { s.nif i with alt := (List.range 64).map (fun k => (k, altWord (defaultLegs a.1 a.2 (k / 4) (k % 4)))) })) }

/-- Follow the table legs from a die: the die at which the final leg begins, none when a waypoint is off the current die, an
exit is reserved or it leads nowhere. -/
def followLegs : List Nat → Nat → Option Nat
  | [], d => some d
  | l :: ls, d =>
    let wd := nf l 19 16
    let r := nf l 15 4
    if wd ≠ d then none
    else
      match nf l 3 0 with
      | 5 => if d ≥ 4 then followLegs ls (fieldOf d) else none
      | 8 => (meshNbr d r 9).bind (fun x => followLegs ls x.1)
      | 9 => (meshNbr d r 10).bind (fun x => followLegs ls x.1)
      | _ => none

/-- Does a packet for die code dd find its way from interface i: the alternative ADDR[8:7] XOR SRC_PORT, or the next valid
one (R254). -/
def State.routed (s : State) (i : Nat) (p : Packet) (dd : Nat) : Bool :=
  match s.ifRouter i with
  | none => false
  | some (d, _) =>
    let first := bf p.addr 8 7 ^^^ p.srcPort.toNat
    let alts := (List.range 4).map (fun j => tget 0 (s.nif i).alt (dd * 4 + (first + j) % 4))
    match alts.find? (fun w => w.getLsbD 63) with
    | none => false
    | some w =>
      let legs := ([bf w 19 0, bf w 39 20, bf w 59 40]).take (bf w 61 60)
      match followLegs legs d with
      | some e => e == dd || (dd ≥ 4 && e == fieldOf dd)
      | none => false

/-- Die code of a packet's destination (R253). -/
def State.destDie (s : State) (p : Packet) (loc : Bool) : Nat :=
  let a := p.addr.toNat
  if loc then 4 + siteOfCore (lfCore a)
  else
    match place s.dev.spreadS a with
    | .dev k _ => k / 3
    | .hub off =>
      if 0x40000000 ≤ off ∧ off < 0x407E0000 then 4 + (off - 0x40000000) / 0x1000 / 168
      else if 0x48000000 ≤ off ∧ off < 0x480FC000 then 4 + (off - 0x48000000) / 0x1000 / 21
      else 0
    | .host off => if off < 2 ^ 43 then 0 else 2
    | .remote off =>
      match s.remotePort p.group.toNat off p.device.toNat p.window.toNat with
      | some l => l / 4
      | none => 0
    | .none => 0

/-! ## Requests and responses at an interface (R251, R262, R270) -/

/-- Latency bin of NET_STAT (R270). -/
def latBin (n : Nat) : Nat := if n < 64 then 0 else min 15 (Nat.log2 (n / 32))

/-- A request leaves its interface; one whose tag is outstanding or retired is not issued (R257, R477). -/
def State.netIssue (s : State) (i : Nat) (p : Packet) : Bool × State :=
  let x := s.nif i
  if x.reqs.any (fun q => q.tag == p.tag) || x.retired.any (fun q => q.1 == p.tag) then (false, s)
  else
    (true, s.setNif i { x with
      reqs := x.reqs ++ [{ tag := p.tag, typ := p.typ, time := s.time }]
      stat := cnt (cnt x.stat 0 p.data.length) 2 1 })

/-- A response leaves the destination for interface i. -/
def State.respond (s : State) (i : Nat) (p : Packet) : State :=
  let x := s.nif i
  (s.setNif i { x with inbox := x.inbox ++ [p] }).emit (.response i p)

/-- A MARK write that left a core's ingress is answered with a code of R262: to its network interface, to the transfer
engine whose descriptor waits for it, and, when it is the last of a circular that came across a link, by the CIRC_ACK with
the most severe code (R112, R260, R314). -/
def State.answerMark (s : State) (g : Nat) (h : HeldMark) (code : Nat) : State :=
  let s := s.emit (if code = 0 then .markAck g h.src h.tag h.group h.circ else .writeAnswer (h.src.setWidth 32) (uidCore g) code)
  let s := match h.iface with
    | some i => s.respond i { typ := 9, tag := h.tag, code := BitVec.ofNat 8 code }
    | none => s
  let s := match h.eng with
    | some e => if code = 0 then s else s.descFail { unit := e.reader, asid := 0, cls := 4, slot := h.tag.toNat } code
    | none => s
  match h.link with
  | some lt =>
    if s.cores.any (fun c => c.2.heldMarks.any (fun k => k.link == some lt)) then
      if code = 0 then s else { s with cores := s.cores.map (fun c => (c.1, { c.2 with
        heldMarks := c.2.heldMarks.map (fun k => if k.link == some lt then { k with code := max k.code code } else k) })) }
    else s.sendRec lt.1 { hdr := recHdr 0x0A 0 lt.2 s.links.device h.src.toNat 0 (max h.code code) 0 0 h.group 0 }
  | none => s

/-- HOPPER_INGRESS_RELEASE: the oldest held MARK write whose block is no longer FULL lands and is acknowledged (R112, R260);
while the core is scrubbed it is discarded and answered with code 0x01 (R119). -/
def execHopperIngressRelease (g : Nat) (s : State) : Out :=
  let c := s.core g
  atUnit "core" g 2016 <|
    match c.heldMarks.find? (fun h => !c.full.contains h.block) with
    | none => s
    | some h =>
      let c := { c with heldMarks := c.heldMarks.erase h }
      if c.scrub then (s.setCore g c).answerMark g h 1 else (s.setCore g (c.landMark h.block h.data h.poison)).answerMark g h 0

/-- The response of TYPE `typ` to a packet. -/
def respOf (p : Packet) (typ code : Nat) (poison : Bool) (data : Bytes) : Packet :=
  { typ := BitVec.ofNat 4 typ, tag := p.tag, poison := poison, code := BitVec.ofNat 8 code, group := p.group, addr := p.addr, data := data }

/-- A response reaches its interface: the request of its tag ends and its status goes to the issuer, the response itself to
a guest die (R290); one with a retired tag is absorbed, any other discarded (R262, R270, R477). -/
def State.netArrive (s : State) (i : Nat) (p : Packet) : State :=
  let x := s.nif i
  match x.reqs.find? (fun q => q.tag == p.tag) with
  | some q =>
    let lat := (s.time - q.time) * 9 / 5
    let st := cnt (cnt (cnt x.stat 1 p.data.length) 3 1) (6 + latBin lat) 1
    let st := if (tget 0 st 5).toNat < lat then tset st 5 (BitVec.ofNat 64 lat) else st
    (s.setNif i { x with reqs := x.reqs.erase q, stat := st }).emit
      (if i < 252 ∧ s.guestSite (i / 21) then .dieResponse (i / 21) (i % 21) p else .netDone i p.tag (codeStatus p.code.toNat) p.data)
  | none =>
    if x.retired.any (fun q => q.1 == p.tag) then
      s.setNif i { x with retired := x.retired.filter (fun q => q.1 != p.tag), absorbed := x.absorbed + 1 }
    else s

/-- The oldest response of a TYPE on its way to interface i. -/
def State.takeInbox (s : State) (i : Nat) (typ : BitVec 4) : Option Packet × State :=
  let x := s.nif i
  match x.inbox.find? (fun p => p.typ == typ) with
  | some p => (some p, s.setNif i { x with inbox := x.inbox.erase p })
  | none => (none, s)

/-! ## What a packet does where it arrives -/

/-- How a target answers: with a code and data, or later (a held MARK write, a guest die, a remote device). -/
inductive NetEnd where
  | now (code : Nat) (data : PBytes)
  | later
  deriving DecidableEq, Repr

/-- The issuer of a packet's access. -/
def State.pktIss (s : State) (i : Nat) (p : Packet) : Issuer :=
  { unit := ifUnit i, cls := p.cls.toNat, slot := p.tag.toNat
    asid := if p.cls.toNat < 4 then tget 0 s.dev.partAsid p.cls.toNat else 0 }

/-- An access of hub registers by a packet, as the register map of the hub performs it. -/
abbrev HubAccess := State → Nat → Packet → NetEnd × State

/-- A READ at its destination (R251, R253). -/
def State.pktRead (hub : HubAccess) (s : State) (i : Nat) (p : Packet) (loc : Bool) : NetEnd × State :=
  let a := p.addr.toNat
  let k := p.code.toNat
  let n := 32 * k
  if k = 0 ∨ k > 16 then (.now 1 [], s)
  else if loc then
    let g := lfCore a
    if g ≥ 2016 then (.now 1 [], s)
    else if s.guestCore g then
      let (c, s) := s.dieSend (siteOfCore g) { att := dieAtt g, tag := p.tag, typ := 0, addr := a, len := n, iface := some i } []
      (if c = 0 then .later else .now c [], s)
    else let (c, bs) := s.localRead g (lfAddr a) n; (.now c (if c = 0 ∨ c = 3 then bs else []), s)
  else
    match place s.dev.spreadS a with
    | .dev .. =>
      let (bs, st, s) := s.devRead (s.pktIss i p) a n p.hint.toNat
      (.now st.code bs, s)
    | .hub _ => hub s i p
    | .host _ => let (b, s) := (s.countHost (s.pktIss i p).asid a n).freeBytes n; (.now 0 (mark false b), s)
    | .remote off =>
      let (st, s) := s.remoteIssue (s.pktIss i p) 1 p.device.toNat p.window.toNat p.group.toNat off n 0 0 [] (some (i, p.tag.toNat))
      (if st = .ok then .later else .now 5 [], s)
    | .none => (.now 1 [], s)

/-- A WRITE at its destination; byte i is written when bit i of its mask is set (R251, R253). -/
def State.pktWrite (hub : HubAccess) (s : State) (i : Nat) (p : Packet) (loc : Bool) : NetEnd × State :=
  let a := p.addr.toNat
  let bs := mark p.poison p.data
  if p.data.length > 512 then (.now 1 [], s)
  else if loc then
    let g := lfCore a
    if g ≥ 2016 then (.now 1 [], s)
    else if s.guestCore g then
      let (c, s) := s.dieSend (siteOfCore g) { att := dieAtt g, tag := p.tag, typ := 1, addr := a, len := p.data.length, iface := some i } p.data
      (if c = 0 then .later else .now c [], s)
    else
      let old := (s.core g).rdp (lfAddr a) p.data.length
      let new := (List.range p.data.length).map (fun j => if nbit p.mask j then bs.getD j (0, false) else old.getD j (0, false))
      let (c, s) := s.localWrite g (lfAddr a) new
      (.now c [], s)
  else
    match place s.dev.spreadS a with
    | .dev .. => let (st, s) := s.devWriteM (s.pktIss i p) a bs p.mask p.hint.toNat; (.now st.code [], s)
    | .hub _ => hub s i p
    | .host _ => (.now 0 [], (s.countHost (s.pktIss i p).asid a p.data.length).emit (.hostWrite p.device.toNat a p.data))
    | .remote off =>
      let (st, s) := s.remoteIssue (s.pktIss i p) 2 p.device.toNat p.window.toNat p.group.toNat off p.data.length 0 0 bs (some (i, p.tag.toNat))
      (if st = .ok then .later else .now 5 [], s)
    | .none => (.now 1 [], s)

/-- A MEMOP at the home slice's adders; an operation that returns the old value gives it with its ACK (R157, R251). -/
def State.pktMemop (s : State) (i : Nat) (p : Packet) (fmt : Nat) : NetEnd × State :=
  let a := p.addr.toNat
  match memopFn p.code.toNat fmt (unle p.data) with
  | none => (.now 1 [], s)
  | some (n, f) =>
    match place s.dev.spreadS a with
    | .dev .. =>
      let (old, st, s) := s.memop (s.pktIss i p) a n f
      (.now st.code (if p.code = 0 ∨ st ≠ .ok then [] else mark false (le n old)), s)
    | .remote off =>
      let (st, s) := s.remoteIssue (s.pktIss i p) 3 p.device.toNat p.window.toNat p.group.toNat off n p.code.toNat fmt (mark false p.data) (some (i, p.tag.toNat))
      (if st = .ok then .later else .now 5 [], s)
    | _ => (.now 1 [], s)

/-- A MARK_WRITE of one whole block at a hopper (R112). -/
def State.pktMark (s : State) (i : Nat) (p : Packet) : NetEnd × State :=
  let g := lfCore p.addr.toNat
  if g ≥ 2016 then (.now 1 [], s)
  else if s.guestCore g then
    let (c, s) := s.dieSend (siteOfCore g) { att := dieAtt g, tag := p.tag, typ := 3, addr := p.addr.toNat, len := p.data.length, iface := some i } p.data
    (if c = 0 then .later else .now c [], s)
  else if p.mask % 2 ^ 512 + 1 ≠ 2 ^ 512 then (.now 1 [], s)
  else
    match s.markArrive g (lfAddr p.addr.toNat) (mark p.poison p.data) { src := p.src, tag := p.tag, iface := some i } with
    | (.done c, s) => (.now c [], s)
    | (.held, s) => (.later, s)
    | (.full, s) => (.later, s)

/-- Answer a request at once or leave it to be answered later. -/
def State.netAnswer (i : Nat) (p : Packet) (typ : Nat) : NetEnd × State → State
  | (.now code bs, s) => s.respond i (respOf p typ code (bs.any (·.2) || code == 3) (bs.map (·.1)))
  | (.later, s) => s

/-- A packet of interface i travels to its destination: the parity of its links (R261), its route (R254), then what it does
there; the router where parity failed is (d, r). -/
def State.travel (s : State) (i : Nat) (p : Packet) (loc : Bool) (par : Parity) (d r typ : Nat) (act : Packet → State → NetEnd × State) : State :=
  match s.netIssue i p with
  | (false, s) => s
  | (true, s) =>
    let lost (s : State) : State := s.logAt 0x0302 (ifUnit i) 0 (le 4 (uidRouter d r).toNat)
    if !s.routed i p (s.destDie p loc) then
      (s.respond i (respOf p typ 6 false [])).logAt 0x0301 (ifUnit i) p.addr.toNat (le 2 p.src.toNat ++ le 2 p.group.toNat)
    else
      match par with
      | .good => State.netAnswer i p typ (act p s)
      | .data => let p := { p with poison := true }; State.netAnswer i p typ (act p s)
      | .ctlSrc => (lost s).respond i (respOf p typ 6 false [])
      | .ctl => lost s

/-- Answer a next state for a network interface of the package. -/
def State.atIf (s : State) (i : Nat) (t : State) : Out :=
  if (s.ifRouter i).isSome then .next t else .fault (.noSuchUnit "network interface" i)

/-- PACKET_MEMOP (R251). -/
def execPacketMemop (i : Nat) (p : Packet) (fmt : Nat) (par : Parity) (d r : Nat) (s : State) : Out :=
  s.atIf i (s.travel i p false par d r 9 (fun p s => s.pktMemop i p fmt))

/-- Is the ingress of a core full for a MARK write of a block: the write stays on the network (R112). -/
def State.ingressFull (s : State) (g a : Nat) : Bool :=
  let c := s.core g
  c.full.contains (a / 512) && decide (c.heldMarks.length ≥ 8)

/-- PACKET_MARK_WRITE (R112); a write that finds the ingress full stays on the network. -/
def execPacketMarkWrite (i : Nat) (p : Packet) (par : Parity) (d r : Nat) (s : State) : Out :=
  s.atIf i (if s.ingressFull (lfCore p.addr.toNat) (lfAddr p.addr.toNat) then s else
    s.travel i p true par d r 9 (fun p s => s.pktMark i p))

/-- PACKET_DATA (R251). -/
def execPacketData (i : Nat) (s : State) : Out :=
  s.atIf i <|
    match s.takeInbox i 8 with
    | (some p, s) => s.netArrive i p
    | (none, s) => s

/-- PACKET_ACK (R251). -/
def execPacketAck (i : Nat) (s : State) : Out :=
  s.atIf i <|
    match s.takeInbox i 9 with
    | (some p, s) => s.netArrive i p
    | (none, s) => s

/-- REQUEST_TIMEOUT (R261): 2 ms after a control parity error lost its packet, the interface ends the request with 0x06. -/
def execRequestTimeout (i : Nat) (tag : BitVec 12) (s : State) : Out :=
  s.atIf i (s.netArrive i { typ := 9, tag := tag, code := 6 })

/-! ## Circulars at routers (R259, R260) -/

/-- Output copies of a circular at a router and what each local delivery answers at once: a code, or none where the
acknowledgement is still to come. -/
def State.circOutput (s : State) (d r : Nat) (p : Packet) (o : Nat) : Option Nat × State :=
  if 5 ≤ o ∧ o ≤ 8 then
    if d < 4 then
      match (if o = 5 then portAtRouter d r else none) with
      | some l =>
        let (c, s) := s.circOut { unit := uidRouter d r, asid := 0, cls := 4, slot := p.tag.toNat } l p.group.toNat (lfAddr p.addr.toNat) (mark p.poison p.data)
        (if c = 0 then none else some c, s)
      | none => (some 6, s)
    else
      match s.clusterAt (d - 4) r with
      | none => (some 6, s)
      | some c =>
        (portCores p.group.toNat c (o - 5)).foldl (fun acc g =>
          let a := lfAddr p.addr.toNat
          let bs := mark p.poison p.data
          if a < clHopEnd && p.data.length == 512 && a % 512 == 0 then
            match acc.2.markArrive g a bs { src := p.src, tag := p.tag, group := p.group.toNat, circ := true } with
            | (.done c, s) => (acc.1.map (max c), s)
            | (.held, s) => (none, s)
            | (.full, s) => let x := s.router d r; (none, s.setRouter d r { x with stuck := x.stuck ++ [(g, p)] })
          else
            let (c, s) := acc.2.localWrite g a bs
            (acc.1.map (max c), s)) (some 0, s)
  else
    match meshNbr d r o with
    | none => (some 6, s)
    | some (d', r') =>
      if 4 ≤ d' ∧ s.guestSite (d' - 4) then
        let (c, s) := s.dieSend (d' - 4) { att := r', tag := p.tag, typ := 4, addr := lfAddr p.addr.toNat, len := p.data.length } p.data
        (if c = 0 then none else some c, s)
      else (none, s.emit (.circCopy d r o p))

/-- One combined CIRC_ACK goes back towards the source; at the source's own router it ends the sender's request (R260). -/
def State.circBack (s : State) (d r : Nat) (p : Packet) (code : Nat) : State :=
  let s := s.emit (.circAck d r p.group.toNat code p.src p.tag)
  if p.src.toNat = d * 4096 + r then
    match (List.range 392).find? (fun i => s.ifRouter i == some (d, r) && (s.nif i).reqs.any (fun q => q.tag == p.tag && q.typ == 4)) with
    | some i => s.netArrive i { p with typ := 0xA, code := BitVec.ofNat 8 code, data := [] }
    | none => s
  else s

/-- A circular that has its tracker is copied to every output; what answers at once is counted. -/
def State.circServe (s : State) (d r : Nat) (p : Packet) (outs : List Nat) : State :=
  let (left, code, s) := outs.foldl (fun (acc : List Nat × Nat × State) o =>
    match acc.2.2.circOutput d r p o with
    | (some c, s) => (acc.1, max acc.2.1 c, s)
    | (none, s) => (acc.1 ++ [o], acc.2.1, s)) ([], 0, s)
  if left = [] then s.circBack d r p code
  else
    let x := s.router d r
    s.setRouter d r { x with trackers := x.trackers ++ [{ group := p.group.toNat, src := p.src, tag := p.tag, left := left, code := code }] }

/-- Circulars that waited for a tracker are admitted, in order. -/
def State.circAdmit : Nat → State → Nat → Nat → State
  | 0, s, _, _ => s
  | fuel + 1, s, d, r =>
    let x := s.router d r
    match x.waiting with
    | [] => s
    | p :: rest =>
      if x.trackers.length ≥ 256 then s
      else
        match x.outs p.group.toNat with
        | none => State.circAdmit fuel (s.setRouter d r { x with waiting := rest }) d r
        | some outs => State.circAdmit fuel ((s.setRouter d r { x with waiting := rest }).circServe d r p outs) d r

/-- Copies that a full ingress kept on the network are offered again (R112, R260). -/
def State.circRetry (s : State) (d r : Nat) : State :=
  let x := s.router d r
  x.stuck.foldl (fun s q =>
    let a := lfAddr q.2.addr.toNat
    match s.markArrive q.1 a (mark q.2.poison q.2.data) { src := q.2.src, tag := q.2.tag, group := q.2.group.toNat, circ := true } with
    | (.full, s) => s
    | (_, s) => let x := s.router d r; s.setRouter d r { x with stuck := x.stuck.erase q }) s

/-- A circular reaches a router: an entry that is not valid answers 0x06 and is logged; one that finds no free tracker
waits (R259, R260). -/
def State.circArrive (s : State) (d r : Nat) (p : Packet) : State :=
  if (s.router d r).stuck.any (fun q => q.2 == p) then s.circRetry d r
  else
  let s :=
    if p.src.toNat = d * 4096 + r then
      match (List.range 392).find? (fun i => s.ifRouter i == some (d, r)) with
      | some i => (s.netIssue i p).2
      | none => s
    else s
  let x := s.router d r
  match x.outs p.group.toNat with
  | none =>
    (s.circBack d r p 6).logAt 0x0301 (uidRouter d r) p.addr.toNat (le 2 p.src.toNat ++ le 2 p.group.toNat)
  | some outs =>
    if x.trackers.length ≥ 256 ∨ x.waiting ≠ [] then s.setRouter d r { x with waiting := x.waiting ++ [p] }
    else s.circServe d r p outs

/-- Answer a next state for a bulk router of the package. -/
def atRouter (d r : Nat) (s : State) : Out := if routerExists d r then .next s else .fault (.noSuchUnit "bulk router" (routerKey d r))

/-- PACKET_CIRC_WRITE (R259). -/
def execPacketCircWrite (d r : Nat) (p : Packet) (par : Parity) (s : State) : Out :=
  atRouter d r <|
    match par with
    | .good => s.circArrive d r p
    | .data => s.circArrive d r { p with poison := true }
    | .ctlSrc => (s.circBack d r p 6).logAt 0x0302 (uidRouter d r) 0 (le 4 (uidRouter d r).toNat)
    | .ctl => s.logAt 0x0302 (uidRouter d r) 0 (le 4 (uidRouter d r).toNat)

/-- A CIRC_ACK reaches the tracker of its circular through an output; with the last one the combined acknowledgement leaves
(R260). At the site ingress of a guest die it ends the die's own request (R290). -/
def State.circAckAt (s : State) (d r output : Nat) (p : Packet) : State :=
  let x := s.router d r
  let same (t : Tracker) : Bool := t.group == p.group.toNat && t.src == p.src && t.tag == p.tag && t.left.contains output
  match x.trackers.find? same with
  | none =>
    if 4 ≤ d ∧ s.guestSite (d - 4) ∧ p.src.toNat = d * 4096 + r then s.netArrive ((d - 4) * 21 + r) { p with data := [] } else s
  | some t =>
    let t' := { t with left := t.left.erase output, code := max t.code p.code.toNat }
    if t'.left = [] then
      let s := (s.setRouter d r { x with trackers := x.trackers.erase t }).circBack d r p t'.code
      State.circAdmit (x.waiting.length + 1) s d r
    else s.setRouter d r { x with trackers := updFirst same (fun _ => t') x.trackers }

/-- PACKET_CIRC_ACK (R260). -/
def execPacketCircAck (d r output : Nat) (p : Packet) (s : State) : Out := atRouter d r (s.circAckAt d r output p)

/-- CIRCULAR_HELD (R260): the oldest circular write that core g has held for more than 1 ms is logged, and again each
further millisecond. -/
def execCircularHeld (g : Nat) (s : State) : Out :=
  atUnit "core" g 2016 <|
    let c := s.core g
    match c.heldMarks.find? (fun h => h.circ && decide (s.time - h.since > 1000000)) with
    | none => s
    | some h =>
      (s.setCore g { c with heldMarks := updFirst (· == h) (fun h => { h with since := s.time }) c.heldMarks }).logAt 0x0303 (uidCore g) 0
        (le 2 h.group ++ le 2 h.src.toNat)

/-! ## Other post messages (R266, R469) -/

/-- CLASS and INDEX of a post message's destination. -/
def postDst (h : W64) : Nat × Nat := (bf h 59 52, bf h 51 36)

/-- A message stands at the unit it names. -/
def State.deliver (s : State) (hdr : W64) (payload : List W64) : State := { s with mail := s.mail ++ [{ hdr := hdr, payload := payload.take 3 }] }

/-- POST_INTERRUPT (R266): an INTERRUPT reaches the sorting-office core it names; another destination has none to take it. -/
def execPostInterrupt (hdr payload : W64) (s : State) : Out :=
  .next (if bf hdr 63 60 = 3 ∧ (postDst hdr).1 = 0x0D ∧ (postDst hdr).2 < 32 then s.deliver hdr [payload]
    else s.logAt 0x0304 (uidPost 0 3) 0 [BitVec.ofNat 8 (bf hdr 63 60), 0])

/-- POST_CONTROL (R266): firmware's control message reaches the unit it names. -/
def execPostControl (hdr : W64) (payload : List W64) (s : State) : Out :=
  .next (if bf hdr 63 60 = 4 then s.deliver hdr payload else s.logAt 0x0304 (uidPost 0 3) 0 [BitVec.ofNat 8 (bf hdr 63 60), 0])

/-- BROADCAST_START (R469). -/
def execBroadcastStart (bytes : Nat) (s : State) : Out := .next { s with bcast := { active := true, bytes := bytes, count := 0 } }
/-- BROADCAST_COUNT (R266). -/
def execBroadcastCount (count : Nat) (s : State) : Out :=
  .next (if s.bcast.active then { s with bcast := { s.bcast with count := count } } else s)

/-- Cores of the package: those of sites that hold Varoft dies and are not down (R21, R285). -/
def State.liveCores (s : State) : List Nat :=
  (List.range 2016).filter (fun g => !s.guestCore g && (s.site (siteOfCore g)).mode != .down)

/-- A control processor starts in machine mode at the boot block (R469). -/
def CoreState.release (c : CoreState) : CoreState :=
  { c with cp := { c.cp with inReset := false, pc := 0xFFFFFFF0B0000, mach := true, stall := .none } }

/-- BROADCAST_END (R469): the cores of every stop are released to run the boot block. -/
def execBroadcastEnd (s : State) : Out :=
  .next <|
    if s.bcast.active then
      let s := { s with bcast := { s.bcast with active := false } }
      s.liveCores.foldl (fun s g => s.setCore g (s.core g).release) s
    else s

end Sys2Proof.Machine
end

