-- ==== Sys2Proof/Machine/Sites.lean ====
section
/-! DEFINITION. Chiplet sites and bridges (R273–R298). -/
namespace Sys2Proof.Machine

/-- Identifier of a site and the die in it (R22). -/
def uidSite (n : Nat) : W32 := uid 0x02 n
/-- Does the command name a site. -/
def atSite (n : Nat) (s : State) : Out := atUnit "site" n 12 s

/-- Set a site's STATE; a change raises GENERATION once READY has been asserted (R422), and the reserves are recomputed
(R397). -/
def State.setSiteMode (s : State) (n : Nat) (m : SiteMode) : State :=
  let x := s.site n
  let s' := s.setSite n { x with mode := m }
  if x.mode = m then s'
  else (if s.dev.generation > 0 then s'.bumpGen else s').recheck

/-- Count in SITE_ERR (R291, R298). -/
def State.siteErr (s : State) (n i k : Nat) : State := let x := s.site n; s.setSite n { x with err := cnt x.err i k }

/-! ## The capability block and the grant block (R280–R282) -/

/-- Does a value lie in a range. -/
def inR (v lo hi : Nat) : Bool := decide (lo ≤ v ∧ v ≤ hi)

/-- Every check of R281 but the maker's. -/
def cbGood (guest : Bool) (b : Bytes) : Bool :=
  b.length == 256 && rd b 0 4 == 0x3148534D && rd b 6 2 == 256 && rd b 252 4 == crc32c (b.take 252)
    && (slice b 122 70).all (· == 0) && (slice b 224 28).all (· == 0)
    && decide (rdb b 5 ≤ 1) && decide (1 ≤ rdb b 4)
    && cbAttach b != 0 && cbAttach b / 2 ^ 22 == 0 && (if guest then !nbit (cbAttach b) 21 else ones 22 (cbAttach b) == 21)
    && nbit (rdb b 100) 0 && rdb b 100 / 8 == 0 && cbIssues b / 32 == 0
    && inR (cbOutstanding b) 1 256 && inR (cbPmin b) 1 260 && inR (cbPmax b) (cbPmin b) 260
    && inR (rd b 108 2) 550 700 && inR (rd b 110 2) 700 800 && inR (rd b 112 2) 700 800 && inR (rd b 114 2) 800 850
    && inR (rdb b 116) 100 125 && inR (rdb b 117) 1 16 && inR (rd b 118 2) 1 50 && inR (rd b 120 2) 1 100
    && (!(nbit (cbIssues b) 3 || nbit (cbIssues b) 4) || nbit (cbIssues b) 1)

/-- The maker's check, the last of R281. -/
def cbMaker (guest : Bool) (b : Bytes) : Bool :=
  if guest then rd b 8 2 != 1 else rd b 8 2 == 1 && rd b 10 2 == 0x0C01

/-- XLATE_FILTER of a partition in the layout and the shares in effect (R135, R232). -/
def State.filterWord (s : State) (p : Nat) : W64 :=
  if p < s.dev.layout then
    let m := ((List.range 12).filter (fun k => s.partOfDie (k / 3) == p)).foldl (fun a k => a + 2 ^ k) 0
    let sh := tget (0, 0) s.dev.shares p
    pack 64 [(32, sh.2), (16, sh.1), (0, m)]
  else 0

/-- The grant block of a site from its present values (R282). -/
def State.grantBlock (s : State) (n : Nat) : Bytes :=
  let x := s.site n
  let p := s.partOfSite n
  let b := recOf 60 [(0, 4, 0x3147534D), (4, 1, 1), (5, 1, n), (6, 1, p), (7, 1, s.dev.layout), (8, 4, x.attachEn.toNat),
    (12, 2, n * 168), (14, 2, p * 4096 / s.dev.layout), (16, 1, p * 256 / s.dev.layout), (18, 2, x.pGrant), (20, 2, x.vcomp),
    (22, 2, x.vsram), (24, 8, s.time), (32, 8, (s.filterWord p).toNat)]
  b ++ le 4 (crc32c b)

/-- Send a site its grant block. -/
def State.sendGrant (s : State) (n : Nat) : State :=
  let b := s.grantBlock n
  (s.setSite n { s.site n with grant := b }).emit (.site n (.grant b))

/-- A new P_GRANT within P_MIN–P_MAX goes out in a grant block that differs only in it and in TIME (R282, R288, R298). -/
def State.regrant (s : State) (n watts : Nat) : State :=
  let x := s.site n
  if x.block = [] then s
  else (s.setSite n { x with pGrant := max (cbPmin x.block) (min watts (cbPmax x.block)) }).sendGrant n

/-! ## Coming up (R283) -/

/-- Step 1: the boot rails rise and PWR_OK is asserted (R280, R283). -/
def State.siteStart (s : State) (n : Nat) : State :=
  let s := s.setSiteMode n .negotiating
  (s.setSite n { s.site n with wait := .block, version := 0, block := [], grant := [], attachEn := 0, vcomp := 700, vsram := 800
                               digest := [], fwWait := false }).emit (.site n .pwrOk)

/-- The bundle of a field-die router beneath an attachment: the router that a circular reaches the die through. -/
def siteRouter (n a : Nat) : Nat × Nat := (meshNbr (4 + n) a 4).getD (0, 0)

/-- A request open at a guest die ends with a code (R262): the interface or engine that sent it is told, a circular's copy
counts at its router. -/
def State.dieAnswer (s : State) (n : Nat) (q : DieReq) (code : Nat) (poison : Bool) (data : Bytes) : State :=
  let x := s.site n
  let s := s.setSite n { x with reqs := x.reqs.erase q }
  match q.iface, q.eng with
  | some i, _ =>
    s.respond i { typ := if q.typ = 0 then 8 else 9, tag := q.tag, code := BitVec.ofNat 8 code, poison := poison, data := data }
  | none, some (e, slot) =>
    if q.typ = 0 then
      let x := s.site n
      s.setSite n { x with answers := x.answers ++ [{ req := q, code := code, poison := poison, data := data }] }
    else if code = 0 then s
    else s.descFail { unit := e.uid, asid := 0, cls := 4, slot := slot } code
  | none, none =>
    if q.typ ≠ 4 then s
    else
      let (d, r) := siteRouter n q.att
      match (s.router d r).trackers.find? (fun t => t.tag == q.tag && t.left.contains 4) with
      | some t => s.circAckAt d r 4 { typ := 0xA, src := t.src, tag := q.tag, group := BitVec.ofNat 12 t.group, code := BitVec.ofNat 8 code }
      | none => s

/-- Every request open at the die is answered with a code. -/
def State.dieAnswerAll (s : State) (n code : Nat) : State :=
  ((s.site n).reqs).foldl (fun s q => s.dieAnswer n q code false []) s

/-- The tags of the die's outstanding requests are retired: their responses are absorbed (R291 step 4). -/
def State.dieAbsorb (s : State) (n : Nat) : State :=
  (List.range 21).foldl (fun s a =>
    let i := n * 21 + a
    let x := s.nif i
    if x.reqs = [] then s
    else s.setNif i { x with retired := x.retired ++ x.reqs.map (fun q => (q.tag, s.time)), reqs := [] }) s

/-- A down site's attachments leave the route tables and the circular tables (R285). -/
def State.dropRoutes (s : State) (n : Nat) : State :=
  let d := 4 + n
  let off (w : W64) : W64 := w &&& ~~~(1 <<< 63 : W64)
  let s : State := { s with netIf := s.netIf.map (fun e => (e.1, { e.2 with
    alt := e.2.alt.map (fun a => if a.1 / 4 = d then (a.1, off a.2) else a) })) }
  { s with routers := s.routers.map (fun e =>
      if e.1 / 4096 == n / 3 && (match meshNbr (n / 3) (e.1 % 4096) 4 with | some x => x.1 == d | none => false) then
        (e.1, { e.2 with circ := e.2.circ.map (fun c => (c.1, c.2 &&& ~~~(1 <<< 4 : W64))) })
      else e) }

/-- A site goes down with a cause: isolated, its rails off, its numbers vacant until the next whole reset; in operation its
partition takes the fault (R280, R285, R291). -/
def State.siteDown (s : State) (n cause : Nat) : State :=
  if (s.site n).mode = .down then s
  else
    let s := ((s.setSiteMode n .down).dieAnswerAll n 4).dieAbsorb n
    let s := s.setSite n { s.site n with
      wait := .none, cause := BitVec.ofNat 8 cause, fence := true, attachEn := 0, vcomp := 0, vsram := 0, fwWait := false, again := false }
    let s := (s.dropRoutes n).logAt 0x0401 (uidSite n) 0 [BitVec.ofNat 8 cause]
    if s.dev.mode = .ready then s.reportPart (s.partOfSite n) 0x0401 else s

/-- The start stops without READY, with an event record (R279, R281). -/
def State.haltStart (s : State) (cause : Nat) (unit : W32) (detail : Bytes) : State :=
  let s := s.eventRecord cause unit detail true
  { s with board := { s.board with halted := true } }

/-- CAPABILITY_BLOCK_READ (R281, R282): an accepted block is answered with the first grant, P_MIN and the boot rails' voltages,
which lie in every die's ranges (log 61); a wrong maker stops the start. -/
def execCapabilityBlockRead (n : Nat) (block : Bytes) (s : State) : Out :=
  atSite n <|
    let x := s.site n
    let guest := s.guestSite n
    if x.wait ≠ .block then s
    else
      let s := s.setSite n { x with block := slice block 0 256 }
      if !cbGood guest block then s.siteDown n 2
      else if !cbMaker guest block then
        if s.dev.mode = .starting then
          (s.setSite n { s.site n with wait := .none }).haltStart 5 (uidSite n) [BitVec.ofNat 8 (n / 3), BitVec.ofNat 8 (n / 3), BitVec.ofNat 8 (n / 3)]
        else s.siteDown n 2
      else
        (s.setSite n { s.site n with wait := .grantOk, version := 1, attachEn := BitVec.ofNat 24 (cbAttach block), pGrant := cbPmin block }).sendGrant n

/-- T_BOOT_TIMEOUT (R283). -/
def execTBootTimeout (n : Nat) (s : State) : Out := atSite n (if (s.site n).wait = .block then s.siteDown n 1 else s)

/-- GRANT_OK: bundle training starts (R283 step 5). -/
def execGrantOk (n : Nat) (s : State) : Out :=
  atSite n <|
    if (s.site n).wait = .grantOk then
      let s := s.setSiteMode n .training
      s.setSite n { s.site n with wait := .wires }
    else s

/-- GRANT_OK_TIMEOUT (R283). -/
def execGrantOkTimeout (n : Nat) (s : State) : Out := atSite n (if (s.site n).wait = .grantOk then s.siteDown n 3 else s)

/-- SITE_TRAINING_DONE: the faulty wires of each bundle and direction (bundle × 2 + direction) are steered to spares; a bundle
with more than 8 fails the site (R275). -/
def execSiteTrainingDone (n : Nat) (wires : Tbl (List Nat)) (s : State) : Out :=
  atSite n <|
    if (s.site n).wait ≠ .wires then s
    else if wires.any (fun w => decide (w.2.length > 8)) then s.siteDown n 4
    else s.setSite n { s.site n with wait := .linkUp, spares := wires.filter (fun w => decide (w.1 < 128)), frames := [] }

/-- The first array of a site that is narrower than 14 rows (R58). -/
def State.narrowArray (s : State) (n : Nat) : Option Nat :=
  (s.dev.badCols.find? (fun e => decide (e.1 / 672 = n) && decide (e.2.length > 3))).map (·.1)

/-- SITE_LINK_UP: the attachments and the post link open and the fence ends; a site with an array narrower than 14 rows goes
down instead (R58, R283 step 6). -/
def execSiteLinkUp (n : Nat) (s : State) : Out :=
  atSite n <|
    if (s.site n).wait ≠ .linkUp then s
    else
      match (if s.guestSite n then none else s.narrowArray n) with
      | some a => let s := s.siteDown n 9; s.setSite n { s.site n with array := a }
      | none =>
        let s := s.setSiteMode n .up
        let s := s.emit (.site n .linkUp)
        s.setSite n { s.site n with wait := .none, fence := false, again := false, reqs := [], answers := [], samples := [], ovr := false, throttled := false }

/-! ## Guest firmware (R284) -/

/-- FW_LOADED: hub DMA has written the image through the site aperture; the digest report is awaited. -/
def execFwLoaded (n : Nat) (s : State) : Out :=
  atSite n <|
    let x := s.site n
    if s.guestSite n ∧ x.mode = .up ∧ slice x.block 64 32 ≠ zeros 32 then
      (s.setSite n { x with fwWait := true, digest := [] }).emit (.site n .fwLoaded)
    else s

/-- GUEST_DIGEST_REPORT: the report is recorded and compared with the image's digest. -/
def execGuestDigestReport (n : Nat) (digest : Bytes) (s : State) : Out :=
  atSite n <|
    let x := s.site n
    if !x.fwWait then s
    else
      let s := s.setSite n { x with fwWait := false, digest := slice digest 0 32 }
      if digest = slice (tget [] s.dev.image.digests (16 + n)) 0 32 ∧ digest = slice x.block 64 32 then s else s.siteDown n 5

/-- GUEST_DIGEST_TIMEOUT (R284). -/
def execGuestDigestTimeout (n : Nat) (s : State) : Out := atSite n (if (s.site n).fwWait then s.siteDown n 5 else s)

/-! ## Frames (R276–R278) -/

/-- A received frame and the acknowledgement it carries. In order and good, it is delivered; bad, its replay is awaited; the
frame acknowledged as bad and those after it are replayed, in order. The new framing and the frames replayed. -/
def FrameLink.receive (f : FrameLink) (seq : BitVec 12) (good : Bool) (ack : BitVec 12) (ackGood : Bool) : FrameLink × List (BitVec 12) :=
  let f := if good then (if seq = f.rxSeq then { f with rxSeq := f.rxSeq + 1, fails := 0 } else f) else { f with fails := f.fails + 1 }
  if f.replay.contains ack then
    let after := f.replay.dropWhile (· != ack)
    if ackGood then ({ f with replay := after.drop 1 }, []) else ({ f with replay := after }, after)
  else (f, [])

/-- The frame sent in the same 5 ns: it takes the next number while the replay buffer has room. -/
def FrameLink.send (f : FrameLink) : Option (BitVec 12) × FrameLink :=
  if f.replay.length < 64 then (some f.txSeq, { f with txSeq := f.txSeq + 1, replay := f.replay ++ [f.txSeq] }) else (none, f)

/-- Emit the frames replayed, or the next one. -/
def State.framesOut (s : State) (unit : W32) (b : Nat) (rep : List (BitVec 12)) (next : Option (BitVec 12)) (ack : BitVec 12) (good : Bool) : State :=
  (if rep = [] then next.toList else rep).foldl (fun s q => s.emit (.frame unit b q ack good)) s

/-- SITE_FRAME: one bundle's frame. The original and four replays that fail in a row retrain the bundle; meanwhile the whole
site's traffic waits (R276). -/
def execSiteFrame (n b : Nat) (seq : BitVec 12) (good : Bool) (ack : BitVec 12) (ackGood : Bool) (s : State) : Out :=
  atSite n <|
    let x := s.site n
    if b ≥ 64 ∨ x.mode ≠ .up ∨ x.frames.any (fun f => f.2.retrain) then s
    else
      let (f, rep) := (tget {} x.frames b).receive seq good ack ackGood
      let (next, f) := if rep = [] then f.send else (none, f)
      let stop : Bool := decide (f.fails ≥ 5)
      let f := if stop then { f with retrain := true, fails := 0 } else f
      let s := s.setSite n { x with frames := tset x.frames b f }
      let s := s.siteErr n 0 (rep.length + (if good then 0 else 1))
      let s := s.framesOut (uidSite n) b rep next seq good
      if stop then (s.siteErr n 1 1).logAt 0x0403 (uidSite n) 0 [BitVec.ofNat 8 b] else s

/-- BUNDLE_RETRAIN_DONE: the faulty wires found in each direction; a bundle that needs more than 8 spares fails the site
(R276). -/
def execBundleRetrainDone (n b : Nat) (wires : List (List Nat)) (s : State) : Out :=
  atSite n <|
    let x := s.site n
    let f := tget {} x.frames b
    if !f.retrain then s
    else if wires.any (fun w => decide (w.length > 8)) then s.siteDown n 8
    else s.setSite n { x with
      frames := tset x.frames b { f with retrain := false }
      spares := tset (tset x.spares (2 * b) (wires.getD 0 [])) (2 * b + 1) (wires.getD 1 []) }

/-! ## Bridges (R277, R278) -/

/-- Bridge br: 0 B01, 1 B23, 2 B02, 3 B13. -/
def State.bridge (s : State) (br : Nat) : BridgeState := tget {} s.bridges br
/-- Replace it. -/
def State.setBridge (s : State) (br : Nat) (x : BridgeState) : State := { s with bridges := tset s.bridges br x }
/-- Working modules of a bridge. -/
def BridgeState.working (x : BridgeState) : Nat := 16 - ones 16 x.disabled.toNat
/-- The two field dies that a bridge joins. -/
def bridgeDies (br : Nat) : Nat × Nat := if br = 0 then (0, 1) else if br = 1 then (2, 3) else if br = 2 then (0, 2) else (1, 3)

/-- The leg of module m of a bridge, leaving field die a: the j-th bridge router's link i is module 2j + i (log 50). -/
def moduleLeg (br a m : Nat) : Nat :=
  let (lo, _) := bridgeDies br
  let j := m / 2
  let r := if br ≤ 1 then 12 * j + (if a = lo then 11 else 0) else (if a = lo then 84 else 0) + 2 + j
  legOf a r (8 + m % 2)

/-- The links of disabled modules leave the route tables: firmware moves their routes to the remaining links of the same
bridge, in turn (R277). -/
def State.moveRoutes (s : State) (br m : Nat) : State :=
  let x := s.bridge br
  let (lo, hi) := bridgeDies br
  match ((List.range 16).map (fun i => (m + 1 + i) % 16)).find? (fun i => !x.disabled.getLsbD i) with
  | none => s
  | some k =>
    let swap (l : Nat) : Nat := if l = moduleLeg br lo m then moduleLeg br lo k else if l = moduleLeg br hi m then moduleLeg br hi k else l
    let word (w : W64) : W64 := setBf (setBf (setBf w 19 0 (swap (bf w 19 0))) 39 20 (swap (bf w 39 20))) 59 40 (swap (bf w 59 40))
    { s with netIf := s.netIf.map (fun e => (e.1, { e.2 with alt := e.2.alt.map (fun a => (a.1, word a.2)) })) }

/-- A module is disabled; in operation, with fewer than 12 left the device enters UNFIT (R277). -/
def State.moduleOff (s : State) (br m : Nat) : State :=
  let x := s.bridge br
  let x := { x with disabled := x.disabled ||| BitVec.ofNat 16 (2 ^ (m % 16)) }
  let s := ((s.setBridge br x).moveRoutes br m).logAt 0x0404 (uid 0x10 br) 0 [BitVec.ofNat 8 m, BitVec.ofNat 8 x.working]
  if x.working < 12 ∧ s.dev.mode = .ready then
    s.enterUnfit 2 6 (uid 0x10 br) [BitVec.ofNat 8 br, BitVec.ofNat 8 x.working, 1]
  else s

/-- BRIDGE_FRAME: a module's frame, under the replay rules of R276; a module whose replays fail four times in a row cannot be
repaired by them and is disabled (DEDUCED, log 62). -/
def execBridgeFrame (br m : Nat) (seq : BitVec 12) (good : Bool) (ack : BitVec 12) (ackGood : Bool) (s : State) : Out :=
  atUnit "bridge" br 4 <|
    let x := s.bridge br
    if m ≥ 16 ∨ !x.trained ∨ x.disabled.getLsbD m then s
    else
      let (f, rep) := (tget {} x.frames m).receive seq good ack ackGood
      let (next, f) := if rep = [] then f.send else (none, f)
      let stop : Bool := decide (f.fails ≥ 5)
      let s := s.setBridge br { x with frames := tset x.frames m f }
      let s := s.framesOut (uid 0x10 br) m rep next seq good
      if stop then s.moduleOff br m else s

/-! ## The site ingress (R290) -/

/-- VC that a TYPE belongs on; none for a reserved TYPE (R286). -/
def vcOf (typ : Nat) : Option Nat :=
  if typ ≤ 2 then some 0 else if typ = 3 ∨ typ = 4 then some 2 else if 8 ≤ typ ∧ typ ≤ 0xA then some 1 else none

/-- Bytes that a request covers. -/
def pktBytes (p : Packet) : Nat := if p.typ = 0 then 32 * p.code.toNat else p.data.length

/-- Is a request of the die's that R290's table passes. -/
def State.ingressPass (s : State) (n a vc : Nat) (p : Packet) (loc : Bool) : Bool :=
  let x := s.site n
  let t := p.typ.toNat
  let part := s.partOfSite n
  let addr := p.addr.toNat
  vcOf t == some vc && nbit (cbIssues x.block) t && decide ((s.nif (n * 21 + a)).reqs.length < cbOutstanding x.block)
    && (if t = 4 then decide (p.group.toNat / (4096 / s.dev.layout) = part)
        else if loc then t != 2 && decide (lfCore addr < 2016) && s.partOfCore (lfCore addr) == part
        else if t = 3 then false
        else
          match place s.dev.spreadS addr with
          | .dev .. => (s.xl (12 + n / 3)).passes s.dev.spreadS part addr (pktBytes p)
          | _ => false)

/-- A packet of the die is refused: counted, logged, and a request answered with CODE 0x02 (R290). -/
def State.ingressRefuse (s : State) (n a : Nat) (p : Packet) : State :=
  let s := (s.siteErr n 2 1).logAt 0x0402 (uidSite n) p.addr.toNat [BitVec.ofNat 8 p.typ.toNat]
  if p.typ.toNat ≥ 8 then s
  else s.emit (.dieResponse n a { typ := if p.typ = 0 then 8 else if p.typ = 4 then 0xA else 9, tag := p.tag, code := 2, group := p.group })

/-- A response of the die ends the request of its TAG that the hub delivered on the attachment and that is still open. -/
def State.ingressResp (s : State) (n a vc : Nat) (p : Packet) : State :=
  let fits (q : DieReq) : Bool :=
    q.att == a && q.tag == p.tag
      && (if p.typ = 8 then q.typ == 0 else if p.typ = 9 then q.typ == 1 || q.typ == 3 else q.typ == 4)
  match (s.site n).reqs.find? fits with
  | some q => if vc = 1 then s.dieAnswer n q p.code.toNat p.poison p.data else s.ingressRefuse n a p
  | none => s.ingressRefuse n a p

/-- SITE_INGRESS: the hub fills SRC, SRC_PORT and CLASS, checks the packet and passes it as the attachment's network
interface (R290). -/
def execSiteIngress (n a vc fmt : Nat) (p : Packet) (loc : Bool) (par : Parity) (d r : Nat) (s : State) : Out :=
  atSite n <|
    let x := s.site n
    let i := n * 21 + a
    let p := { p with src := BitVec.ofNat 16 ((4 + n) * 4096 + a), srcPort := 0, cls := BitVec.ofNat 3 (s.partOfSite n) }
    if !s.guestSite n ∨ a ≥ 21 ∨ x.mode ≠ .up ∨ !x.attachEn.getLsbD a then s
    else if p.typ.toNat ≥ 8 then s.ingressResp n a vc p
    else if !s.ingressPass n a vc p loc then s.ingressRefuse n a p
    else
      let noHub : HubAccess := fun s _ _ => (.now 2 [], s)
      match p.typ.toNat with
      | 0 => s.travel i p loc par d r 8 (fun p s => State.pktRead noHub s i p loc)
      | 1 => s.travel i p loc par d r 9 (fun p s => State.pktWrite noHub s i p loc)
      | 2 => s.travel i p false par d r 9 (fun p s => s.pktMemop i p fmt)
      | 3 =>
        if s.ingressFull (lfCore p.addr.toNat) (lfAddr p.addr.toNat) then s
        else s.travel i p true par d r 9 (fun p s => s.pktMark i p)
      | _ =>
        let (ok, s) := s.netIssue i p
        if !ok then s
        else
          let (fd, fr) := siteRouter n a
          match par with
          | .good => s.circArrive fd fr p
          | .data => s.circArrive fd fr { p with poison := true }
          | .ctlSrc => (s.netArrive i { p with typ := 0xA, code := 6, data := [] }).logAt 0x0302 (uidRouter fd fr) 0 (le 4 (uidRouter d r).toNat)
          | .ctl => s.logAt 0x0302 (uidRouter fd fr) 0 (le 4 (uidRouter d r).toNat)

/-! ## The site reset handshake (R291) -/

/-- RESET_REQ leaves; nothing new is delivered to the die. -/
def State.resetReq (s : State) (n : Nat) (again : Bool) : State :=
  let s := s.setSiteMode n .resetting
  (s.setSite n { s.site n with wait := .none, again := again, fwWait := false }).emit (.site n .resetReq)

/-- A compute die in reset: its cores, clusters and translation unit hold their reset values. -/
def State.clearDie (s : State) (n : Nat) : State :=
  { s with
    cores := s.cores.filter (fun e => e.1 / 168 != n)
    clusters := s.clusters.filter (fun e => e.1 / 21 != n)
    xlate := s.xlate.filter (fun e => e.1 != n) }

/-- Step 4: the site's reset is asserted and the site fenced; then it comes up again, or goes down with its cause (R291,
R295). -/
def State.siteAssert (s : State) (n : Nat) : State :=
  let s := ((s.emit (.site n .resetAssert)).dieAnswerAll n 4).dieAbsorb n
  let s := if s.guestSite n then s else s.clearDie n
  let s := s.setSite n { s.site n with fence := true, frames := [] }
  if (s.site n).cause ≠ 0 then s.siteDown n (s.site n).cause.toNat
  else if (s.site n).again then (s.emit (.site n .resetRelease)).siteStart n
  else s

/-- The handshake as a whole starts: while the negotiation is in progress it goes on from step 4 at once (R291). -/
def State.siteReset (s : State) (n : Nat) (again : Bool) : State :=
  match (s.site n).mode with
  | .up => s.resetReq n again
  | .negotiating | .training => (s.resetReq n again).siteAssert n
  | _ => s

/-- SITE_RESET_REQ (R291 step 1). -/
def execSiteResetReq (n : Nat) (again : Bool) (s : State) : Out := atSite n (s.siteReset n again)

/-- QUIESCED, or 100 µs after RESET_REQ (R291 steps 3 and 4). -/
def execQuiesced (n : Nat) (s : State) : Out :=
  atSite n (if (s.site n).mode = .resetting ∧ !(s.site n).fence then s.siteAssert n else s)

/-- Writing SITE_CTL.RESET: ignored unless STATE is UP (R291). -/
def State.siteCtlReset (s : State) (n : Nat) : State := if (s.site n).mode = .up then s.resetReq n true else s

/-- SITE_CTL_RESET (R291). -/
def execSiteCtlReset (n : Nat) (s : State) : Out := atSite n (s.siteCtlReset n)

/-- SITE_POWER_GRANT_WRITE (R298's SITE_POWER): a new grant block, clamped. -/
def execSitePowerGrantWrite (n value : Nat) (s : State) : Out := atSite n (s.regrant n value)

/-- GUEST_GRANT_REQUEST: answered within the module cap as last divided; the request makes the site demanding in the next
round. Discarded from RESET_REQ until LINK_UP (R288, R291, R454). -/
def State.grantRequest (s : State) (n watts : Nat) : State :=
  if !s.guestSite n ∨ (s.site n).mode ≠ .up then s
  else
    let s := s.setPd n { s.pd n with request := watts }
    s.regrant n (min watts ((s.pd n).share / 8))

/-- GUEST_GRANT_REQUEST (R288). -/
def execGuestGrantRequest (n watts : Nat) (s : State) : Out := atSite n (s.grantRequest n watts)

/-- SITE_POWER_CHECK: a sample every 64 µs. A guest die above P_GRANT by more than 10% over 1 ms gets THROTTLE; after 1 ms
more VCOMP falls to VCOMP_MIN, after 10 ms the site is down (R292). -/
def State.powerCheck (s : State) (n watts : Nat) : State :=
  let x := s.site n
  let l := (watts :: x.samples).take 16
  let avg := l.sum / l.length
  let x := { x with samples := l, pNow := avg }
  if x.mode ≠ .up then s
  else if !s.guestSite n ∨ l.length < 16 ∨ avg * 10 ≤ x.pGrant * 11 then s.setSite n { x with ovr := false, throttled := false }
  else if !x.ovr then
    ((s.setSite n { x with ovr := true, throttled := true, overSince := s.time }).siteErr n 5 1).emit (.site n (.throttle x.pGrant))
  else if s.time - x.overSince ≥ 10000000 then (s.setSite n x).siteDown n 6
  else if s.time - x.overSince ≥ 1000000 then s.setSite n { x with vcomp := rd x.block 108 2 }
  else s.setSite n x

/-- SITE_POWER_CHECK (R292). -/
def execSitePowerCheck (n watts : Nat) (s : State) : Out := atSite n (s.powerCheck n watts)

/-- A die is put through the handshake and then marked down for a breach of protocol (R295). -/
def State.siteBreach (s : State) (n : Nat) : State :=
  if (s.site n).mode = .up then
    let s := s.resetReq n false
    s.setSite n { s.site n with cause := 7 }
  else s

/-- SITE_REQUEST_TIMEOUT: a request held for 2 ms is answered for with CODE 0x01; more than 16 such answers within 1 s end the
site (R295). -/
def execSiteRequestTimeout (n a : Nat) (tag : BitVec 12) (s : State) : Out :=
  atSite n <|
    match (s.site n).reqs.find? (fun q => q.att == a && q.tag == tag) with
    | none => s
    | some q =>
      let s := (s.dieAnswer n q 1 false []).siteErr n 4 1
      let x := s.site n
      let late := (x.late.filter (fun t => decide (s.time - t < 1000000000))) ++ [s.time]
      let s := s.setSite n { x with late := late }
      if late.length > 16 then s.siteBreach n else s

/-- SITE_CREDIT_TIMEOUT (R295). -/
def execSiteCreditTimeout (n : Nat) (s : State) : Out := atSite n (s.siteBreach n)

/-- DOWN_CAUSE of a site that did not come back, by the step it had reached (DEDUCED from R298, log 61). -/
def SiteState.lateCause (x : SiteState) : Nat :=
  match x.wait with
  | .block => 1
  | .grantOk => 3
  | .wires | .linkUp => 4
  | .none => 7

/-- GUEST_SITE_RETURN_TIMEOUT: a guest site that has not come back T_BOOT + 4 ms after step 3 of its partition's reset is
down (R480). -/
def execGuestSiteReturnTimeout (n : Nat) (s : State) : Out :=
  atSite n <|
    if s.guestSite n ∧ (s.part (s.partOfSite n)).phase ≠ .none ∧ (s.site n).mode ≠ .up then s.siteDown n (s.site n).lateCause else s

end Sys2Proof.Machine
end

