-- ==== Sys2Proof/Machine/Hub.lean ====
section
/-! DEFINITION. The hub register space: every register block at its address, read and written under its access codes
(R13, R22, R74, R97, R147, R191, R272, R297), and the packets and writes that reach it. -/
namespace Sys2Proof.Machine

/-- A 64-bit register after a write of the bytes in `m`, keeping only its writable bits `rw`. -/
def regMerge (old val m rw : Nat) : W64 := BitVec.ofNat 64 ((old &&& (2 ^ 64 - 1 - (m &&& rw))) ||| (val &&& m &&& rw))

/-- Bits [hi:lo] as a mask. -/
def mbits (hi lo : Nat) : Nat := (2 ^ (hi + 1 - lo) - 1) * 2 ^ lo

/-! ## Memory controllers (R147) -/

/-- The 64-bit word at an offset of a stack's register block. -/
def State.stackReg (s : State) (k off : Nat) : Nat :=
  let st := s.stack k
  if off = 0x000 then packN [(8, st.refresh), (4, max st.thrStack (max st.thrDie st.thrPower)), (0, b2n s.dev.priority)]
  else if 0x010 ≤ off ∧ off < 0x038 then let b := tget ({} : Bucket) st.buckets ((off - 0x010) / 8); (b.new.getD b.reg).toNat
  else if off = 0x040 then st.prio.toNat
  else if off = 0x060 then st.quota.toNat
  else if off = 0x068 then packN ((List.range 4).map (fun p => (16 * p, st.keepUsed p / 64)))
  else if off = 0x080 then packN [(48, st.gAsid.toNat), (4, st.gPart.toNat), (1, st.gOp.toNat), (0, b2n st.gBusy)]
  else if 0x100 ≤ off ∧ off < 0x130 then (tget 0 st.memCount ((off - 0x100) / 8)).toNat
  else if 0x180 ≤ off ∧ off < 0x1A0 then (tget 0 st.granCount ((off - 0x180) / 8)).toNat
  else if 0x200 ≤ off ∧ off < 0x240 then (tget 0 st.integ ((off - 0x200) / 8)).toNat
  else if off = 0x240 then
    packN [(32, (st.remap.filter (fun e => e.2.valid)).length), (24, st.lossCause.toNat), (23, b2n st.lost), (22, b2n st.fillDone),
      (21, b2n st.remapErr)]
  else if off = 0x280 then st.glean.ctl.toNat
  else if off = 0x288 then packN [(63, b2n st.glean.overdue), (32, st.glean.pos), (0, st.glean.laps.toNat)]
  else if off = 0x290 then packN [(32, st.glean.lastMs.toNat), (16, st.glean.fixed.toNat), (0, st.glean.unfixed.toNat)]
  else if off = 0x300 then st.flipCtl.toNat
  else if 0x308 ≤ off ∧ off < 0x328 then nf st.flipData.toNat (8 * (off - 0x308) + 63) (8 * (off - 0x308))
  else if off = 0x328 then st.flipCheck.toNat
  else if 0x340 ≤ off ∧ off < 0x378 then packN ((List.range 8).map (fun m => (8 * m, tget 0 st.epochs ((off - 0x340) + m))))
  else if off = 0x380 then st.remapReg.toNat
  else if 0x400 ≤ off ∧ off < 0x600 then
    let e := tget ({} : RemapEnt) st.remap ((off - 0x400) / 16)
    if off % 16 = 0 then packN [(63, b2n e.valid), (0, e.sector)] else packN [(32, e.check.toNat), (0, e.spareRow)]
  else 0

/-- Write the bytes in `m` of the word at an offset of a stack's register block. -/
def State.stackRegWrite (s : State) (k off val m : Nat) : State :=
  let st := s.stack k
  let old := s.stackReg k off
  if 0x010 ≤ off ∧ off < 0x038 then
    let i := (off - 0x010) / 8
    s.setStack k { st with buckets := tset st.buckets i { tget ({} : Bucket) st.buckets i with
      new := some (regMerge old val m (mbits 47 32 ||| mbits 17 0)) } }
  else if off = 0x040 then s.setStack k { st with prio := BitVec.ofNat 32 (regMerge old val m (mbits 4 0)).toNat }
  else if off = 0x060 then s.setStack k (st.setQuota (regMerge old val m (mbits 31 0)))
  else if off = 0x080 then
    let v := regMerge old val m (mbits 63 48 ||| mbits 5 1)
    let op := bf v 3 1
    if st.gBusy ∨ op = 7 then s
    else if op = 0 then s.setStack k { st with gAsid := BitVec.ofNat 16 (bf v 63 48), gPart := BitVec.ofNat 2 (bf v 5 4), gOp := 0 }
    else s.granOp k op (bf v 63 48) (bf v 5 4)
  else if off = 0x240 then s.setStack k { st with remapErr := st.remapErr && !(nbit val 21 && nbit m 21) }
  else if off = 0x280 then s.setStack k { st with glean := { st.glean with ctl := regMerge old val m (mbits 63 31 ||| mbits 10 0) } }
  else if off = 0x300 then s.setStack k { st with flipCtl := regMerge old val m (mbits 63 62 ||| mbits 30 0) }
  else if 0x308 ≤ off ∧ off < 0x328 then
    let lo := 8 * (off - 0x308)
    s.setStack k { st with flipData := setBf st.flipData (lo + 63) lo (regMerge old val m (mbits 63 0)).toNat }
  else if off = 0x328 then s.setStack k { st with flipCheck := BitVec.ofNat 32 (regMerge old val m (mbits 31 0)).toNat }
  else if off = 0x380 then
    let v := regMerge old val m (mbits 62 56 ||| mbits 50 32 ||| mbits 30 0)
    if st.remapBusy then s
    else
      match bf v 62 61 with
      | 0 => s.setStack k { st with remapReg := v }
      | 1 => s.remapInstallOp k (bf v 60 56) (bf v 30 0) (bf v 50 32)
      | 2 => (execRemapRemove k (bf v 60 56) s).st s
      | _ => s
  else s

/-! ## Translation units (chapter 09), routers, interfaces and post routers (R272) -/

/-- The word at an offset of translation unit d's block. -/
def State.xlateReg (s : State) (d off : Nat) : Nat :=
  let x := s.xl d
  if off = 0x000 then (if d < 12 then 0 else b2n x.physEn)
  else if off = 0x008 then x.asidReg.toNat
  else if 0x040 ≤ off ∧ off < 0x060 then (tget 0 x.filter ((off - 0x040) / 8)).toNat
  else if off = 0x080 then x.slots.length
  else if 0x100 ≤ off ∧ off < 0x130 then (tget 0 x.count ((off - 0x100) / 8)).toNat
  else 0

/-- Write the word at an offset of translation unit d's block. -/
def State.xlateRegWrite (s : State) (d off val m : Nat) : State :=
  let x := s.xl d
  let old := s.xlateReg d off
  if off = 0x000 then (if d < 12 then s else s.setXl d { x with physEn := (regMerge old val m 1).getLsbD 0 })
  else if off = 0x008 then s.setXl d { x with asidReg := regMerge old val m (mbits 51 16 ||| 1) }
  else if 0x040 ≤ off ∧ off < 0x060 then
    s.setXl d { x with filter := tset x.filter ((off - 0x040) / 8) (regMerge old val m (mbits 41 32 ||| mbits 25 16 ||| mbits 11 0)) }
  else s

/-- The word at an offset of bulk router r of die code d. -/
def State.routerReg (s : State) (d r off : Nat) : Nat :=
  let x := s.router d r
  if off < 0x58 then (tget 0 x.gslot (off / 8)).toNat
  else if 0x1000 ≤ off ∧ off < 0x9000 then (tget 0 x.circ ((off - 0x1000) / 8)).toNat
  else 0

/-- Write the word at an offset of a bulk router: a GSLOT with more than 32 slots is ignored (R258). -/
def State.routerRegWrite (s : State) (d r off val m : Nat) : State :=
  let x := s.router d r
  let old := s.routerReg d r off
  if off < 0x58 then
    let v := regMerge old val m (mbits 63 0)
    if ones 64 v.toNat > 32 then s else s.setRouter d r { x with gslot := tset x.gslot (off / 8) v }
  else if 0x1000 ≤ off ∧ off < 0x9000 then
    s.setRouter d r { x with circ := tset x.circ ((off - 0x1000) / 8) (regMerge old val m (mbits 63 63 ||| mbits 10 0)) }
  else s

/-- The word at an offset of network interface i. -/
def State.nifReg (s : State) (i off : Nat) : Nat :=
  let x := s.nif i
  if off < 0x200 then (tget 0 x.alt (off / 8)).toNat
  else if off = 0x200 then nf x.guar.toNat 63 0
  else if off = 0x208 then nf x.guar.toNat 127 64
  else if 0x400 ≤ off ∧ off < 0x430 then (tget 0 x.stat ((off - 0x400) / 8)).toNat
  else if 0x440 ≤ off ∧ off < 0x4C0 then (tget 0 x.stat (6 + (off - 0x440) / 8)).toNat
  else 0

/-- Write the word at an offset of network interface i. -/
def State.nifRegWrite (s : State) (i off val m : Nat) : State :=
  let x := s.nif i
  let old := s.nifReg i off
  if off < 0x200 then
    s.setNif i { x with alt := tset x.alt (off / 8) (regMerge old val m (mbits 63 63 ||| mbits 61 0)) }
  else if off = 0x200 then s.setNif i { x with guar := setBf x.guar 63 0 (regMerge old val m (mbits 16 0)).toNat }
  else if off = 0x208 then s.setNif i { x with guar := setBf x.guar 127 64 (regMerge old val m (mbits 63 0)).toNat }
  else s

/-- The word at an offset of a post router or stop. -/
def State.postReg (s : State) (d r off : Nat) : Nat := if off < 0x800 then (s.barEnt d r (off / 8)).toNat else 0

/-- Write BAR_ENTRY: PHASE and COUNT are read only (R267). -/
def State.postRegWrite (s : State) (d r off val m : Nat) : State :=
  if off < 0x800 then
    s.setBar d r (off / 8) (regMerge (s.postReg d r off) val m (mbits 63 62 ||| mbits 60 56 ||| mbits 47 16 ||| mbits 7 0))
  else s

/-! ## Sites (R291–R298) -/

/-- STATE of a site. -/
def SiteMode.code : SiteMode → Nat
  | .off => 0 | .negotiating => 1 | .training => 2 | .up => 3 | .resetting => 4 | .down => 5

/-- The word at an offset of site n's block. -/
def State.siteReg (s : State) (n off : Nat) : Nat :=
  let x := s.site n
  if off = 0x000 then packN [(32, x.attachEn.toNat), (4, x.mode.code), (1, b2n x.fence)]
  else if off = 0x010 then packN [(32, x.pNow), (16, x.pGrant), (1, b2n x.ovr), (0, b2n x.throttled)]
  else if 0x100 ≤ off ∧ off < 0x130 then (tget 0 x.err ((off - 0x100) / 8)).toNat
  else if 0x200 ≤ off ∧ off < 0x280 then
    packN ((List.range 8).map (fun j => (8 * j, (tget [] x.spares ((off - 0x200) + j)).length)))
  else 0

/-- Write the word at an offset of site n's block: SITE_CTL.RESET and SITE_POWER.P_GRANT. -/
def State.siteRegWrite (s : State) (n off val m : Nat) : State :=
  if off = 0x000 then (if nbit val 0 && nbit m 0 then s.siteCtlReset n else s)
  else if off = 0x010 ∧ nf m 31 16 ≠ 0 then s.regrant n (nf (regMerge (s.siteReg n off) val m (mbits 31 16)).toNat 31 16)
  else s

/-! ## Winnow routers and sieve units (chapters 03, 07) -/

/-- The word at an offset of winnow router f. -/
def State.winReg (s : State) (f off : Nat) : Nat :=
  let x := s.win f
  if off = 0x1000 then x.ctx.toNat
  else if off = 0x1008 then packN [(32, x.errCount.toNat), (24, x.lastErr.toNat), (16, x.rounds.length), (0, x.buf.length)]
  else if off = 0x1010 then packN [(32, x.letters.toNat), (0, x.records.toNat)]
  else 0

/-- The word at an offset of sieve unit v. -/
def State.svReg (s : State) (v off : Nat) : Nat :=
  let x := s.sv v
  if off = 0x1000 then x.ctx.toNat
  else if off = 0x1008 then
    packN [(32, x.errCount.toNat), (24, x.lastErr.toNat), (8, x.heldReqs.length), (7, b2n (x.running != [])), (0, x.queue.length)]
  else if off = 0x1010 then x.scored.toNat
  else if off = 0x1018 then packN [(32, x.selects.toNat), (0, x.seals.toNat)]
  else 0

/-! ## The map -/

/-- A register block of the hub space. -/
inductive HubBlock where
  | stack (k : Nat) | xlate (d : Nat) | router (d r : Nat) | core (g : Nat) | cluster (c : Nat) | nif (i : Nat) | post (d r : Nat)
  | site (n : Nat) | win (f : Nat) | sieve (v : Nat) | aperture (n : Nat)
  deriving DecidableEq, Repr

/-- The block and the offset in it at an offset of the hub register space; none where the map has nothing. -/
def hubBlock (o : Nat) : Option (HubBlock × Nat) :=
  let pick (base size count : Nat) : Option (Nat × Nat) :=
    if base ≤ o ∧ o < base + size * count then some ((o - base) / size, (o - base) % size) else none
  ((pick 0x10000000 0x10000 12).map (fun x => (HubBlock.stack x.1, x.2))).orElse fun _ =>
  ((pick 0x20000000 0x10000 16).map (fun x => (HubBlock.xlate x.1, x.2))).orElse fun _ =>
  ((pick 0x30000000 0x10000 4096).bind (fun x =>
    let d := x.1 / 256
    let r := x.1 % 256
    if routerExists d r then some (HubBlock.router d r, x.2) else none)).orElse fun _ =>
  ((pick 0x40000000 0x1000 2016).map (fun x => (HubBlock.core x.1, x.2))).orElse fun _ =>
  ((pick 0x48000000 0x1000 252).map (fun x => (HubBlock.cluster x.1, x.2))).orElse fun _ =>
  ((pick 0x50000000 0x1000 392).map (fun x => (HubBlock.nif x.1, x.2))).orElse fun _ =>
  ((pick 0x60000000 0x10000 1024).bind (fun x =>
    if postExists (x.1 / 64) (x.1 % 64) then some (HubBlock.post (x.1 / 64) (x.1 % 64), x.2) else none)).orElse fun _ =>
  ((pick 0x70000000 0x10000 12).map (fun x => (HubBlock.site x.1, x.2))).orElse fun _ =>
  ((pick 0x80000000 0x1000000 4).map (fun x => (HubBlock.win x.1, x.2))).orElse fun _ =>
  ((pick 0x90000000 0x100000 16).map (fun x => (HubBlock.sieve x.1, x.2))).orElse fun _ =>
  ((pick 0xC0000000 0x1000000 12).map (fun x => (HubBlock.aperture x.1, x.2)))

/-- Is a site vacant for its cores: a guest die's, or down (R21, R285). -/
def State.vacantSite (s : State) (n : Nat) : Bool := s.guestSite n || (s.site n).mode == .down

/-- The 64-bit word at an aligned offset of the hub register space. Reserved offsets and vacant numbers read as zero. -/
def State.hubWord (s : State) (o : Nat) : Nat :=
  match hubBlock o with
  | some (.stack k, x) => s.stackReg k x
  | some (.xlate d, x) => s.xlateReg d x
  | some (.router d r, x) => if d ≥ 4 ∧ s.guestSite (d - 4) then 0 else s.routerReg d r x
  | some (.core g, x) => if s.vacantSite (siteOfCore g) then 0 else s.coreReg g x
  | some (.cluster c, x) => if s.vacantSite (c / 21) then 0 else s.clusterReg c x
  | some (.nif i, x) => if (s.ifRouter i).isSome then s.nifReg i x else 0
  | some (.post d r, x) => if d ≥ 4 ∧ s.guestSite (d - 4) then 0 else s.postReg d r x
  | some (.site n, x) => s.siteReg n x
  | some (.win f, x) => s.winReg f x
  | some (.sieve v, x) => s.svReg v x
  | some (.aperture _, _) => 0
  | none => 0

/-- Write the bytes in `m` of the 64-bit word at an aligned offset of the hub register space. -/
def State.hubWordWrite (s : State) (o val m : Nat) : State :=
  match hubBlock o with
  | some (.stack k, x) => s.stackRegWrite k x val m
  | some (.xlate d, x) => s.xlateRegWrite d x val m
  | some (.router d r, x) => if d ≥ 4 ∧ s.guestSite (d - 4) then s else s.routerRegWrite d r x val m
  | some (.core g, x) => if s.vacantSite (siteOfCore g) then s else s.coreRegWrite g x val m
  | some (.cluster c, x) => if s.vacantSite (c / 21) then s else s.clusterRegWrite c x val m
  | some (.nif i, x) => if (s.ifRouter i).isSome then s.nifRegWrite i x val m else s
  | some (.post d r, x) => if d ≥ 4 ∧ s.guestSite (d - 4) then s else s.postRegWrite d r x val m
  | some (.site n, x) => s.siteRegWrite n x val m
  | some (.win f, x) => if x = 0x1000 then s.winCtxWrite f (regMerge (s.winReg f x) val m (mbits 63 0)) else s
  | some (.sieve v, x) => if x = 0x1000 then s.svCtxWrite v (regMerge (s.svReg v x) val m (mbits 63 0)) else s
  | some (.aperture _, _) => s
  | none => s

/-- Bytes of the hub register space. -/
def State.hubBytes (s : State) (o n : Nat) : Bytes :=
  slice (((List.range ((o % 8 + n + 7) / 8)).map (fun i => le 8 (s.hubWord (o / 8 * 8 + 8 * i)))).flatten) (o % 8) n

/-- Write bytes to the hub register space under a byte mask, word by word. -/
def State.hubPut (s : State) (o : Nat) (bs : Bytes) (mask : Nat) : State :=
  let start := o / 8 * 8
  let pad := zeros (o % 8) ++ bs
  (List.range ((pad.length + 7) / 8)).foldl (fun s i =>
    let on (j : Nat) : Bool := let q := 8 * i + j; decide (o % 8 ≤ q ∧ q < pad.length) && nbit mask (q - o % 8)
    let m := ((List.range 8).filter on).foldl (fun a j => a + 0xFF * 256 ^ j) 0
    if m = 0 then s else s.hubWordWrite (start + 8 * i) (rd pad (8 * i) 8) m) s

/-- The answer a record's write got, if it has one already: what the last message sent says (R74, R80, R193). -/
def State.recordEnd (old s : State) : NetEnd :=
  if s.out.length = old.out.length then .later
  else
    match s.out.head? with
    | some (.writeAnswer _ _ c) => .now c []
    | _ => .later

/-- The core that a record of a slot comes from, as the slot's router or unit sees it: the slot's owner when it belongs to the
interface's cluster, otherwise another core of the cluster. -/
def slotWriter (i slot : Nat) : Option Nat := if i < 252 then (if slot / 16 = i then some (slot / 2) else some (i * 8)) else none

/-- A packet that writes one whole record to a winnow router or sieve unit is the record's own command (R74, R191). -/
def State.recordWrite (s : State) (i : Nat) (b : HubBlock) (x : Nat) (p : Packet) : Option (NetEnd × State) :=
  if p.typ ≠ 1 ∨ ¬ (i < 252 ∨ ifFirmware i) then none
  else
    match b with
    | .win f =>
      if x < 0x1000 then
        let t := (if rdb p.data 0 = 2 then execRoundClose f (slotWriter i 4096) p.data s else execRoundOpen f (slotWriter i 4096) p.data s).st s
        some (s.recordEnd t, t)
      else if x ≥ 0x800000 ∧ x < 0x800000 + 4032 * 2048 ∧ x % 2048 = 0 then
        let slot := (x - 0x800000) / 2048
        let t := (execGateRecord f (slotWriter i slot) slot p.data s).st s
        some (s.recordEnd t, t)
      else none
    | .sieve v =>
      if x ≥ 0x80000 ∧ x < 0x80000 + 4032 * 64 ∧ x % 64 = 0 then
        let slot := (x - 0x80000) / 64
        let t := (if rdb p.data 0 = 2 then execSieveSeal v (slotWriter i slot) slot p.data s else execSieveSelect v (slotWriter i slot) slot p.data s).st s
        some (s.recordEnd t, t)
      else none
    | _ => none

/-- A packet at the hub register space: firmware reads and writes registers and reaches guest dies through their apertures;
cores write records; any other access is refused (R97, R262, R297). -/
def State.hubAccess (s : State) (i : Nat) (p : Packet) : NetEnd × State :=
  let o := p.addr.toNat - 0xF000000000
  let n := 32 * p.code.toNat
  match hubBlock o with
  | none => (.now (if ifFirmware i then 0 else 1) (if p.typ = 0 then mark false (zeros n) else []), s)
  | some (b, x) =>
    match s.recordWrite i b x p with
    | some r => r
    | none =>
      if !ifFirmware i then (.now 1 [], s)
      else
        match b with
        | .aperture k =>
          if s.guestSite k then
            if x / 0x80000 > 20 then (.now 1 [], s)
            else
              let (c, s) := s.dieSend k { att := x / 0x80000, tag := p.tag, typ := p.typ.toNat, addr := x % 0x80000
                                          len := if p.typ = 0 then n else p.data.length, iface := some i } p.data
              (if c = 0 then .later else .now c [], s)
          else (.now 0 (if p.typ = 0 then mark false (zeros n) else []), s)
        | _ =>
          if p.typ = 0 then (.now 0 (mark false (s.hubBytes o n)), s) else (.now 0 [], s.hubPut o p.data p.mask)

/-- The hub access that a packet's target performs. -/
def hubOf : HubAccess := fun s i p => s.hubAccess i p

/-- PACKET_READ: a READ of interface i travels to its destination and its DATA comes back (R251). -/
def execPacketRead (i : Nat) (p : Packet) (loc : Bool) (par : Parity) (d r : Nat) (s : State) : Out :=
  s.atIf i (s.travel i p loc par d r 8 (fun p s => State.pktRead hubOf s i p loc))

/-- PACKET_WRITE: a WRITE of interface i travels to its destination and its ACK comes back (R251). -/
def execPacketWrite (i : Nat) (p : Packet) (loc : Bool) (par : Parity) (d r : Nat) (s : State) : Out :=
  s.atIf i (s.travel i p loc par d r 9 (fun p s => State.pktWrite hubOf s i p loc))

/-- REGISTER_WRITE: a naturally aligned write of 1, 2, 4 or 8 bytes by firmware to a hub register, or of 4 or 8 bytes by a host
to its status block (R13, R324). -/
def execRegisterWrite (r : RegAt) (value : W64) (s : State) : Out :=
  match r with
  | .hub phys size =>
    .next (if 0xF000000000 ≤ phys ∧ phys + size ≤ 0xF100000000 ∧ [1, 2, 4, 8].contains size ∧ phys % size = 0 then
      s.hubPut (phys - 0xF000000000) (le size value.toNat) (2 ^ size - 1)
    else s)
  | .bar p f off size => atFn p f (if (s.hport p).up ∧ s.serves then s.barWrite p f off size value.toNat else s)

end Sys2Proof.Machine
end

