-- ==== Sys2Proof/Machine/Letters.lean ====
section
/-! DEFINITION. How a letter is executed: its turn, the checks of R346, results (R341–R350); and the letters of trays,
buffers and requests (R354, R362, R363, R367, R368). -/
namespace Sys2Proof.Machine

/-! ## Status codes (R347) -/

/-- DONE -/
def stDone : Nat := 0x0000
/-- ACCEPTED -/
def stAccepted : Nat := 0x0001
/-- BAD_PARAM -/
def stBadParam : Nat := 0x0101
/-- BAD_LENGTH -/
def stBadLength : Nat := 0x0102
/-- RESULT_SMALL -/
def stResultSmall : Nat := 0x0104
/-- NO_SUCH -/
def stNoSuch : Nat := 0x0105
/-- NOT_PERMITTED -/
def stNotPermitted : Nat := 0x0200
/-- BAD_SEAL -/
def stBadSeal : Nat := 0x0201
/-- BAD_SIGNATURE -/
def stBadSignature : Nat := 0x0202
/-- NOT_BOUND -/
def stNotBound : Nat := 0x0203
/-- ROLLBACK -/
def stRollback : Nat := 0x0204
/-- BUSY -/
def stBusy : Nat := 0x0300
/-- NO_RESOURCE -/
def stNoResource : Nat := 0x0301
/-- ABORTED -/
def stAborted : Nat := 0x0401
/-- CANCELLED -/
def stCancelled : Nat := 0x0402
/-- UNFIT -/
def stUnfit : Nat := 0x0500
/-- IN_RESET -/
def stInReset : Nat := 0x0501
/-- SHUTTING_DOWN -/
def stShuttingDown : Nat := 0x0502

/-! ## The turn of a letter (R334, R348–R350) -/

/-- Opcode of a letter. -/
def opOf (b : Bytes) : Nat := rd b 2 2
/-- CONTEXT of a letter. -/
def ctxOf (b : Bytes) : Nat := rd b 8 2
/-- SESSION of a letter. -/
def sessOf (b : Bytes) : Nat := rd b 12 4

/-- MAP_RANGE and UNMAP_RANGE, which run concurrently for different address spaces (R349). -/
def isMap (b : Bytes) : Bool := opOf b == 0x0502 || opOf b == 0x0503

/-- Must a letter wait for an earlier one that is not answered (R349, R350). -/
def waitsFor (b e : Bytes) : Bool :=
  let cfg (x : Bytes) : Bool := match opRow (opOf x) with | some r => r.cfg | none => false
  (cfg b && cfg e && !(isMap b && isMap e && ctxOf b != ctxOf e))
    || (isSessOp (opOf b) && isSessOp (opOf e) && sessOf b == sessOf e && sessOf b != 0)

/-- The letters taken before one from a source and not yet answered. -/
def State.earlier (s : State) (src : LSrc) : List LetterQ := s.letters.takeWhile (fun q => q.src != src)

/-- May the letter of a source start now: it is taken, has not started, and waits for no earlier one; the sorting office
takes no letter of a function for which more than 4,096 replies are held (R334). -/
def State.turn (s : State) (src : LSrc) (b : Bytes) : Bool :=
  s.letters.any (fun q => q.src == src && !q.busy)
    && !(s.earlier src).any (fun q => match s.letterAt q.src with | some e => waitsFor b e | none => false)
    && (match src with
        | .host p f _ => decide ((s.fn p f).held.length ≤ 4096)
        | .mgmt _ => true)

/-- Mark a letter whose work has begun and whose answer comes later. -/
def State.busyLetter (s : State) (src : LSrc) : State :=
  { s with letters := s.letters.map (fun q => if q.src == src then { q with busy := true } else q) }

/-- The meter's number of a REQUEST_SUBMIT letter. -/
def State.serialOf (s : State) (src : LSrc) : Nat :=
  match s.letters.find? (fun q => q.src == src) with
  | some q => q.serial
  | none => 0

/-! ## The checks of R346 -/

/-- A letter's own part of the checks and its effect: the field that names a missing object, the first field out of range, its
own conditions as status and DETAIL, and what it does. -/
structure Sem where
  miss : State → LSrc → Bytes → Option Nat := fun _ _ _ => none
  range : State → LSrc → Bytes → Option Nat := fun _ _ _ => none
  own : State → LSrc → Bytes → Option (Nat × Nat) := fun _ _ _ => none
  go : State → LSrc → Bytes → State

/-- The first of a list of checks (fails, detail) that fails. -/
def firstBad : List (Bool × Nat) → Option Nat
  | [] => none
  | (bad, d) :: t => if bad then some d else firstBad t

/-- Does a letter come from a host function. -/
def isHost : LSrc → Bool
  | .host _ _ _ => true
  | .mgmt _ => false

/-- Does a context exist. -/
def State.ctxLive (s : State) (c : Nat) : Bool := (tfind s.ctxs c).isSome

/-- LENGTH of a letter of a row (R345). -/
def OpRow.length (row : OpRow) (b : Bytes) : Nat := if row.len = 0 then 48 + 8 * ((rd b 32 2 + 1) / 2) else row.len

/-- Is the partition of a context in reset. -/
def State.ctxInReset (s : State) (c : Nat) : Bool := (s.part (s.ctx c).part).phase != .none

/-- Checks 1–5 of R346: LENGTH, the state of the device, and the use of CONTEXT and SESSION (R341). With no firmware accepted
the ROM serves IDENTIFY and NV_RECORD_READ alone, and every other letter is BUSY (R340, R467). -/
def State.checkHead (s : State) (row : OpRow) (src : LSrc) (b : Bytes) : Option (Nat × Nat) :=
  let c := ctxOf b
  let i := sessOf b
  if rd b 0 2 ≠ row.length b then some (stBadLength, 0)
  else if s.dev.mode = .unfit ∧ ¬ row.unfit then some (stUnfit, 0)
  else if s.dev.mode = .shuttingDown then some (stShuttingDown, 0)
  else if s.dev.bist ∧ ¬ row.unfit then some (stBusy, 0)
  else if s.dev.mode = .starting ∧ ¬ isHost src ∧ ¬ row.early then some (stBusy, 0)
  else if s.board.stage = 2 ∧ ¬ isHost src ∧ rd b 2 2 ≠ 0x0101 ∧ rd b 2 2 ≠ 0x0104 then some (stBusy, 0)
  else if (match row.ctx with | .unused => c != 0xFFFF | .must => decide (c > 63) | .may => decide (c > 63 ∧ c ≠ 0xFFFF)) then
    some (stBadParam, 8)
  else if (match row.sess with | .unused => i != 0 | .must => i == 0 | .may => false) then some (stBadParam, 12)
  else none

/-- Checks 6–8: the named context and session exist, the session is the function's own, the partition is not in reset. -/
def State.checkNames (s : State) (op : Nat) (row : OpRow) (src : LSrc) (b : Bytes) (miss : Option Nat) : Option (Nat × Nat) :=
  let c := ctxOf b
  let i := sessOf b
  let named := row.ctx != .unused && c != 0xFFFF
  let kept := op == 0x0603 && (s.mctx c).lastRcpt.isSome
  let q := s.sess i
  if named ∧ ¬ s.ctxLive c ∧ ¬ kept then some (stNoSuch, 8)
  else if i ≠ 0 ∧ (tfind s.serve.sessions i).isNone then some (stNoSuch, 12)
  else
    match miss with
    | some d => some (stNoSuch, d)
    | none =>
      let foreign := match src with
        | .host p f _ =>
          (i != 0 && !(q.p == p && q.f == f)) || (op == 0x0401 && !(s.ctx c).funcs.getLsbD (f + 32 * p))
        | .mgmt _ => false
      if foreign then some (stNotPermitted, 0)
      else if named ∧ s.ctxLive c ∧ s.ctxInReset c then some (stInReset, 0)
      else none

/-- The result descriptor in its range (R341–R343). -/
def State.checkResult (s : State) (src : LSrc) (b : Bytes) : Option Nat :=
  let off := rd b 32 8
  let len := rd b 40 4
  match src with
  | .host p f _ =>
    match (s.fn p f).tray with
    | none => none
    | some t => firstBad [(off % 64 != 0, 32), (t.resLen != 0 && decide (off + len > t.resLen), 32)]
  | .mgmt _ => firstBad [(decide (len < 1 ∨ len > 4032), 40)]

/-- Every check of R346, in order. -/
def State.check (s : State) (op : Nat) (row : OpRow) (sem : Sem) (src : LSrc) (b : Bytes) : Option (Nat × Nat) :=
  (s.checkHead row src b).orElse fun _ =>
  (s.checkNames op row src b (sem.miss s src b)).orElse fun _ =>
  (if row.res then (s.checkResult src b).map (fun d => (stBadParam, d)) else none).orElse fun _ =>
  ((sem.range s src b).map (fun d => (stBadParam, d))).orElse fun _ =>
  sem.own s src b

/-- Execute the letter of a source, if one of the opcode is taken there and its turn has come. -/
def State.runLetter (s : State) (op : Nat) (sem : Sem) (src : LSrc) : State :=
  match s.letterAt src, opRow op with
  | some b, some row =>
    if opOf b ≠ op ∨ ¬ s.turn src b then s
    else
      match s.check op row sem src b with
      | some (st, d) => s.answerErr src st d
      | none => sem.go s src b
  | _, _ => s

/-- Does the command name a slot of a function or of the management path. -/
def atSrc (src : LSrc) (s : State) : Out :=
  match src with
  | .host p f k => if p < 2 ∧ f < 32 ∧ k < 64 then .next s else .fault (.noSuchUnit "letterbox slot" k)
  | .mgmt k => if k < 4 then .next s else .fault (.noSuchUnit "management slot" k)

/-- DONE with a body. -/
def State.done (s : State) (src : LSrc) (body : Bytes) : State := s.answer src stDone body []

/-! ## Result letters (R342–R344) -/

/-- RESULT_SMALL, with the bytes needed, when the host gave too little room; a function without a result region has none
(R342, R354). -/
def State.tooSmall (s : State) (src : LSrc) (b : Bytes) (total : Nat) : Option (Nat × Nat) :=
  match src with
  | .host p f _ =>
    match (s.fn p f).tray with
    | some t => if t.resLen = 0 ∨ total > rd b 40 4 then some (stResultSmall, total) else none
    | none => some (stResultSmall, total)
  | .mgmt _ => none

/-- DONE of a result letter: the whole result is written to the result region before the stamp, or the bytes asked for follow
the reply inline; the body holds BYTES, TOTAL and the letter's own fields (R342–R344). -/
def State.result (s : State) (src : LSrc) (own res : Bytes) : State :=
  match s.letterAt src with
  | none => s
  | some b =>
    let off := rd b 32 8
    match src with
    | .host p f _ =>
      let s := match (s.fn p f).tray with
        | some t => if res = [] then s else s.emit (.hostWrite f (hostPhys p (t.resBus + off)) res)
        | none => s
      s.answer src stDone (le 4 res.length ++ le 4 res.length ++ own) []
    | .mgmt _ =>
      let data := (res.drop off).take (rd b 40 4)
      s.answer src stDone (le 4 data.length ++ le 4 res.length ++ own) data

/-- A result letter whose result is a function of the state. -/
def Sem.read (res : State → Bytes → Bytes) (own : State → Bytes → Bytes := fun _ _ => [])
    (range : State → LSrc → Bytes → Option Nat := fun _ _ _ => none)
    (miss : State → LSrc → Bytes → Option Nat := fun _ _ _ => none) : Sem where
  miss := miss
  range := range
  own := fun s src b => s.tooSmall src b (res s b).length
  go := fun s src b => s.result src (own s b) (res s b)

/-! ## Trays (R354) -/

/-- Is n a power of two from 2^lo to 2^hi. -/
def isPow2 (lo hi n : Nat) : Bool := (List.range (hi + 1 - lo)).any (fun i => n == 2 ^ (lo + i))

/-- TRAY_SET: the answer is the first entry of the new tray, with count 1; replies still held follow it (R330, R354). -/
def semTraySet : Sem where
  range := fun _ _ b =>
    let n := rd b 40 4
    let rl := rd b 56 4
    firstBad [(rd b 32 8 % 4096 != 0 || decide (rd b 32 8 + 64 * n > 2 ^ 43), 32), (!isPow2 6 16 n, 40),
      (rl != 0 && (rd b 48 8 % 4096 != 0 || decide (rd b 48 8 + rl > 2 ^ 43)), 48), (rl % 4096 != 0 || decide (rl > 67108864), 56)]
  go := fun s src b =>
    match src with
    | .host p f k =>
      let x := s.fn p f
      let t : Tray := { bus := rd b 32 8, n := rd b 40 4, virgin := rd b 40 4, resBus := rd b 48 8, resLen := rd b 56 4 }
      let r : HostReply := { entry := letterEntry b k stDone [], slot := some k, noIntr := nbit (rd b 4 2) 0 }
      ((s.unqueue src).setFn p f { x with tray := some t, held := r :: x.held }).flushTray p f
    | .mgmt _ => s

/-- TRAY_SET (R354). -/
def execTraySet (src : LSrc) (s : State) : Out := atSrc src (s.runLetter 0x0105 semTraySet src)

/-! ## Bounce buffers (R336, R368) -/

/-- Does a range lie inside a buffer of a function and session (R336). -/
def State.inBuf (s : State) (p f sess bus len : Nat) : Bool :=
  (s.fn p f).bufs.any (fun e => e.2.session == sess && decide (e.2.bus ≤ bus ∧ bus + len ≤ e.2.bus + e.2.len))

/-- BOUNCE_SET with OP add. -/
def semBounceAdd : Sem where
  range := fun _ _ b =>
    let bus := rd b 40 8
    let len := rd b 48 8
    firstBad [(rdb b 32 != 1, 32), (decide (rdb b 33 > 63), 33), (bus % 4096 != 0 || decide (bus + len > 2 ^ 43), 40),
      (len % 4096 != 0 || decide (len = 0 ∨ len > 2 ^ 30), 48)]
  own := fun s src b =>
    match src with
    | .host p f _ => if (tfind (s.fn p f).bufs (rdb b 33)).isSome then some (stBusy, 0) else none
    | .mgmt _ => none
  go := fun s src b =>
    match src with
    | .host p f _ =>
      let x := s.fn p f
      (s.setFn p f { x with bufs := tset x.bufs (rdb b 33) { bus := rd b 40 8, len := rd b 48 8, session := sessOf b } }).done src []
    | .mgmt _ => s

/-- Does a request still need a buffer: its output range, or its prompt while it is not yet pulled (R336). -/
def ReqState.needs (r : ReqState) (x : BounceBuf) : Bool :=
  overlap x.bus x.len r.outBus r.outLen || (r.phase == .pulling && overlap x.bus x.len r.promptBus r.promptLen)

/-- BOUNCE_SET with OP withdraw: the requests that need the buffer end with ABORTED. -/
def semBounceWithdraw : Sem where
  miss := fun s src b =>
    match src with
    | .host p f _ =>
      match tfind (s.fn p f).bufs (rdb b 33) with
      | some x => if x.session = sessOf b then none else some 33
      | none => if rdb b 33 > 63 then none else some 33
    | .mgmt _ => none
  range := fun _ _ b => firstBad [(decide (rdb b 33 > 63), 33)]
  go := fun s src b =>
    match src with
    | .host p f _ =>
      let x := s.fn p f
      match tfind x.bufs (rdb b 33) with
      | none => s
      | some buf =>
        let s := s.setFn p f { x with bufs := tdel x.bufs (rdb b 33) }
        let s := s.abortReqs (fun r => r.p == p && r.f == f && r.sess == buf.session && r.needs buf)
        s.done src []
    | .mgmt _ => s

/-- Is the letter of a source a BOUNCE_SET with OP withdraw. -/
def State.isWithdraw (s : State) (src : LSrc) : Bool :=
  match s.letterAt src with
  | some b => opOf b == 0x0406 && rdb b 32 == 2
  | none => false

/-- BOUNCE_SET_ADD: a BOUNCE_SET letter whose OP is not withdraw (R368). -/
def execBounceSetAdd (src : LSrc) (s : State) : Out :=
  atSrc src (if s.isWithdraw src then s else s.runLetter 0x0406 semBounceAdd src)
/-- BOUNCE_SET_WITHDRAW (R336, R368). -/
def execBounceSetWithdraw (src : LSrc) (s : State) : Out :=
  atSrc src (if s.isWithdraw src then s.runLetter 0x0406 semBounceWithdraw src else s)

/-! ## Requests (R363, R367) -/

/-- Requests that have not ended. -/
def State.liveReqs (s : State) : List (Nat × ReqState) := s.serve.reqs.filter (fun e => e.2.phase != .ended)

/-- REQUEST_SUBMIT. -/
def semSubmit : Sem where
  range := fun s src b =>
    match src with
    | .host p f _ =>
      let i := sessOf b
      let ol := rd b 56 4
      firstBad [((s.sess i).ctx != ctxOf b, 8), (decide (rd b 40 4 = 0) || !s.inBuf p f i (rd b 32 8) (rd b 40 4), 32),
        (decide (rd b 44 4 < 1 ∨ rd b 44 4 > 1048576), 44), (!s.inBuf p f i (rd b 48 8) ol, 48),
        (ol % 4096 != 0 || decide (ol < 4096), 56), (decide (rd b 60 2 < 1 ∨ rd b 60 2 > 256), 60)]
    | .mgmt _ => none
  own := fun s src _ =>
    match src with
    | .host p f _ =>
      let l := s.liveReqs
      if (l.filter (fun e => e.2.p == p && e.2.f == f)).length ≥ 1024 ∨ l.length ≥ 16384 then some (stNoResource, 0) else none
    | .mgmt _ => none
  go := fun s src b =>
    match src with
    | .host p f _ =>
      let id := s.serve.nextReq
      let r : ReqState :=
        { p := p, f := f, ctx := ctxOf b, sess := sessOf b, seq := rd b 10 2, cookie := rd b 16 8, noIntr := nbit (rd b 4 2) 0
          serial := s.serialOf src, promptBus := rd b 32 8, promptLen := rd b 40 4, maxOut := rd b 44 4
          outBus := rd b 48 8, outLen := rd b 56 4, perReply := rd b 60 2, place := s.serve.nextPlace }
      let s := s.setServe { s.serve with nextReq := id + 1, nextPlace := s.serve.nextPlace + 1 }
      (s.putReq id r).answer src stAccepted (le 4 id) []
    | .mgmt _ => s

/-- REQUEST_SUBMIT: a new request, answered ACCEPTED (R363). -/
def execRequestSubmit (src : LSrc) (s : State) : Out := atSrc src (s.runLetter 0x0404 semSubmit src)

/-- REQUEST_CANCEL: the final TOKENS reply is stamped before the cancel's DONE (R367). -/
def semCancel : Sem where
  miss := fun s _ b =>
    match s.req (rd b 32 4) with
    | some r => if r.sess = sessOf b then none else some 32
    | none => some 32
  go := fun s src b =>
    match s.req (rd b 32 4) with
    | none => s
    | some r =>
      if r.phase = .ended then s.done src [1]
      else (s.endReq (rd b 32 4) stCancelled).done src [0]

/-- REQUEST_CANCEL (R367). -/
def execRequestCancel (src : LSrc) (s : State) : Out := atSrc src (s.runLetter 0x0405 semCancel src)

/-- SESSION_CLOSE (R362). -/
def semSessionClose : Sem where
  go := fun s src b => (s.closeSess (sessOf b)).done src []

/-- SESSION_CLOSE (R362). -/
def execSessionClose (src : LSrc) (s : State) : Out := atSrc src (s.runLetter 0x0403 semSessionClose src)

/-- SESSION_KEY_TIMEOUT: a session that has not received SESSION_KEY within 60 s is closed (R360). -/
def execSessionKeyTimeout (session : Nat) (s : State) : Out :=
  .next <|
    match tfind s.serve.sessions session with
    | some q => if q.okm = [] then s.closeSess session else s
    | none => s

end Sys2Proof.Machine
end

