-- ==== Sys2Proof/Machine/Power.lean ====
section
/-! DEFINITION. The housekeeping round, temperature thresholds, power budgets, the clock ratio and the wear gauges
(R155, R288, R293, R294, R436–R462). Dies are numbered 0–11 for the sites and 12–15 for the field dies. -/
namespace Sys2Proof.Machine

/-! ## Channels (R440, R442) -/

/-- KIND of a channel: 0 temperature, 1 wear, 2 voltage, 3 current (R440, R461). -/
def chKind (c : Nat) : Nat := if c < 302 then 0 else if c < 374 then 1 else if c < 435 then 2 else 3

/-- Temperature code of a whole number of °C (R442). -/
def tcode (c : Nat) : Nat := (c + 64) * 16

/-- A calibrated value: the reading after factory calibration corrected by the user offset (R462). -/
def calValue (c : Nat) (raw off : Int) : Int :=
  match chKind c with
  | 0 => raw + off
  | 2 => raw + 100 * off
  | 3 => raw + raw * off / 10000
  | _ => raw

/-- Limit of a user offset of a KIND (R462). -/
def calLimit (kind : Nat) : Int := if kind = 0 then 48 else if kind = 2 then 100 else if kind = 3 then 200 else 0

/-- Sensors of a die, by channel. -/
def dieSensors (d : Nat) : List Nat :=
  if d < 12 then (List.range 16).map (fun i => 16 * d + i) else (List.range 24).map (fun i => 192 + 24 * (d - 12) + i)

/-- Neighbours of a die sensor in its grid, 4 × 4 or 6 × 4 (R440, R443). -/
def neighbours (c : Nat) : List Nat :=
  let cols := if c < 192 then 4 else 6
  let base := if c < 192 then c / 16 * 16 else 192 + (c - 192) / 24 * 24
  let i := c - base
  let row := i / cols
  let col := i % cols
  ((if row > 0 then [i - cols] else []) ++ (if row < 3 then [i + cols] else []) ++ (if col > 0 then [i - 1] else [])
    ++ (if col + 1 < cols then [i + 1] else [])).map (base + ·)

/-- Insert ascending. -/
def insAsc (x : Int) : List Int → List Int
  | [] => [x]
  | y :: t => if x ≤ y then x :: y :: t else y :: insAsc x t

/-- Median; of an even number, the mean of the middle two, rounded down (log 63). -/
def median (l : List Int) : Option Int :=
  let q := l.foldr insAsc []
  let n := q.length
  if n = 0 then none
  else if n % 2 = 1 then some (q.getD (n / 2) 0)
  else some ((q.getD (n / 2 - 1) 0 + q.getD (n / 2) 0) / 2)

/-- Median of the non-suspect neighbours of a sensor in a set of readings. -/
def nbMedian (vals : Tbl Int) (suspect : List Nat) (c : Nat) : Option Int :=
  median (((neighbours c).filter (fun x => !suspect.contains x)).filterMap (tfind vals))

/-- Calibrated readings of all channels. -/
def PowerState.readings (p : PowerState) : Tbl Int := p.raw.map (fun e => (e.1, calValue e.1 e.2 (tget 0 p.user e.1)))

/-- Identifier of a die. -/
def uidDie (d : Nat) : W32 := if d < 12 then uidSite d else uid 0x01 (d - 12)

/-! ## Cross-checking (R443, R444) -/

/-- Mark a sensor suspect, and log it with its reading and the median. -/
def State.markSuspect (s : State) (c : Nat) (v med : Int) : State :=
  let d := if c < 192 then c / 16 else 12 + (c - 192) / 24
  ({ s with pwr := { s.pwr with suspect := sins c s.pwr.suspect } } : State).logAt 0x0503 (uidDie d) 0 (le 2 c ++ le 2 v.toNat ++ le 2 med.toNat)

/-- One sensor in a round: 3 rounds in a row more than 8 °C from the median, or without a reading, mark it. -/
def State.crossCheck (s : State) (vals : Tbl Int) (old : List Nat) (c : Nat) : State :=
  if old.contains c then s
  else
    let p := s.pwr
    match tfind vals c with
    | none =>
      let n := tget 0 p.gone c + 1
      let s : State := { s with pwr := { p with gone := tset p.gone c (min n 3) } }
      if n = 3 then s.markSuspect c 0xFFF ((nbMedian vals old c).getD 0xFFF) else s
    | some v =>
      let p := { p with gone := tdel p.gone c }
      match nbMedian vals old c with
      | none => { s with pwr := { p with off := tdel p.off c } }
      | some m =>
        if (v - m).natAbs > 128 then
          let n := tget 0 p.off c + 1
          let s : State := { s with pwr := { p with off := tset p.off c (min n 3) } }
          if n = 3 then s.markSuspect c v m else s
        else { s with pwr := { p with off := tdel p.off c } }

/-- Does die d have sensors that the hub cross-checks: a Varoft die in a site that is UP, or a field die. -/
def State.checked (s : State) (d : Nat) : Bool := decide (d ≥ 12) || (!s.guestSite d && (s.site d).mode == .up)

/-- Values of the round: a suspect sensor's is replaced by its neighbours' median where there is one (R443). -/
def State.roundVals (s : State) : Tbl Int :=
  let vals := s.pwr.readings
  s.pwr.suspect.foldl (fun t c =>
    match nbMedian vals s.pwr.suspect c with
    | some m => tset t c m
    | none => t) vals

/-- Field-die sensors beneath a site: two columns of its field die's grid (DEDUCED, log 63). -/
def beneath (n : Nat) : List Nat :=
  (List.range 4).flatMap (fun row => [192 + 24 * (n / 3) + 6 * row + 2 * (n % 3), 192 + 24 * (n / 3) + 6 * row + 2 * (n % 3) + 1])

/-- Hottest of a list of channels in the last round's values. -/
def State.hotOf (s : State) (l : List Nat) : Option Nat := (l.filterMap s.chan).foldl (fun m v => some (max (m.getD 0) v.toNat)) none

/-- Junction temperature of a die as a code: the highest of its readings and estimates; of a guest die that has been silent for
three rounds, the hottest reading beneath it plus 10 °C (R293, R445). -/
def State.junction (s : State) (d : Nat) : Option Nat :=
  if d < 12 ∧ s.guestSite d ∧ (s.site d).silent ≥ 3 then (s.hotOf (beneath d)).map (· + 160)
  else s.hotOf (dieSensors d)

/-- Suspect sensors of a die. -/
def State.suspects (s : State) (d : Nat) : Nat := ((dieSensors d).filter (fun c => s.pwr.suspect.contains c)).length

/-! ## Thermal shutdown (R447) -/

/-- Steps 1–3: the compute clocks stop, guest sites get RESET_REQ, the device is SHUTTING_DOWN and sends FAREWELL; the record
and the rails follow in THERMAL_RAILS_OFF. -/
def State.thermalTrip (s : State) (unit : W32) (detail : Bytes) : State :=
  if s.board.tripping then s
  else
    let s := s.stopCompute.toGuests (fun _ => .resetReq)
    let s := (s.setMode .shuttingDown).bumpGen.msi1
    let s := s.sendFarewell 4
    { s with board := { s.board with tripping := true, tripUnit := unit, tripDetail := detail } }

/-- DETAIL of a THERMAL_SHUTDOWN record (R451). -/
def tripBytes (c code med c2 : Nat) : Bytes := le 2 c ++ le 2 code ++ le 2 med ++ le 2 c2

/-! ## Thresholds (R445) -/

/-- Memory throttling of a field die's three controllers by its THROTTLE state (R445). -/
def State.fieldThrottle (s : State) (f lvl : Nat) : State :=
  (List.range 3).foldl (fun s j => let k := 3 * f + j; s.setStack k { s.stack k with thrDie := lvl }) s

/-- A tenth of P_MAX − P_MIN of a guest die, in W. -/
def State.tenth (s : State) (n : Nat) : Nat := (cbPmax (s.site n).block - cbPmin (s.site n).block) / 10

/-- A THROTTLE message to a guest die, counted in SITE_ERR. -/
def State.throttleGuest (s : State) (n watts : Nat) : State :=
  (s.setSite n { s.site n with throttled := true }).siteErr n 5 1 |>.emit (.site n (.throttle watts))

/-- Entering THROTTLE: a Varoft compute die's ratio falls by 4 steps, not below 8/16 (R445). -/
def State.enterThrottle (s : State) (d code : Nat) : State :=
  let x := s.pd d
  if x.thr then s
  else
    let x := { x with thr := true, thrRounds := 0 }
    let x := if d < 12 ∧ !s.guestSite d then { x with k := min 8 (x.k + 4), kNext := none } else x
    let s := (s.setPd d x).logAt 0x0502 (uidDie d) 0 (le 2 code)
    if d ≥ 12 then s.fieldThrottle (d - 12) 1 else s

/-- What each round in THROTTLE does: a guest die's grant less 10% of P_MAX − P_MIN for each round; a field die's controllers
to 16 of 64 slots after 4 rounds (R445). -/
def State.inThrottle (s : State) (d : Nat) : State :=
  let x := s.pd d
  let n := x.thrRounds + 1
  let s := s.setPd d { x with thrRounds := n }
  if d ≥ 12 then (if n ≥ 4 then s.fieldThrottle (d - 12) 2 else s)
  else if s.guestSite d ∧ (s.site d).mode = .up then
    s.throttleGuest d (max (cbPmin (s.site d).block) ((s.site d).pGrant - n * s.tenth d))
  else s

/-- One die's thresholds in a round. -/
def State.thresholds (s : State) (d : Nat) : State :=
  let held : Bool := decide (s.suspects d ≥ 2)
  match s.junction d with
  | none => if held then (s.enterThrottle d 0xFFF).inThrottle d else s
  | some t =>
    let x := s.pd d
    let s :=
      if t ≥ tcode 95 ∧ !x.warn then (s.setPd d { x with warn := true }).logAt 0x0501 (uidDie d) 0 (le 2 t)
      else if t < tcode 90 ∧ x.warn then s.setPd d { x with warn := false }
      else s
    let s := if t ≥ tcode 103 ∨ held then s.enterThrottle d t else s
    if !(s.pd d).thr then s
    else if t < tcode 98 ∧ !held then
      let s := s.setPd d { s.pd d with thr := false, thrRounds := 0 }
      if d ≥ 12 then s.fieldThrottle (d - 12) 0 else s
    else s.inThrottle d

/-- A stack at 112 °C or more, or a guest die at the shutdown threshold, causes a thermal shutdown (R293, R445). -/
def State.roundTrips (s : State) : State :=
  match (List.range 12).find? (fun k => match s.chan (288 + k) with | some v => decide (v ≥ tcode 112) | none => false) with
  | some k => s.thermalTrip (uidStack k) (tripBytes (288 + k) (s.chanN (288 + k)) 0xFFF 0xFFFF)
  | none =>
    match (List.range 12).find? (fun n => s.guestSite n && (match s.junction n with | some t => decide (t ≥ tcode 115) | none => false)) with
    | some n => s.thermalTrip (uidSite n) (tripBytes (16 * n) ((s.junction n).getD 0) 0xFFF 0xFFFF)
    | none => s

/-! ## Refresh (R155, R156) -/

/-- Refresh step and throttling of a level of R155's table. -/
def refLevel (l : Nat) : Nat × Nat :=
  if l = 0 then (1, 0) else if l = 1 then (2, 0) else if l = 2 then (4, 0) else if l = 3 then (4, 1) else (4, 2)
/-- Code at or above which a level is entered. -/
def refRise (l : Nat) : Nat := tcode (if l = 1 then 85 else if l = 2 then 95 else if l = 3 then 105 else 108)
/-- Code below which a level is left. -/
def refFall (l : Nat) : Nat := tcode (if l = 1 then 82 else if l = 2 then 92 else if l = 3 then 102 else 105)

/-- Level that a temperature asks for from a level (R155). -/
def refNext (l t : Nat) : Nat :=
  let up := ((List.range 5).filter (fun j => j = 0 || decide (t ≥ refRise j))).foldl max 0
  if up > l then up
  else (List.range 5).foldl (fun l _ => if l > 0 ∧ t < refFall l then l - 1 else l) l

/-- One stack's refresh in a round; after 3 rounds without a reading it is taken to be at 95 °C (R155, R444). -/
def State.refreshRound (s : State) (k : Nat) : State :=
  let st := s.stack k
  match (match s.chan (288 + k) with
    | some v => some v.toNat
    | none => if tget 0 s.pwr.gone (288 + k) ≥ 3 then some (tcode 95) else none) with
  | none => s
  | some t =>
    let cur := st.refreshNext.getD st.refresh
    let l := if cur = 1 then 0 else if cur = 2 then 1 else 2 + st.thrStack
    let l' := refNext l t
    if l' = l then s
    else
      let (r, h) := refLevel l'
      let s := s.setStack k { st with thrStack := h, refreshNext := if r = st.refresh then none else some r }
      s.logAt 0x0109 (uidStack k) 0 ([BitVec.ofNat 8 r, BitVec.ofNat 8 h] ++ le 2 t)

/-- What the reserves depend on among the stacks and the cap: refresh steps, throttling, the cap in effect (R397). -/
def State.stackView (s : State) : List (Nat × Nat) × Nat :=
  ((List.range 12).map (fun k => ((s.stack k).refresh, (s.stack k).throttle)), s.pwr.cap)
/-- The reserves are recomputed when what they depend on has changed since a state (R397). -/
def State.recheckFrom (s old : State) : State := if s.stackView = old.stackView then s else s.recheck

/-- REFRESH_STEP_APPLY: a decided step takes effect at the stack's refresh-interval boundary (R155). -/
def execRefreshStepApply (k : Nat) (s : State) : Out :=
  atUnit "stack" k 12 <|
    let st := s.stack k
    match st.refreshNext with
    | some r => (s.setStack k { st with refresh := r, refreshNext := none }).recheckFrom s
    | none => s

/-! ## Power budgets (R454, R456); powers in units of 0.125 W -/

/-- The BUDGET message of a Varoft die (R453). -/
def State.budgetMsg (s : State) (n share : Nat) : OutMsg :=
  .postMsg (pack 64 [(60, 5), (52, 2), (36, n), (28, 1), (8, 3), (0, s.pwr.rounds % 256)]) [pack 64 [(48, share), (43, (s.pd n).planMax)]]

/-- Give each site its share, which is its P_GRANT in whole watts (DEDUCED, log 110): a BUDGET message to a Varoft die, a grant
block to a guest die whose grant changes (R282, R292, R453). -/
def State.giveShares (s : State) (l : Tbl Nat) : State :=
  l.foldl (fun s e =>
    let s := s.setPd e.1 { s.pd e.1 with share := e.2 }
    if s.guestSite e.1 then (if (s.site e.1).pGrant = e.2 / 8 then s else s.regrant e.1 (e.2 / 8))
    else (s.setSite e.1 { s.site e.1 with pGrant := e.2 / 8 }).emit (s.budgetMsg e.1 e.2)) s

/-- Divide the cap in effect; before READY every site has its floor, a Varoft die 60 W during firmware broadcast (R456). -/
def State.divide (s : State) : State :=
  if s.dev.mode = .off ∨ s.dev.mode = .starting then
    s.giveShares (s.upSites.map (fun n => (n, if s.bcast.active ∧ !s.guestSite n then 480 else s.floorOf n)))
  else s.giveShares (s.shares (s.allowance s.pwr.cap) s.demanding)

/-- Step 5's counts: a step more for each round in THROTTLE, one less for each round after it clears. -/
def State.cutRound (s : State) : State :=
  (List.range 12).foldl (fun s n => let x := s.pd n; s.setPd n { x with cut := if x.thr then min 10 (x.cut + 1) else x.cut - 1 }) s

/-- Step 6: controllers throttled while the allowance lies below the floors (R454). -/
def State.shortRound (s : State) : State :=
  let a := s.allowance s.pwr.cap
  let fl : Int := (s.floors : Nat)
  let lvl := if a < fl then min 2 (s.pwr.short + 1) else if a > fl + 800 then s.pwr.short - 1 else s.pwr.short
  let s := if a < fl then s.logAt 0x0505 uidRtp 0 (le 2 (a / 8).toNat ++ le 2 (s.floors / 8)) else s
  let s : State := { s with pwr := { s.pwr with short := lvl } }
  (List.range 12).foldl (fun s k => if (s.stack k).thrPower = lvl then s else s.setStack k { s.stack k with thrPower := lvl }) s

/-! ## The round (R441) -/

/-- What the round notes of the sites: the hottest reading, silent guest dies, dies without a BUDGET for 3 rounds
(R293, R298, R456). -/
def State.siteRound (s : State) (n : Nat) : State :=
  let x := s.site n
  let d := s.pd n
  let s := s.setPd n { d with reported := false, noBudget := min 3 (d.noBudget + 1), budget := if d.noBudget ≥ 2 then min d.budget 280 else d.budget }
  let s := s.setSite n { x with
    temp := match s.hotOf (dieSensors n) with | some t => t * 5 / 8 - 640 | none => x.temp
    silent := if s.guestSite n ∧ x.mode = .up then (if d.reported then 0 else min 3 (x.silent + 1)) else 0 }
  if (s.site n).silent = 3 ∧ x.silent < 3 then (s.regrant n 0).throttleGuest n (cbPmin x.block) else s

/-- HOUSEKEEPING_ROUND: the channels read (`rd`: a reading after factory calibration, or none), cross-checks, thresholds,
refresh, budgets (R441). Wear channels hold their last measurement, and a guest die's sensors its last TEMPS. -/
def State.houseRound (s : State) (rd : List (Nat × Option Int)) : State :=
  let was := s.alert
  let live (c : Nat) : Bool := decide (c < 484) && chKind c != 1 && !(decide (c < 192) && s.guestSite (c / 16))
  let raw := (rd.filter (fun e => live e.1)).foldl (fun t e => match e.2 with | some v => tset t e.1 v | none => tdel t e.1) s.pwr.raw
  let s : State := { s with pwr := { s.pwr with raw := raw, cap := min s.pwr.capOp s.pwr.capMg } }
  let vals := s.pwr.readings
  let old := s.pwr.suspect
  let s := ((List.range 16).filter s.checked).foldl (fun s d => (dieSensors d).foldl (fun s c => s.crossCheck vals old c) s) s
  let s := (List.range 12).foldl (fun s k =>
    let c := 288 + k
    let n := if (tfind vals c).isSome then 0 else min 3 (tget 0 s.pwr.gone c + 1)
    { s with pwr := { s.pwr with gone := if n = 0 then tdel s.pwr.gone c else tset s.pwr.gone c n } }) s
  let s : State := { s with pwr := { s.pwr with vals := s.roundVals, rounds := s.pwr.rounds + 1, roundTime := s.time } }
  let s := (List.range 12).foldl (fun s n => s.siteRound n) s
  let s := (List.range 16).foldl (fun s d => s.thresholds d) s
  let s := s.roundTrips
  let s := (List.range 12).foldl (fun s k => s.refreshRound k) s
  let s := s.cutRound.shortRound.divide
  s.alertFrom was

/-! ## Comparators (R446) -/

/-- One die's comparators in a sample. -/
def State.comparators (s : State) (codes : Tbl Nat) (d : Nat) : State :=
  let sus := s.pwr.suspect
  let vals : Tbl Int := codes.map (fun e => (e.1, (e.2 : Int)))
  let at_ (c : Nat) : Nat := tget 0 codes c
  let hot := (dieSensors d).filter (fun c => decide (at_ c ≥ tcode 115))
  let med (c : Nat) : Option Int := nbMedian vals sus c
  let alone (c : Nat) : Bool :=
    (neighbours c).all (fun x => sus.contains x) || (match med c with | some m => decide (m ≥ (tcode 100 : Nat)) | none => false)
  let pair : Bool := decide (hot.length ≥ 2) && hot.any (fun c => !sus.contains c)
  match hot.find? (fun c => pair || alone c) with
  | some c =>
    let c2 := (hot.find? (fun x => x != c)).getD 0xFFFF
    s.thermalTrip (uidDie d) (tripBytes c (at_ c) (((med c).getD 0xFFF).toNat) c2)
  | none =>
    let s := (hot.filter (fun c => !sus.contains c)).foldl (fun s c => (s.markSuspect c (at_ c) ((med c).getD 0xFFF)).enterThrottle d (at_ c)) s
    match (dieSensors d).find? (fun c => !sus.contains c && decide (at_ c ≥ tcode 103)) with
    | some c => s.enterThrottle d (at_ c)
    | none => s

/-- COMPARATOR_SAMPLE: the codes of the sensors of the Varoft and field dies in one sample (R446). -/
def execComparatorSample (codes : Tbl Nat) (s : State) : Out :=
  .next <|
    if s.dev.mode = .off then s
    else
      let was := s.alert
      ((((List.range 16).filter s.checked).foldl (fun s d => s.comparators codes d) s).alertFrom was).recheckFrom s

/-! ## POWER messages (R453) -/

/-- REPORT of a die: power, hottest temperature, flags and request; TJ_LIMIT of a guest die is a device thermal shutdown, and
its REQUEST a grant request (R288, R293, R453). -/
def State.powerReport (s : State) (d : Nat) (flit : W64) : State :=
  if d < 12 ∧ (s.site d).mode ≠ .up then s
  else
    let fl := bf flit 35 32
    let s := s.setPd d { s.pd d with power := bf flit 63 48, hottest := bf flit 47 36, flags := fl, request := bf flit 31 16, reported := true }
    if d < 12 ∧ s.guestSite d then
      if nbit fl 0 then s.thermalTrip (uidSite d) (tripBytes (16 * d) (bf flit 47 36) 0xFFF 0xFFFF)
      else if bf flit 31 16 ≠ 0 then s.grantRequest d (bf flit 31 16)
      else s
    else s

/-- POWER_REPORT (R453). -/
def execPowerReport (d : Nat) (flit : W64) (s : State) : Out := atUnit "die" d 16 (s.powerReport d flit)

/-- TEMPS of a die: readings of its sensors from FIRST on, 0xFFF for none (R440, R442, R453). -/
def State.powerTemps (s : State) (d first count : Nat) (payload : List W64) : State :=
  if d < 12 ∧ (s.site d).mode ≠ .up then s
  else
    (List.range (min 15 count)).foldl (fun s i =>
      match (dieSensors d)[first + i]? with
      | none => s
      | some c =>
        let j := 12 * (i % 5)
        let code := bf (payload.getD (i / 5) 0) (j + 11) j
        { s with pwr := { s.pwr with raw := if code = 0xFFF then tdel s.pwr.raw c else tset s.pwr.raw c code } }) s

/-- POWER_TEMPS (R453). -/
def execPowerTemps (d first count : Nat) (payload : List W64) (s : State) : Out := atUnit "die" d 16 (s.powerTemps d first count payload)

/-- POWER_BUDGET: a Varoft compute die takes its BUDGET and RATIO_MAX (R453). -/
def execPowerBudget (n : Nat) (flit : W64) (s : State) : Out :=
  atSite n (if s.guestSite n then s else
    s.setPd n { s.pd n with budget := bf flit 63 48, ratioMax := max 8 (min 16 (bf flit 47 43)), noBudget := 0 })

/-! ## The clock ratio (R436, R438, R455) -/

/-- Voltage planned for a ratio of a compute die in mV (R458). -/
def State.vPlan (s : State) (n r : Nat) : Nat :=
  min 800 (Config.vFuse n r + (10000 + Config.aWear n * (s.pd n).slow / 10000 + 999) / 1000)

/-- VCOMP and VSRAM of a ratio (R438). -/
def State.setRails (s : State) (n r : Nat) : State :=
  let v := s.vPlan n r
  s.setSite n { s.site n with vcomp := v, vsram := max 750 (v + 50) }

/-- Are the compute clocks held stopped for good (R434, R439, R447). -/
def State.clocksHeld (s : State) : Bool := s.board.tripping || s.board.pllHold || s.dev.mode == .off || s.dev.mode == .shuttingDown

/-- LOCAL_POWER_CONTROL: from the power of the last interval, in 0.125 W, the local controller chooses the highest ratio, at most
one step up and not above RATIO_MAX, that keeps the average over 1 ms within the budget, or a stopped interval; a decrease
takes effect at once, an increase waits for VCOMP (R436, R455). -/
def State.localPower (s : State) (n power : Nat) : State :=
  if s.guestSite n ∨ (s.site n).mode ≠ .up ∨ s.clocksHeld then s
  else
    let x := s.pd n
    let l := (power :: x.samples).take 16
    let past := (l.take 15).sum
    let cur := 16 - x.k
    let room := 16 * x.budget - past
    let fits (r : Nat) : Bool := decide (r ≤ x.ratioMax) && decide (r ≤ cur + 1) && decide (r + 1 ≥ cur) && decide (Config.ratioPower n r ≤ room)
    match ((List.range 17).filter (fun r => decide (8 ≤ r) && fits r)).getLast? with
    | some r =>
      let x := { x with samples := l, stopped := false, duty := false }
      if r > cur then s.setPd n { x with kNext := some (16 - r) }
      else (s.setPd n { x with k := 16 - r, kNext := none }).setRails n r
    | none =>
      if cur > 8 then (s.setPd n { x with samples := l, k := x.k + 1, kNext := none }).setRails n (cur - 1)
      else s.setPd n { x with samples := l, stopped := true, duty := true, kNext := none }

/-- LOCAL_POWER_CONTROL (R455). -/
def execLocalPowerControl (n power : Nat) (s : State) : Out := atSite n (s.localPower n power)

/-- VCOMP_REACHED: a waiting increase takes effect (R436). -/
def execVcompReached (n : Nat) (s : State) : Out :=
  atSite n <|
    let x := s.pd n
    match x.kNext with
    | some k => (s.setPd n { x with k := k, kNext := none }).setRails n (16 - k)
    | none => s

/-! ## Wear (R457, R458) -/

/-- Gauges of a die, by channel (R440). -/
def dieGauges (d : Nat) : List Nat :=
  if d < 12 then (List.range 4).map (fun g => 302 + 4 * d + g) else (List.range 6).map (fun g => 350 + 6 * (d - 12) + g)

/-- G of a die in mV, rounded up (R458, log 63). -/
def guardMv (d slow : Nat) : Nat := (10000 + Config.aWear d * slow / 10000 + 999) / 1000

/-- Replan one die's voltages (R458). -/
def State.replan (s : State) (d : Nat) : State :=
  if d < 12 ∧ (s.guestSite d ∨ (s.site d).mode = .down) then s
  else
    let x := s.pd d
    let slow := ((dieGauges d).filterMap (tfind s.pwr.raw)).foldl (fun m v => max m v.toNat) 0
    let g := guardMv d slow
    let v (r : Nat) : Nat := Config.vFuse d r + g
    let neg : Bool := if d < 12 then decide (v 8 > 800) else decide (v 16 > 800)
    let top := (((List.range 17).filter (fun r => decide (8 ≤ r ∧ v r ≤ 800))).getLast?).getD 8
    let s := s.setPd d { x with slow := slow, plan := if d < 12 then v 16 else min 800 (v 16), planMax := if d < 12 then top else 16
                                measTemp := (s.junction d).getD 0xFFF }
    if neg then
      let mv := if d < 12 then v 8 else v 16
      (s.eventRecord 0x0A (uidDie d) (le 2 mv) true).logAt 0x0504 (uidDie d) 0 (le 2 mv)
    else s

/-- A completed measurement: the slowdowns of the gauges, in parts per 10^6; every die is replanned. -/
def State.wearDone (s : State) (slow : Tbl Int) : State :=
  let absent (c : Nat) : Bool := decide (c < 350) && s.guestSite ((c - 302) / 4)
  let raw := (slow.filter (fun e => chKind e.1 == 1 && !absent e.1)).foldl (fun t e => tset t e.1 e.2) s.pwr.raw
  let s : State := { s with pwr := { s.pwr with raw := raw, measured := s.time, measuring := false } }
  (List.range 16).foldl (fun s d => s.replan d) s

/-- POH_TICK: each hour the RTP adds to the power-on hours; at a multiple of 1,000 a measurement starts (R457). -/
def execPohTick (s : State) : Out :=
  .next <|
    if s.dev.mode = .off then s
    else
      let h := s.flash.poh + 1
      { s with flash := { s.flash with poh := h }, pwr := { s.pwr with measuring := s.pwr.measuring || h % 1000 == 0 } }

/-! ## Post messages of a guest die (R294) -/

/-- A discarded post message is counted and logged. -/
def State.guestDiscard (s : State) (n : Nat) (hdr : W64) : State :=
  (s.siteErr n 3 1).logAt 0x0304 (uidSite n) 0 [BitVec.ofNat 8 (bf hdr 63 60), BitVec.ofNat 8 (bf hdr 7 0)]

/-- GUEST_POST_MESSAGE: arrivals of the partition's IDs, INTERRUPTs to sorting-office cores and POWER messages pass; the rest
is discarded (R287, R294). -/
def execGuestPostMessage (n : Nat) (hdr : W64) (payload : List W64) (s : State) : Out :=
  atSite n <|
    if !s.guestSite n ∨ (s.site n).mode ≠ .up then s
    else
      let id := bf hdr 7 0
      match bf hdr 63 60 with
      | 1 =>
        if id / (256 / s.dev.layout) = s.partOfSite n then s.arrive (n / 3) (n % 3) (Config.diePort n) id
        else s.guestDiscard n hdr
      | 3 => if (postDst hdr).1 = 0x0D ∧ (postDst hdr).2 < 32 then s.deliver hdr payload else s.guestDiscard n hdr
      | 5 =>
        match bf hdr 11 8 with
        | 1 => s.powerReport n (payload.getD 0 0)
        | 2 => s.powerTemps n (bf hdr 7 4) (bf hdr 3 0) payload
        | _ => s.guestDiscard n hdr
      | _ => s.guestDiscard n hdr

end Sys2Proof.Machine
end

