-- ==== Sys2Proof/Machine/Start.lean ====
section
/-! DEFINITION. The start from PWR_EN to READY, the ways the device goes off and starts again, the logbook controller and the
saved settings (R405, R406, R434, R439, R447, R448, R464–R473, R482, R490–R493, R505–R508). -/
namespace Sys2Proof.Machine

/-! ## Off (R447, R482, R505–R508) -/

/-- What BIST_RESULT has to report after a reset that ended a run: RESULT 3 with the SCOPE and START of that run (R495); nothing
otherwise. -/
def State.abortedBist (s : State) : Bytes :=
  if s.dev.bist then
    recOf 64 [(0, 4, 1), (4, 4, 576), (8, 1, (s.works.findSome? (fun w => match w.kind with | .bist n => some n | _ => none)).getD 0),
      (9, 1, 3), (16, 8, s.sec.bistStart)]
  else []

/-- Every rail is off: every register, SRAM and key is lost. The fuses, the boot flash with its counters and event records, the
states of the contacts and the model's own fields stay (R427, R464, R482). -/
def State.railsOff (s : State) : State :=
  { State.reset with
    pending := s.pending, fresh := s.fresh, out := s.out
    dev := { State.reset.dev with deadPos := s.dev.deadPos }
    fuse := s.fuse, flash := s.flash
    board := { inrush := s.board.inrush, pwrEn := s.board.pwrEn, modResetN := s.board.modResetN, perstN := s.board.perstN
               thermtrip := s.board.thermtrip, pllHold := s.board.pllHold, failed := s.board.failed }
    sec := { State.reset.sec with debugFuse := s.sec.debugFuse, bistResult := s.abortedBist }
    links := { State.reset.links with ownInc := s.links.ownInc } }

/-! ## The ROM (R405, R406, R465–R467) -/

/-- Why the ROM rejects an image: signature, rollback, or the kind of part whose digest fails, as (image, reason) of R451. -/
def rejects (fused : Nat) : Option FwImage → Option (Nat × Nat)
  | none => some (0, 0)
  | some i => if !i.sigOk then some (0, 0) else if i.sv < fused then some (0, 2) else i.badPart.map (fun p => (p, 1))

/-- The image of a slot is rejected: an event record, and the other slot is ACTIVE with TRIAL clear (R467). -/
def State.rejectSlot (s : State) (image reason : Nat) : State :=
  let a := s.flash.active
  let s := s.eventRecord 8 uidRtp [BitVec.ofNat 8 a, BitVec.ofNat 8 image, BitVec.ofNat 8 reason] true
  { s with flash := { s.flash with active := 1 - a, trial := false, tries := 0 } }

/-- One attempt on the ACTIVE slot: TRIES counts while TRIAL is set and may reach 2; the reason recorded when it passes 2 is
not stated (a free value). Answers the image accepted. -/
def State.romTry (s : State) : Option FwImage × State :=
  let fl := s.flash
  let n := if fl.trial then fl.tries + 1 else fl.tries
  let s : State := { s with flash := { fl with tries := n } }
  let img := tfind fl.slots fl.active
  match rejects fl.fusedSv img with
  | some (i, r) => (none, s.rejectSlot i r)
  | none =>
    if fl.trial ∧ n > 2 then
      let (r, s) := s.freeNat
      (none, s.rejectSlot 0 (r % 3))
    else (img, s)

/-- Keys and certificates of an accepted image (R405, R406). -/
def State.deriveKeys (s : State) (img : FwImage) : State :=
  let prk := extract (zeros 32) Config.uds
  let rtp := slice (tget [] img.digests 0) 0 32
  let m := rtp ++ le 4 img.sv ++ le 4 s.fuse.population.toNat
  let cdi := extract (sha m) Config.uds
  let att := expand cdi (ascii "ZLV-H12 Attest") 48
  let dbg := expand cdi (ascii "ZLV-H12 Debug") 48
  { s with sec := { s.sec with
      att := att, dbg := dbg, bind := expand prk (ascii "ZLV-H12 Binding") 64
      devPk := slhPk (expand prk (ascii "ZLV-H12 DeviceID") 48)
      certs := [(1, Config.certDer 1 (slhPk att) rtp img.sv), (2, Config.certDer 2 (slhPk dbg) rtp img.sv)]
      udsLock := true } }

/-! ## Step 4: the saved settings (R463, R470–R473) -/

/-- The valid copy with the higher SAVE_SEQ (R470). -/
def State.validCopy (s : State) : Option Nat :=
  let ok (i : Nat) : Bool :=
    let c := tget {} s.flash.copies i
    c.valid && c.package == s.fuse.package && c.population == s.fuse.population
  let q (i : Nat) : Nat := (tget {} s.flash.copies i).seq
  if ok 0 ∧ ok 1 then some (if q 1 > q 0 then 1 else 0) else if ok 0 then some 0 else if ok 1 then some 1 else none

/-- The part of CONFIG that concerns layout, spread region and bandwidth (R472, R468 step 11). -/
def State.applyFabric (s : State) (b : Bytes) : State :=
  let bucket (i : Nat) : Bucket :=
    let o := 32 + 8 * i
    { reg := pack 64 [(32, rd b (o + 4) 2), (17, rdb b (o + 6) % 2), (0, min 131071 (rd b o 4))] }
  let s : State := { s with
    dev := { s.dev with layout := rdb b 0, priority := rdb b 1 == 1, spreadS := rdb b 4
                        shares := (List.range 4).map (fun p => (p, (rd b (16 + 4 * p) 2, rd b (18 + 4 * p) 2))) } }
  (List.range 12).foldl (fun s k =>
    let x := s.stack k
    let x := { x with prio := setBf x.prio 4 0 (rdb b 2) }
    s.setStack k (if nbit (rdb b 3) 0 then { x with buckets := (List.range 5).map (fun i => (i, bucket i)) } else x)) s

/-- A port whose every lane the operator leaves unused is DISABLED, with cause 0x07 (DEDUCED from R310 and R319, log 64). -/
def PortState.usable (p : PortState) : PortState :=
  if p.unused = 0xFF then { p with mode := .disabled, cause := 7 }
  else if p.mode = .disabled then { p with mode := .training, cause := 0, signal := false } else p

/-- The start applies CONFIG (R472). -/
def State.applyConfig (s : State) (b : Bytes) : State :=
  let s := s.applyFabric b
  let s : State := { s with
    links := { s.links with device := rdb b 5, minPorts := rdb b 6 }
    pwr := { s.pwr with capOp := rd b 8 2, cap := min (rd b 8 2) s.pwr.capMg } }
  (List.range 16).foldl (fun s l =>
    s.setPort l { s.port l with group := rdb b (72 + l), unused := BitVec.ofNat 8 (rdb b (88 + l)) }.usable) s

/-- The start applies ARRAY_REPAIR (R58, R471). -/
def State.applyArrays (s : State) (b : Bytes) : State :=
  { s with dev := { s.dev with badCols := (List.range (b.length / 4)).foldl (fun t i =>
      let a := rd b (4 * i) 2
      tset t a (sins (rdb b (4 * i + 2)) (tget [] t a))) s.dev.badCols } }

/-- The start applies BRIDGE_REPAIR. -/
def State.applyBridges (s : State) (b : Bytes) : State :=
  (List.range 4).foldl (fun s i => s.setBridge i { s.bridge i with disabled := BitVec.ofNat 16 (rd b (2 * i) 2) }) s

/-- A section of the copy in use, if it holds one. -/
def State.savedSection (s : State) (typ : Nat) : Option Bytes := (s.validCopy).bind (fun i => tfind (tget {} s.flash.copies i).sections typ)

/-- Apply a section when the copy in use holds it. -/
def State.applySec (s : State) (typ : Nat) (f : State → Bytes → State) : State :=
  match s.savedSection typ with
  | some b => f s b
  | none => s

/-- Step 4 of R468: INCARNATION rises, the saved settings and the user calibration page are read. -/
def State.bootStep4 (s : State) : State :=
  let s : State := { s with links := { s.links with ownInc := s.links.ownInc + 1 } }
  let s := if (s.validCopy).isNone then s.logAt 0x0606 uidRtp 0 [0] else s
  let s := ((s.applySec 1 State.applyConfig).applySec 2 State.applyArrays).applySec 4 State.applyBridges
  let s := if s.flash.calBad then s.logAt 0x0506 uidRtp 0 [] else s
  let s : State := { s with pwr := { s.pwr with user := (if s.flash.calBad then [] else s.flash.calPage.getD []).foldl (fun t e => tset t e.1 e.2) [] } }
  { s with board := { s.board with stage := 4 } }

/-- Steps 1–4: PWR_GOOD, the RTP's ROM, and the RTP firmware. With neither slot accepted the start ends with the ROM running
(R467). -/
def State.powerUp (s : State) : State :=
  let s : State := { s.setMode .starting with board := { s.board with pwrGood := true, stage := 2 } }
  let boot (s : State) (img : FwImage) : State :=
    (State.deriveKeys { s with dev := { s.dev with image := img } } img).bootStep4
  match s.romTry with
  | (some img, s) => boot s img
  | (none, s) =>
    match s.romTry with
    | (some img, s) => boot s img
    | (none, s) => { s with board := { s.board with halted := true } }

/-- May a start begin: input charged, PWR_EN high, MOD_RESET_N high, nothing latched or held (R506–R508). -/
def State.mayStart (s : State) : Bool :=
  s.board.inrush && s.board.pwrEn && s.board.modResetN && !s.board.thermtrip && !s.board.pllHold && !s.board.failed
    && s.dev.mode == .off

/-- Begin a start where one may begin. -/
def State.tryStart (s : State) : State := if s.mayStart then s.powerUp else s

/-- POWER_ON_START: PWR_EN goes high (R468 steps 1–4, R506). With THERMTRIP_N latched it is ignored (R508). -/
def execPowerOnStart (s : State) : Out :=
  .next (if s.board.pwrEn then s else State.tryStart { s with board := { s.board with pwrEn := true } })

/-- INRUSH_COMPLETE: the input has charged; a PWR_EN already high starts step 2 (R506). -/
def execInrushComplete (s : State) : Out := .next (State.tryStart { s with board := { s.board with inrush := true } })

/-! ## Step 5: bridges, fuses, population (R6, R277, R279) -/

/-- Is a population code valid (R5, R6). -/
def popOk (p : W32) : Bool :=
  bf p 31 28 == 1 && decide (ones 12 (bf p 27 16) ≤ 4) && ((bf p 15 0 == 0) == (bf p 27 16 == 0))

/-- BRIDGE_TRAINED: the modules found beyond repair, by bridge; then the checks that can end the start (R7, R277, R279). The
timebase of this model is one counter, so its alignment has nothing to do. -/
def State.bridgesTrained (s : State) (off : List (BitVec 16)) : State :=
  if s.dev.mode ≠ .starting ∨ s.board.halted ∨ s.board.stage ≠ 4 then s
  else
    let s := (List.range 4).foldl (fun s br =>
      let x := s.bridge br
      let m := (off.getD br 0) &&& ~~~x.disabled
      let s := s.setBridge br { x with trained := true, disabled := x.disabled ||| m }
      ((List.range 16).filter (fun i => m.getLsbD i)).foldl (fun s i =>
        s.logAt 0x0404 (uid 0x10 br) 0 [BitVec.ofNat 8 i, BitVec.ofNat 8 (s.bridge br).working]) s) s
    match (List.range 4).find? (fun br => decide ((s.bridge br).working < 12)) with
    | some br => s.haltStart 6 (uid 0x10 br) [BitVec.ofNat 8 br, BitVec.ofNat 8 (s.bridge br).working, 0]
    | none =>
      match (List.range 4).find? (fun f => tget f s.fuse.field f != f || tget s.fuse.population.toNat s.fuse.popCopy f != s.fuse.population.toNat) with
      | some f => s.haltStart 5 (uid 0x01 f) [BitVec.ofNat 8 f, BitVec.ofNat 8 (tget f s.fuse.field f), BitVec.ofNat 8 f]
      | none =>
        if popOk s.fuse.population then { s with board := { s.board with stage := 5 } }
        else s.haltStart 4 uidRtp (((List.range 4).map (fun f => le 4 (tget s.fuse.population.toNat s.fuse.popCopy f))).flatten)

/-- BRIDGE_TRAINED (R277). -/
def execBridgeTrained (off : List (BitVec 16)) (s : State) : Out := .next (s.bridgesTrained off)

/-! ## Step 6: the hot start (R448) -/

/-- After the reading of every channel, before any site's boot rails: a die sensor at 95 °C or more holds the start; else
every site starts (R283 step 1) and the wear gauges are measured (R457). -/
def State.hotCheck (s : State) : State :=
  if s.dev.mode ≠ .starting ∨ s.board.halted ∨ s.board.stage ≠ 5 then s
  else
    match (List.range 288).find? (fun c => match s.chan c with | some v => decide (v ≥ (tcode 95 : Nat)) | none => false) with
    | some c =>
      let d := if c < 192 then c / 16 else 12 + (c - 192) / 24
      let s := if s.board.hotRec then s else s.eventRecord 9 (uidDie d) (le 2 c ++ le 2 (s.chanN c)) true
      { s with board := { s.board with hotHold := true, hotRec := true } }
    | none =>
      let s : State := { s with board := { s.board with hotHold := false, stage := 6 }, pwr := { s.pwr with measuring := true } }
      (List.range 12).foldl (fun s n => s.siteStart n) s

/-- HOUSEKEEPING_ROUND (R441): the first round of a start makes the hot-start check (R448, R468 step 6). -/
def execHousekeepingRound (rd : List (Nat × Option Int)) (s : State) : Out :=
  .next (if s.dev.mode = .off ∨ s.board.stage < 5 then s
    else
      let s1 := s.houseRound rd
      (if s.board.hotHold then s1 else s1.hotCheck).recheckFrom s)

/-- HOT_START_RECHECK: while the start is held, the temperatures are read again every 1 s (R448). -/
def execHotStartRecheck (rd : List (Nat × Option Int)) (s : State) : Out :=
  .next (if s.board.hotHold then (s.houseRound rd).hotCheck else s)

/-! ## Steps 9–12 -/

/-- Install the saved remap entries of a stack (R177, R471). -/
def StackState.applyRemap (st : StackState) (k : Nat) (b : Bytes) : StackState :=
  { st with remap := ((List.range 32).filter (fun i => rdb b (256 * k + 8 * i + 7) = 1)).map (fun i =>
      let o := 256 * k + 8 * i
      (i, { valid := true, sector := rd b o 4 % 2 ^ 31, spareRow := rd b (o + 4) 3 % 2 ^ 19, check := 0 })) }

/-- STACK_TRAINING_DONE: a stack has trained at 9.6 Gb/s and its remap entries are installed before the fill, or it is lost
(R130, R177, R183). -/
def execStackTrainingDone (k : Nat) (ok : Bool) (s : State) : Out :=
  atUnit "stack" k 12 <|
    let st := s.stack k
    if s.dev.mode ≠ .starting ∨ s.board.halted ∨ s.board.stage < 6 ∨ st.trained ∨ st.lost then s
    else if ok then s.setStack k { st.applyRemap k ((s.savedSection 5).getD []) with trained := true }
    else (s.setStack k { st with lost := true, lossCause := 1 }).logAt 0x010A (uidStack k) 0 [1]

/-- Where firmware memory holds the ASID table: stack data address of both copies, in the stacks 0 and 3 (DESIGN CHOICE,
R230, R488). -/
def asidTable : Nat := 0x100000

/-- Firmware writes a byte string to both copies of its tables, in stack 0 and stack 3 (R488). -/
def State.fwWrite (s : State) (a : Nat) (b : Bytes) : State :=
  let iss : Issuer := { unit := uid 0x0D 0, asid := 0, cls := 4 }
  let s := (s.devWrite iss a (b.map (fun x => (x, false))) hintNormal).2
  (s.devWrite iss (3 * 2 ^ 36 + a) (b.map (fun x => (x, false))) hintNormal).2

/-- Every entry of the ASID table invalid (R231). -/
def State.clearAsids (s : State) : State := (List.range 16384).foldl (fun s i => s.fwWrite (asidTable + 32 * i) (zeros 32)) s

/-- Filters, route tables, ASID table and circular group 4,095 as firmware leaves them for READY (R23, R232, R254, R469). -/
def State.readyTables (s : State) : State :=
  let s := s.defaultRoutes
  let s := (List.range 4).foldl (fun s br =>
    ((List.range 16).filter (fun m => (s.bridge br).disabled.getLsbD m)).foldl (fun s m => s.moveRoutes br m) s) s
  let s := ((List.range 12).filter (fun n => (s.site n).mode == .down)).foldl (fun s n => s.dropRoutes n) s
  let s : State := { s with routers := s.routers.map (fun e => (e.1, { e.2 with circ := tdel e.2.circ 4095 })) }
  let s := s.clearAsids
  (List.range 16).foldl (fun s d =>
    if d < 12 ∧ s.guestSite d then s
    else s.setXl d { s.xl d with
      physEn := d < 12 && (s.xl d).physEn
      asidReg := pack 64 [(16, asidTable / 2 ^ 16), (0, 1)], filter := (List.range 4).map (fun p => (p, s.filterWord p)) }) s

/-- May READY be asserted: every site up or down, every stack filled or lost, the gauges measured, nothing holding the start
(R434, R448, R468). -/
def State.mayReady (s : State) : Bool :=
  s.dev.mode == .starting && !s.board.halted && !s.board.hotHold && !s.board.pllHold && !s.board.tripping
    && decide (s.board.stage ≥ 6) && !s.pwr.measuring
    && (List.range 12).all (fun n => (s.site n).mode == .up || (s.site n).mode == .down)
    && (List.range 12).all (fun k => (s.stack k).fillDone || (s.stack k).lost)

/-- READY_ASSERT: tables, READY, GENERATION 1, the trial's end, the first division; every stack lost in the start makes the
device UNFIT at once, with a record of its own (R422, R467, R468). -/
def State.readyAssert (s : State) : State :=
  if !s.mayReady then s
  else
    let s := s.readyTables
    let s : State := { s.setMode .ready with
      board := { s.board with ready := true, stage := 12 } }
    let s : State := { s with dev := { s.dev with generation := 1 } }
    let s : State := if s.flash.trial then
        { s with flash := { s.flash with trial := false, tries := 0, fusedSv := max s.flash.fusedSv s.dev.image.sv } } else s
    let s := s.divide
    ((List.range 12).filter (fun k => (s.stack k).lost)).foldl (fun s k => s.loseStack k) s

/-- READY_ASSERT (R468 step 12). -/
def execReadyAssert (s : State) : Out := .next s.readyAssert

/-! ## Resets and the loss of power (R434, R439, R447, R482, R505–R508) -/

/-- FAREWELL, if the device is running. -/
def State.farewellIfOn (s : State) (cause : Nat) : State := if s.dev.mode = .off then s else s.sendFarewell cause

/-- WHOLE_RESET: FAREWELL with cause 0x01 except for a PLL, the rails off, and the start again (R482). -/
def State.wholeReset (s : State) : ResetCause → State
  | .modReset =>
    if s.board.thermtrip ∨ !s.board.pwrEn then s
    else
      let s := (s.farewellIfOn 1).railsOff
      { s with board := { s.board with modResetN := false } }
  | .pwrCycle =>
    if s.board.thermtrip then s
    else
      let s := (s.farewellIfOn 1).railsOff
      State.tryStart { s with board := { s.board with pwrEn := true, failed := false } }
  | .fwActivate => if s.board.resetDue then (s.farewellIfOn 1).railsOff.tryStart else s
  | .pll => if s.board.pllHold then s.railsOff else s

/-- WHOLE_RESET (R482). -/
def execWholeReset (cause : ResetCause) (s : State) : Out := .next (s.wholeReset cause)

/-- MOD_RESET_N_RELEASE: the start begins when MOD_RESET_N returns high (R507). -/
def execModResetNRelease (s : State) : Out := .next (State.tryStart { s with board := { s.board with modResetN := true } })

/-- POWER_DOWN: PWR_EN goes low; it prevails over MOD_RESET_N (R507). A latched THERMTRIP_N ignores it (R508). -/
def execPowerDown (s : State) : Out :=
  .next <|
    if s.board.thermtrip ∨ !s.board.pwrEn then { s with board := { s.board with pwrEn := false } }
    else
      let s := (s.farewellIfOn 1).railsOff
      { s with board := { s.board with pwrEn := false, failed := false } }

/-- POWER_FAIL: the input stays below 46 V for 20 µs (R439). -/
def State.powerFail (s : State) (lowest us : Nat) (complete : Bool) : State :=
  if s.dev.mode = .off then s
  else
    let s := s.stopCompute.toGuests (fun n => .throttle (cbPmin (s.site n).block))
    let s := s.sendFarewell 2
    let s := s.eventRecord 2 uidRtp (le 2 lowest ++ le 4 us) complete
    let s := s.railsOff
    { s with board := { s.board with failed := true } }

/-- POWER_FAIL (R439). -/
def execPowerFail (lowest us : Nat) (complete : Bool) (s : State) : Out := .next (s.powerFail lowest us complete)

/-- UNDERVOLTAGE_LOCKOUT: the input below 38.0 V stops stage 1 and the sideband supply; when it returns, the input charges
again (R439, R501, R505). -/
def execUndervoltageLockout (s : State) : Out :=
  .next (let s := s.railsOff; { s with board := { s.board with inrush := false, failed := false } })

/-- THERMAL_RAILS_OFF: the event record is written, or cut short at 1.2 ms; every rail is disabled and THERMTRIP_N latched
(R447 steps 4 and 5). -/
def execThermalRailsOff (complete : Bool) (s : State) : Out :=
  .next <|
    if s.board.tripping then
      let s := (s.eventRecord 1 s.board.tripUnit s.board.tripDetail complete).railsOff
      { s with board := { s.board with thermtrip := true } }
    else s

/-- THERMTRIP_CLEAR: the input below 38.0 V for 1 s (R508). -/
def execThermtripClear (s : State) : Out :=
  .next (let s := s.railsOff; { s with board := { s.board with thermtrip := false, inrush := false, failed := false } })

/-- PLL_LOCK_LOST: the compute clocks stop, a record is written, READY falls and the device holds itself in whole reset; PLLs of
the SerDes and of PCIe are not among these (R434). -/
def execPllLockLost (unit : W32) (kind : Nat) (s : State) : Out :=
  .next <|
    if s.dev.mode = .off ∨ kind > 3 then s
    else
      let s := (s.stopCompute.eventRecord 7 unit [BitVec.ofNat 8 kind] true).railsOff
      { s with board := { s.board with pllHold := true } }

/-- PLL_RELOCK_HOLD_END: every PLL has held lock for 10 ms (R434). -/
def execPllRelockHoldEnd (s : State) : Out := .next (State.tryStart { s with board := { s.board with pllHold := false } })

/-! ## The logbook controller (R490–R493) -/

/-- Does an entry report the same event as an event record (R492). -/
def LogMsg.recorded (m : LogMsg) : Bool :=
  m.code == 0x010A || m.code == 0x0607 || m.code == 0x0504 || (m.code == 0x0404 && decide (rdb m.detail 1 < 12))

/-- The 64 bytes of an entry (R492). -/
def LogEntry.bytes (e : LogEntry) : Bytes :=
  putBytes (recOf 64 [(0, 8, e.seq), (8, 8, e.msg.time), (16, 2, e.msg.code), (18, 1, e.msg.sev), (19, 1, e.msg.cls),
    (20, 4, e.msg.unit.toNat), (24, 2, e.msg.ctx), (26, 1, e.msg.part), (27, 1, b2n e.event + 2 * b2n e.msg.recorded),
    (28, 4, e.msg.count), (32, 8, e.msg.addr)]) 40 (slice e.msg.detail 0 16)

/-- An EVENT reply of an entry (R372). -/
def LogEntry.eventReply (e : LogEntry) : Bytes :=
  entryBytes 5 0 0 0xFF 0 0 0xFFFF 0
    (putBytes (recOf 32 [(0, 2, e.msg.code), (2, 1, e.msg.sev), (4, 4, e.msg.unit.toNat), (8, 8, e.msg.time), (16, 8, e.seq)])
      24 (slice e.msg.detail 0 8))

/-- The controller numbers a message and writes it to the ring of 16,384 entries; an event code goes as an EVENT reply too. -/
def State.logTake (s : State) (m : LogMsg) : State :=
  let sent := logEvent m.code && ((s.fn 0 0).tray.isSome || (s.fn 1 0).tray.isSome)
  let e : LogEntry := { seq := s.log.nextSeq, event := sent, msg := m }
  let ring := s.log.ring ++ [e]
  let s : State := { s with log := { s.log with ring := if ring.length > 16384 then ring.drop 1 else ring, nextSeq := s.log.nextSeq + 1 } }
  if sent then s.toOperators e.eventReply else s

/-- LOG_MESSAGE: the oldest message of the intake; after a discard, the next entry written is LOG_OVERFLOW with their count
(R490). -/
def execLogMessage (s : State) : Out :=
  .next <|
    if s.log.dropped > 0 then
      State.logTake { s with log := { s.log with dropped := 0 } }
        { mkMsg 0x0703 (uid 0x01 0) 0 [] with count := s.log.dropped, time := s.time }
    else
      match s.log.intake with
      | [] => s
      | m :: rest => State.logTake { s with log := { s.log with intake := rest } } m

/-! ## Writing the saved settings (R470–R473) -/

/-- CONFIG from the values in effect (R150, R472, R473). -/
def State.configBytes (s : State) : Bytes :=
  let x := s.stack 0
  recOf 128 ([(0, 1, s.dev.layout), (1, 1, b2n s.dev.priority), (2, 1, bf x.prio 4 0), (3, 1, 1), (4, 1, s.dev.spreadS),
      (5, 1, s.links.device), (6, 1, s.links.minPorts), (8, 2, s.pwr.capOp)]
    ++ (List.range 4).flatMap (fun p => let h := tget (0, 0) s.dev.shares p; [(16 + 4 * p, 2, h.1), (18 + 4 * p, 2, h.2)])
    ++ (List.range 5).flatMap (fun i =>
        let b := tget {} x.buckets i
        let r := b.new.getD b.reg
        [(32 + 8 * i, 4, bf r 16 0), (36 + 8 * i, 2, bf r 47 32), (38 + 8 * i, 1, bf r 17 17)])
    ++ (List.range 16).flatMap (fun l => [(72 + l, 1, (s.port l).group), (88 + l, 1, (s.port l).unused.toNat)]))

/-- A repair or training section from the values in effect; a training section's values are firmware's own, not stated (a free
value). -/
def State.sectionBytes (s : State) (typ : Nat) : Bytes × State :=
  match typ with
  | 1 => (s.configBytes, s)
  | 2 => ((s.dev.badCols ++ s.dev.newCols).flatMap (fun e => e.2.flatMap (fun c => le 2 e.1 ++ [BitVec.ofNat 8 c, 0])), s)
  | 3 => ((List.range 12).flatMap (fun n => (List.range 128).flatMap (fun i =>
      let w := tget [] (s.site n).spares i
      le 2 w.length ++ (List.range 8).flatMap (fun j => le 2 (w.getD j 0)))), s)
  | 4 => ((List.range 4).flatMap (fun i => le 2 (s.bridge i).disabled.toNat), s)
  | 5 => ((List.range 12).flatMap (fun k => (List.range 32).flatMap (fun i =>
      let e := tget {} (s.stack k).remap i
      if e.valid then le 4 e.sector ++ le 3 e.spareRow ++ [1] else zeros 8)), s)
  | _ =>
    let top := if typ = 6 then 196608 else if typ = 7 then 98304 else if typ = 8 then 16384 else 8192
    let (n, s) := s.freeNat
    s.freeBytes (n % (top + 1))

/-- Write sections, some of them given, into the older copy; sections not written are copied from the newer valid one (R470,
R473). -/
def State.writeSettings (s : State) (types : List Nat) (given : Tbl Bytes) : State :=
  let src := s.validCopy
  let old : SavedCopy := match src with | some i => tget {} s.flash.copies i | none => {}
  let (secs, s) := types.foldl (fun (a : Tbl Bytes × State) t =>
    match tfind given t with
    | some b => (tset a.1 t b, a.2)
    | none => let (b, s) := a.2.sectionBytes t; (tset a.1 t b, s)) (old.sections, s)
  let dst := match src with | some i => 1 - i | none => 0
  let seq := max (tget {} s.flash.copies 0).seq (tget {} s.flash.copies 1).seq + 1
  let c : SavedCopy := { valid := true, seq := seq, package := s.fuse.package, population := s.fuse.population, sections := secs }
  { s with flash := { s.flash with copies := tset s.flash.copies dst c } }

/-- One TBCLK edge: the timebase adds 10 in a device that is powered (R435; what an empty queue stands for, log 2). -/
def State.tick (s : State) : State := if s.dev.mode = .off then s else { s with time := s.time + 10 }

end Sys2Proof.Machine
end

