-- ==== Sys2Proof/Machine/Reports.lean ====
section
/-! DEFINITION. The letters that report: IDENTIFY, CAPS_GET, LOG_READ, NV_RECORD_READ, STATS_READ, CERT_CHAIN_GET, BIST_RESULT,
THERMAL_READ, MARGIN_REPORT, LINK_STATUS and SITE_STATUS (R298, R319, R351–R353, R373, R408, R460, R461, R494, R496). -/
namespace Sys2Proof.Machine

/-- A letter whose work has begun and that is still to be answered. -/
def State.isBusy (s : State) (src : LSrc) : Bool := s.letters.any (fun q => q.src == src && q.busy)

/-- A signed number in n bytes, in two's complement. -/
def leI (n : Nat) (v : Int) : Bytes := le n (v % (2 ^ (8 * n) : Nat)).toNat

/-- One free value has been taken. -/
def State.tookFree (s : State) : State := { s with fresh := s.fresh + 1 }

/-- A result letter whose result may hold free values, taken at the counter's present value. -/
def Sem.readFree (res : State → Bytes → Bytes) (own : State → Bytes → Bytes := fun _ _ => []) : Sem :=
  { Sem.read res own with go := fun s src b => (s.result src (own s b) (res s b)).tookFree }

/-! ## IDENTIFY (R352) -/

/-- DEBUG of IDENTIFY and of the attestation report. -/
def State.debugByte (s : State) : Nat :=
  (match s.sec.debug with | .locked => 0 | .operator => 1 | .vendor => 2) + 128 * b2n s.sec.debugFuse

/-- The slot that runs: after FW_ACTIVATE the boot-control record already names the other one (R465). -/
def State.runSlot (s : State) : Nat := if s.board.resetDue then 1 - s.flash.active else s.flash.active

/-- Site record of IDENTIFY. -/
def State.identSite (s : State) (n : Nat) : Bytes :=
  let x := s.site n
  let b := x.block
  if b = [] then recOf 96 [(9, 1, x.mode.code)]
  else slice b 8 8 ++ [BitVec.ofNat 8 (if s.guestSite n then 0xFF else tget 21 s.dev.deadPos n), BitVec.ofNat 8 x.mode.code]
    ++ zeros 6 ++ slice b 16 16 ++ slice b 32 32 ++ slice b 192 32

/-- STATE as IDENTIFY reports it; before READY the spec gives it no value (a free value). -/
def State.identState (s : State) : Nat :=
  if s.serves then s.stateCode else (Config.freeByte s.fresh 0).toNat

/-- The identity record, 1,280 bytes. -/
def State.identity (s : State) : Bytes :=
  let o := s.runSlot
  recOf 128 [(0, 4, Config.mfrId.toNat), (4, 16, unle (ascii "ZLV-H12")), (20, 4, s.fuse.package.toNat), (24, 4, s.fuse.population.toNat),
    (28, 4, s.links.ownInc.toNat), (32, 1, s.identState), (33, 1, s.dev.unfitCause.toNat), (34, 1, s.dev.layout),
    (35, 1, s.links.device), (36, 1, s.debugByte), (37, 1, b2n s.dev.priority), (38, 2, s.dev.spreadS), (40, 4, s.flash.fusedSv),
    (44, 1, o + 2 * b2n (s.flash.staged.getLsbD (1 - o))), (48, 4, Config.romVersion.toNat), (52, 12, s.dev.image.version.toNat)]
  ++ ((List.range 12).map s.identSite).flatten

/-- IDENTIFY (R352). -/
def execIdentify (src : LSrc) (s : State) : Out :=
  atSrc src (s.runLetter 0x0101 (Sem.readFree (fun s _ => s.identity)) src)

/-! ## CAPS_GET (R373) -/

/-- WIDTH of array a, 0 for a vacant number. -/
def State.capWidth (s : State) (a : Nat) : Nat := if s.vacantSite (a / 672) then 0 else s.width (a / 4) (a % 4)

/-- The capability table, 8,320 bytes. -/
def State.capTable (s : State) : Bytes :=
  let up := (List.range 12).filter (fun n => !s.guestSite n && (s.site n).mode == .up)
  let k := up.length
  let w := (List.range 8064).map s.capWidth
  let upW := up.flatMap (fun n => (w.drop (672 * n)).take 672)
  let mask (l : List Nat) : Nat := (l.map (fun i => 2 ^ i)).sum
  let h := recOf 256 ([(0, 4, 1), (4, 4, 8320), (8, 4, s.fuse.population.toNat), (12, 2, 168 * k), (14, 2, 21 * k), (16, 4, 672 * k),
    (20, 2, mask s.upSites), (22, 2, bf s.fuse.population 27 16), (24, 4, 2250000), (28, 4, 1024 * 2250000 * upW.sum / 16 / 1000000),
    (32, 2, (upW.filter (· == 15)).length), (34, 2, (upW.filter (· == 14)).length), (36, 4, 0xFFBF), (40, 1, 3), (41, 1, 7),
    (42, 1, s.dev.layout), (43, 1, 32), (44, 1, 64), (45, 1, 16), (46, 2, 256), (48, 8, 672 * 2 ^ 30), (56, 2, s.dev.spreadS),
    (58, 1, b2n s.dev.priority), (59, 1, ((List.range 12).map (fun k => (s.stack k).refresh)).foldl max 1), (60, 4, 2304), (64, 2, 128),
    (66, 2, 512), (68, 1, 8), (69, 1, 7), (70, 2, 512), (72, 2, 256), (76, 2, mask s.upPorts), (78, 1, s.links.minPorts),
    (79, 1, s.links.device), (96, 1, (s.hport 0).rate), (97, 1, (s.hport 0).width), (98, 1, (s.hport 1).rate), (99, 1, (s.hport 1).width),
    (100, 2, s.pwr.cap), (102, 2, 1500), (104, 2, 4000), (106, 2, 4096), (108, 2, 64), (110, 1, 16), (111, 1, 64), (112, 4, 67108864),
    (116, 4, 16384), (120, 4, s.flash.fusedSv), (124, 4, 12288)]
    ++ (List.range 16).map (fun l => (80 + l, 1, (s.port l).width)))
  h ++ w.map (BitVec.ofNat 8)

/-- CAPS_GET (R373). -/
def execCapsGet (src : LSrc) (s : State) : Out := atSrc src (s.runLetter 0x0102 (Sem.read (fun s _ => s.capTable)) src)

/-! ## LOG_READ, NV_RECORD_READ (R449, R494) -/

/-- FIRST, LOST and the entries from FIRST on that COUNT allows. -/
def State.logSpan (s : State) (b : Bytes) : Nat × Nat × List LogEntry :=
  let st := rd b 48 8
  let oldest := match s.log.ring.head? with | some e => e.seq | none => s.log.nextSeq
  let first := max st oldest
  (first, if st ≠ 0 then oldest - st else 0, ((s.log.ring.filter (fun e => decide (e.seq ≥ first))).take (rd b 56 4)))

/-- The entries a LOG_READ answers with: on the host path, as many whole ones as RESULT_LEN allows. -/
def State.logTaken (s : State) (src : LSrc) (b : Bytes) : List LogEntry :=
  let l := (s.logSpan b).2.2
  match src with
  | .host _ _ _ => l.take (rd b 40 4 / 64)
  | .mgmt _ => l

/-- LOG_READ: RESULT_SMALL only when not even one entry fits (R494). -/
def semLogRead : Sem where
  range := fun _ _ b => firstBad [(decide (rd b 56 4 < 1 ∨ rd b 56 4 > 16384), 56)]
  own := fun s src b =>
    match src with
    | .host p f _ =>
      let none_ : Bool := match (s.fn p f).tray with | some t => t.resLen == 0 | none => true
      let want : Bool := (s.logSpan b).2.2 != []
      if none_ ∨ (want ∧ rd b 40 4 < 64) then some (stResultSmall, if want then 64 else 0) else none
    | .mgmt _ => none
  go := fun s src b =>
    let l := s.logTaken src b
    let x := s.logSpan b
    s.result src (le 8 x.1 ++ le 8 (x.1 + l.length) ++ le 4 x.2.1) (l.flatMap LogEntry.bytes)

/-- LOG_READ (R494). -/
def execLogRead (src : LSrc) (s : State) : Out := atSrc src (s.runLetter 0x0103 semLogRead src)

/-- SEQ of a slot that holds a valid event record (R449, R450). -/
def nvSeqOf (b : Bytes) : Option Nat :=
  if b.length = 256 ∧ rd b 0 4 = 0x56454C5A ∧ rd b 252 4 = crc32c (b.take 252) then some (rd b 8 8) else none

/-- NEWEST: the slot of the valid record with the highest SEQ, 0xFF for none. -/
def State.nvNewest (s : State) : Nat :=
  (s.flash.nv.foldl (fun (a : Nat × Nat) e =>
    match nvSeqOf e.2 with
    | some q => if q > a.2 ∨ a.1 = 0xFF then (e.1, q) else a
    | none => a) (0xFF, 0)).1

/-- The slots NV_RECORD_READ names, as they stand; an erased slot reads as ones. -/
def State.nvSlots (s : State) (b : Bytes) : Bytes :=
  (List.range (rdb b 49)).flatMap (fun i => tget (List.replicate 256 (0xFF : Byte)) s.flash.nv ((rdb b 48 + i) % 64))

/-- NV_RECORD_READ (R494). -/
def execNvRecordRead (src : LSrc) (s : State) : Out :=
  atSrc src (s.runLetter 0x0104 (Sem.read (fun s b => s.nvSlots b) (fun s _ => [BitVec.ofNat 8 s.nvNewest])
    (fun _ _ b => firstBad [(decide (rdb b 48 > 63), 48), (decide (rdb b 49 < 1 ∨ rdb b 49 > 64), 49)])) src)

/-! ## STATS_READ (R353) -/

/-- The 22 registers of R270 of the interface of a unit. -/
def State.netStat (s : State) (u : W32) : List Nat :=
  match (List.range 392).find? (fun i => ifUnit i == u && (s.ifRouter i).isSome) with
  | some i => (List.range 22).map (fun j => (tget 0 (s.nif i).stat j).toNat)
  | none => List.replicate 22 0

/-- Numbers of a class of R353's table, 0 for a class not in it. -/
def statsCount (cls : Nat) : Nat :=
  match cls with
  | 0x01 => 4 | 0x02 => 12 | 0x03 => 252 | 0x08 => 32 | 0x09 => 12 | 0x0A => 12 | 0x0B => 16 | 0x0C => 4 | 0x0D => 32 | 0x0E => 16 | 0x0F => 2
  | _ => 0

/-- Is a word the identifier of a unit of the table's classes: an index that no unit has is a field out of range (R22, R346, R353). -/
def statsKnown (u : Nat) : Bool := decide (u % 2 ^ 24 < statsCount (u / 2 ^ 24))

/-- Is the number of a unit vacant (R21, R353). -/
def State.statsVacant (s : State) (u : Nat) : Bool := u / 2 ^ 24 == 3 && s.vacantSite (u % 2 ^ 24 / 21)

/-- The values of a unit, in the table's order. -/
def State.statsValues (s : State) (u : Nat) : List Nat :=
  let i := u % 2 ^ 24
  let words (rdr : Nat → Nat) (base n : Nat) : List Nat := (List.range n).map (fun j => rdr (base + 8 * j))
  let net := s.netStat (BitVec.ofNat 32 u)
  match u / 2 ^ 24 with
  | 0x01 => words (s.xlateReg (12 + i)) 0x100 6
  | 0x02 => words (s.siteReg i) 0x100 6 ++ [s.siteReg i 0x010]
      ++ (if s.guestSite i then List.replicate 6 0 else words (s.xlateReg i) 0x100 6)
  | 0x03 => net ++ [s.clusterReg i 0x000]
  | 0x09 => [s.stackReg i 0x000] ++ words (s.stackReg i) 0x100 6 ++ words (s.stackReg i) 0x200 8
      ++ [s.stackReg i 0x240, s.stackReg i 0x288, s.stackReg i 0x290]
  | 0x0A => words (s.stackReg i) 0x180 4 ++ [s.stackReg i 0x068, s.stackReg i 0x060]
  | 0x0B => [s.svReg i 0x1008, s.svReg i 0x1010, s.svReg i 0x1018] ++ net
  | 0x0C => [s.winReg i 0x1008, s.winReg i 0x1010] ++ net
  | _ => net

/-- A STATS_READ result. -/
def State.stats (s : State) (b : Bytes) : Bytes :=
  let u := rd b 48 4
  let l := s.statsValues u
  le 4 u ++ le 4 l.length ++ le 8 s.time ++ l.flatMap (le 8)

/-- STATS_READ (R353). -/
def execStatsRead (src : LSrc) (s : State) : Out :=
  atSrc src (s.runLetter 0x0604 (Sem.read (fun s b => s.stats b) (fun _ _ => [])
    (fun _ _ b => firstBad [(!statsKnown (rd b 48 4), 48)])
    (fun s _ b => if statsKnown (rd b 48 4) ∧ s.statsVacant (rd b 48 4) then some 48 else none)) src)

/-! ## CERT_CHAIN_GET (R408) -/

/-- An entry of the chain. -/
def certEntry (kind : Nat) (der : Bytes) : Bytes :=
  recOf 8 [(0, 1, kind), (4, 4, der.length)] ++ der ++ zeros ((8 - der.length % 8) % 8)

/-- A certificate of the identity area, which is 60 KiB (R407, R464). -/
def idCert (kind : Nat) : Bytes := (Config.identityCert kind).take 61440

/-- The certificate chain, leaf first: the key that signs outside VENDOR_DEBUG or in it, binding, DeviceID, device CA. -/
def State.certChain (s : State) : Bytes :=
  let leaf := if s.sec.debug = .vendor then 2 else 1
  le 4 4 ++ zeros 4 ++ certEntry leaf (tget [] s.sec.certs leaf) ++ certEntry 3 (idCert 3)
    ++ certEntry 4 (idCert 4) ++ certEntry 5 (idCert 5)

/-- CERT_CHAIN_GET (R408). -/
def execCertChainGet (src : LSrc) (s : State) : Out := atSrc src (s.runLetter 0x0703 (Sem.read (fun s _ => s.certChain)) src)

/-! ## BIST_RESULT (R496) -/

/-- Die record of BIST_RESULT for die d: 0–11 the sites, 12–15 the field dies. -/
def bistDie (d tested status repaired sig expect fails first : Nat) : Bytes :=
  recOf 32 [(0, 4, (uidDie d).toNat), (4, 1, tested), (5, 1, status), (6, 2, repaired), (8, 8, sig), (16, 8, expect), (24, 4, fails),
    (28, 4, first)]

/-- The result of the last BIST_RUN, 576 bytes. Without one since whole reset RESULT is 0, and no die was tested; of a run that a
reset ended only the header's SCOPE, RESULT and START are held (R495). -/
def State.bistReport (s : State) : Bytes :=
  let none_ := ((List.range 16).map (fun d => bistDie d 0 4 0 0 0 0 0xFFFFFFFF)).flatten
  if s.sec.bistResult = [] then recOf 64 [(0, 4, 1), (4, 4, 576)] ++ none_
  else if s.sec.bistResult.length < 576 then slice s.sec.bistResult 0 64 ++ none_
  else s.sec.bistResult

/-- BIST_RESULT (R496). -/
def execBistResult (src : LSrc) (s : State) : Out := atSrc src (s.runLetter 0x0902 (Sem.read (fun s _ => s.bistReport)) src)

/-! ## THERMAL_READ (R461) -/

/-- m°C of a temperature code, rounded down. -/
def milliC (code : Int) : Int := (code * 125) / 2 - 64000

/-- Entry of a channel. The VALUE of an absent channel is a free value. -/
def State.thermEntry (s : State) (c : Nat) : Bytes :=
  let sus := s.pwr.suspect.contains c
  let fl := b2n sus + 2 * b2n (s.chan c).isNone + 4 * b2n (sus && (nbMedian s.pwr.readings s.pwr.suspect c).isSome)
    + 8 * b2n (s.pwr.clamped.contains c)
  le 2 c ++ [BitVec.ofNat 8 (chKind c), BitVec.ofNat 8 fl]
    ++ (match s.chan c with
      | some v => leI 4 (if chKind c = 0 then milliC v else v)
      | none => (List.range 4).map (fun j => Config.freeByte s.fresh (4 * c + j)))

/-- Bit n for site n and bit 12 + f for field die f. -/
def dieMask (q : Nat → Bool) : Nat := ((List.range 16).map (fun d => if q d then 2 ^ d else 0)).sum

/-- The readings, 3,936 bytes. HOTTEST is a free value when no temperature channel has a reading. -/
def State.thermal (s : State) : Bytes :=
  let hot := match s.hottest.head? with
    | some x => leI 4 (milliC x.2) ++ le 2 x.1
    | none => (List.range 6).map (fun j => Config.freeByte s.fresh (2000 + j))
  putBytes (recOf 64 [(0, 4, 1), (4, 4, 484), (8, 8, s.pwr.rounds), (16, 8, s.pwr.roundTime), (24, 4, s.inputMw), (28, 2, s.pwr.cap),
      (32, 2, dieMask (fun d => (s.pd d).warn)), (34, 2, dieMask (fun d => (s.pd d).thr)), (36, 2, dieMask (fun d => decide (s.suspects d > 0)))])
    40 hot ++ ((List.range 484).map s.thermEntry).flatten

/-- THERMAL_READ (R461). -/
def execThermalRead (src : LSrc) (s : State) : Out :=
  atSrc src (s.runLetter 0x0A02 (Sem.readFree (fun s _ => s.thermal)) src)

/-! ## MARGIN_REPORT (R457, R460) -/

/-- Is a die absent for the gauges: a guest die, or a down site. -/
def State.noGauges (s : State) (d : Nat) : Bool := decide (d < 12) && s.vacantSite d

/-- MARGIN of a die in mV (R458). -/
def State.marginMv (s : State) (d : Nat) : Int := 800 - ((Config.vFuse d 16 + guardMv d (s.pd d).slow : Nat) : Int)

/-- Die record of MARGIN_REPORT. -/
def State.marginDie (s : State) (d : Nat) : Bytes :=
  let x := s.pd d
  if s.noGauges d then recOf 32 [(0, 4, (uidDie d).toNat), (5, 1, 1)]
  else
    putBytes (recOf 32 [(0, 4, (uidDie d).toNat), (4, 1, ((dieGauges d).filter (fun c => (tfind s.pwr.raw c).isSome)).length),
      (5, 1, 2 * b2n (decide (d < 12 ∧ x.planMax < 16)) + 4 * b2n (decide (s.marginMv d < 0))), (8, 4, x.slow), (12, 2, Config.vFuse d 16),
      (14, 2, guardMv d x.slow), (16, 2, x.plan), (20, 4, if d < 12 then 140625 * x.planMax else 0), (24, 2, x.measTemp)])
      18 (leI 2 (s.marginMv d))

/-- Least margin among the dies of a partition. -/
def State.leastMargin (s : State) (p : Nat) : Int :=
  let l := ((List.range 16).filter (fun d => !s.noGauges d && (if d < 12 then s.partOfSite d else s.partOfDie (d - 12)) == p)).map s.marginMv
  match l with
  | [] => 0
  | x :: t => t.foldl min x

/-- Partition record of MARGIN_REPORT. -/
def State.marginPart (s : State) (p : Nat) : Bytes :=
  if p ≥ s.dev.layout then zeros 16
  else [if (s.part p).phase = .none then 1 else 2, 0] ++ leI 2 (s.leastMargin p) ++ le 4 (s.aclkSus p) ++ le 2 (s.budgetW p) ++ zeros 6

/-- The margins, 608 bytes. -/
def State.margins (s : State) : Bytes :=
  recOf 32 [(0, 4, 1), (4, 4, s.flash.poh), (8, 8, s.time), (16, 8, s.pwr.measured), (24, 2, s.pwr.cap)]
    ++ ((List.range 16).map s.marginDie).flatten ++ ((List.range 4).map s.marginPart).flatten

/-- MARGIN_REPORT: with MEASURE the gauges are read first, and the answer waits for the new plan (R457). -/
def semMargin : Sem :=
  { Sem.read (fun s _ => s.margins) with
    go := fun s src b =>
      if nbit (rdb b 48) 0 then ({ s with pwr := { s.pwr with measuring := true } } : State).busyLetter src
      else s.result src [] s.margins }

/-- MARGIN_REPORT (R460). -/
def execMarginReport (src : LSrc) (s : State) : Out := atSrc src (s.runLetter 0x0A05 semMargin src)

/-- The busy letters of an opcode. -/
def State.busyOf (s : State) (op : Nat) : List LSrc :=
  (s.letters.filter (fun q => q.busy && (match s.letterAt q.src with | some b => opOf b == op | none => false))).map (·.src)

/-- WEAR_MEASURE_DONE: the plan follows the measurement, the reserves are recomputed, and the letters that asked for it are
answered (R397, R457, R458). -/
def execWearMeasureDone (slow : Tbl Int) (s : State) : Out :=
  .next <|
    if s.pwr.measuring then
      let s := (s.wearDone slow).recheck
      (s.busyOf 0x0A05).foldl (fun s src => s.result src [] s.margins) s
    else s

/-! ## LINK_STATUS, SITE_STATUS (R298, R319) -/

/-- Record of a port. -/
def State.linkRec (s : State) (l : Nat) : Bytes :=
  let p := s.port l
  recOf 64 [(0, 4, 0x0E000000 + l), (4, 1, p.mode.code), (5, 1, p.width), (6, 1, p.lanes.toNat), (7, 1, p.group), (8, 1, p.partner),
    (9, 1, p.partnerPort), (10, 1, p.cause.toNat),
    (11, 1, b2n (s.links.fenced.contains p.partner) + 2 * b2n s.links.below + 4 * b2n p.pdSent), (12, 4, p.inc.toNat),
    (16, 8, p.fecFixed.toNat), (24, 4, p.fecUnfixed.toNat), (28, 4, p.replays.toNat), (32, 4, p.retrains.toNat), (36, 4, p.ser.toNat),
    (40, 8, p.bytesOut.toNat), (48, 8, p.bytesIn.toNat), (56, 4, p.refused.toNat), (60, 2, p.expressMax.toNat)]

/-- LINK_STATUS (R319). -/
def execLinkStatus (src : LSrc) (s : State) : Out :=
  atSrc src (s.runLetter 0x0B01 (Sem.read (fun s _ => ((List.range 16).map s.linkRec).flatten)) src)

/-- FW_DIGEST of a site: the digest reported, or for a Varoft die the core firmware's (R298). -/
def State.siteDigest (s : State) (n : Nat) : Bytes :=
  slice (if s.guestSite n then (s.site n).digest else tget [] s.dev.image.digests 3) 0 32

/-- Record of a site. -/
def State.siteRec (s : State) (n : Nat) : Bytes :=
  let x := s.site n
  let used := (List.range 128).map (fun i => (tget [] x.spares i).length)
  putBytes (recOf 64 [(0, 4, 0x02000000 + n), (4, 1, x.mode.code), (5, 1, x.version), (6, 2, rd x.block 8 2), (8, 2, rd x.block 10 2),
    (10, 1, if s.guestSite n then 0xFF else tget 21 s.dev.deadPos n), (11, 1, x.cause.toNat), (12, 2, used.sum), (14, 1, used.foldl max 0),
    (16, 4, min 0xFFFFFFFF (tget 0 x.err 0).toNat), (20, 2, x.pGrant), (22, 2, x.pNow), (24, 2, x.temp), (26, 2, x.array),
    (28, 4, min 0xFFFFFFFF (tget 0 x.err 2).toNat)]) 32 (s.siteDigest n)

/-- SITE_STATUS (R298). -/
def execSiteStatus (src : LSrc) (s : State) : Out :=
  atSrc src (s.runLetter 0x0B03 (Sem.read (fun s _ => ((List.range 12).map s.siteRec).flatten)) src)

end Sys2Proof.Machine
end

