-- ==== Sys2Proof/Machine/Tables.lean ====
section
/-! DEFINITION. Page tables and the ASID table as firmware keeps them, and the allocation of device memory (R225–R231, R369,
R488, R514). Where firmware places its tables in firmware memory is the model's choice (log 66). -/
namespace Sys2Proof.Machine

/-- Issuer of firmware's own accesses. -/
def fwIss : Issuer := { unit := uid 0x0D 0, asid := 0, cls := 4 }

/-- Address of the second copy of a table byte, in stack 3. -/
def fwCopy (a : Nat) : Nat := 3 * 2 ^ 36 + a

/-- Both copies of a table byte are poisoned: the device enters UNFIT with cause 0x05 (R488). -/
def State.fabricLost (s : State) (a : Nat) : State :=
  ((s.logAt 0x0607 (uid 0x0D 0) a []).enterUnfit 5 0x0B (uid 0x0D 0) (le 8 a ++ le 8 (fwCopy a)))

/-- Firmware reads an 8-byte entry: from the first copy; where that is poisoned from the second, whose sector rewrites the first
(R488). -/
def State.fwRead (s : State) (a : Nat) : Option Nat × State :=
  match s.tableRead fwIss a with
  | (some v, s) => (some v, s)
  | (none, s) =>
    let (b, st, s) := s.devRead fwIss (fwCopy (a / 32 * 32)) 32 hintNormal
    if st = .ok then (some (rd (b.map (·.1)) (a % 32) 8), (s.devWrite fwIss (a / 32 * 32) b hintNormal).2)
    else (none, s.fabricLost (a / 32 * 32))

/-- Firmware writes an 8-byte entry (R230). -/
def State.fwPut (s : State) (a v : Nat) : State := s.fwWrite a (le 8 v)

/-! ## Tables -/

/-- Physical address of a slot of the pool of tables (log 66). -/
def ptAddr (slot : Nat) : Nat := 0x200000 + slot * 65536
/-- Slots of the pool. -/
def ptSlots : Nat := 16352

/-- Entries of a level are each 2^k bytes of virtual address (R225). -/
def ptLog (level : Nat) : Nat := if level = 0 then 42 else if level = 1 then 29 else 16
/-- A table of a level covers 2^k bytes. -/
def ptSpan (level : Nat) : Nat := if level = 0 then 52 else if level = 1 then 42 else 29

/-- The table of an ASID and level that covers an address. -/
def State.ptFind (s : State) (asid level va : Nat) : Option PtTable :=
  s.serve.tables.find? (fun t => t.asid == asid && t.level == level && t.base == va / 2 ^ ptSpan level * 2 ^ ptSpan level)

/-- Address of the entry of a table for an address. -/
def PtTable.entry (t : PtTable) (va : Nat) : Nat := ptAddr t.slot + (va - t.base) / 2 ^ ptLog t.level * 8

/-- Address of the ASID table's entry (R231). -/
def asidEntry (asid : Nat) : Nat := asidTable + asid * 8

/-- A new table, all entries invalid, in the lowest free slot; none when the pool is used up. -/
def State.ptNew (s : State) (asid level va : Nat) : Option (PtTable × State) :=
  match (List.range ptSlots).find? (fun n => !s.serve.tables.any (fun t => t.slot == n)) with
  | none => none
  | some n =>
    let t : PtTable := { slot := n, asid := asid, level := level, base := va / 2 ^ ptSpan level * 2 ^ ptSpan level }
    let s := (List.range (if level = 0 then 256 else 2048)).foldl (fun s i => s.fwWrite (ptAddr n + 32 * i) (zeros 32)) s
    some (t, s.setServe { s.serve with tables := s.serve.tables ++ [t] })

/-- The table of a level for an address, made and entered in its parent where there is none yet. -/
def State.ptGet (s : State) (asid : Nat) : Nat → Nat → Option (PtTable × State)
  | 0, _ => (s.ptFind asid 0 0).map (·, s)
  | level + 1, va =>
    match s.ptFind asid (level + 1) va with
    | some t => some (t, s)
    | none =>
      match s.ptGet asid level va with
      | none => none
      | some (par, s) =>
        match s.ptNew asid (level + 1) va with
        | none => none
        | some (t, s) => some (t, s.fwPut (par.entry va) (ptAddr t.slot + 1))

/-- The tables of an ASID are given back. -/
def State.ptDrop (s : State) (p : PtTable → Bool) : State :=
  s.setServe { s.serve with tables := s.serve.tables.filter (fun t => !p t) }

/-- Entries of a table that a range overlaps: address, first virtual address, log of its bytes. -/
def PtTable.hits (t : PtTable) (va len : Nat) : List (Nat × Nat × Nat) :=
  let k := ptLog t.level
  let lo := max va t.base
  let hi := min (va + len) (t.base + 2 ^ ptSpan t.level)
  if hi ≤ lo then []
  else
    let i := (lo - t.base) / 2 ^ k
    (List.range ((hi - 1 - t.base) / 2 ^ k + 1 - i)).map (fun j => (ptAddr t.slot + 8 * (i + j), t.base + (i + j) * 2 ^ k, k))

/-- A valid leaf found in the tables. -/
structure LeafAt where
  /-- [52b R226/09 -] physical address of its entry -/
  addr : Nat
  /-- [52b R225/09 -] first virtual address -/
  va : Nat
  /-- [5b R225/09 -] log of its bytes: 16 or 29 -/
  log2 : Nat
  /-- [64b R226/09 -] the entry -/
  entry : Nat
  deriving DecidableEq, Repr

/-- First virtual address and bytes that cannot be cut: a block, a contiguous group or a page (R241). -/
def LeafAt.whole (l : LeafAt) : Nat × Nat :=
  if l.log2 = 16 ∧ nbit l.entry 10 then (l.va / 2 ^ 21 * 2 ^ 21, 2 ^ 21) else (l.va, 2 ^ l.log2)

/-- Valid leaves of an ASID that a range overlaps, as firmware reads them. -/
def State.leaves (s : State) (asid va len : Nat) : List LeafAt × State :=
  ((s.serve.tables.filter (fun t => t.asid == asid && t.level != 0)).flatMap (fun t => t.hits va len)).foldl
    (fun (a : List LeafAt × State) h =>
      let (v, s) := a.2.fwRead h.1
      match v with
      | some e => if nbit e 0 ∧ nbit e 1 then (a.1 ++ [{ addr := h.1, va := h.2.1, log2 := h.2.2, entry := e }], s) else (a.1, s)
      | none => (a.1, s)) ([], s)

/-! ## Allocation (R369, R514) -/

/-- The lowest free place of g bytes, aligned to g, from a up to top. -/
def nextFree (used : List (Nat × Nat)) (g top : Nat) : Nat → Nat → Option Nat
  | 0, _ => none
  | f + 1, a =>
    if a + g > top then none
    else
      match used.find? (fun u => overlap a g u.1 u.2) with
      | none => some a
      | some u => nextFree used g top f (roundUp (u.1 + u.2) g)

/-- Up to n free places of g bytes, lowest first. -/
def takeFree (g top : Nat) : Nat → List (Nat × Nat) → Nat → List Nat
  | 0, _, _ => []
  | n + 1, used, a =>
    match nextFree used g top (used.length + 1) a with
    | none => []
    | some x => x :: takeFree g top n ((x, g) :: used) (x + g)

/-- Stack k's part of the local windows that contexts and models can use: first address and end (R514). -/
def State.localPart (s : State) (k : Nat) : Nat × Nat := (k * 2 ^ 36 + gib, k * 2 ^ 36 + (56 - s.dev.spreadS) * gib)

/-- A partition's spread share as physical addresses: the part below spread offset 192 GiB and the part above (R134, R135). -/
def State.shareParts (s : State) (p : Nat) : List (Nat × Nat) :=
  let sh := tget (0, 0) s.dev.shares p
  [(0xC000000000 + sh.1 * gib, 0xC000000000 + min sh.2 192 * gib), (0xC100000000 + max sh.1 192 * gib, 0xC100000000 + sh.2 * gib)].filter
    (fun x => decide (x.1 < x.2))

/-- Tokens for which a request in progress holds KV pages: those it will prefill, then those processed (R383, R385). -/
def ReqState.kvTokens (r : ReqState) : Nat := if r.phase = .prefill then r.prompt.length + r.outp.length else r.filled

/-- Bytes of KV memory that requests hold in stack k (R385, R386). -/
def State.kvUsed (s : State) (k : Nat) : Nat :=
  ((s.serve.reqs.filter (fun e => e.2.inProgress && e.2.stack == k)).map (fun e =>
    kvSeqBytes (s.manifest e.2.ctx) (pageTokens (s.ctx e.2.ctx).psize) e.2.kvTokens - 65536 * e.2.spilled.length)).sum

/-- Bytes allocated between two addresses. -/
def State.allocIn (s : State) (a b : Nat) : Nat := ((s.serve.allocs.filter (fun x => decide (a ≤ x.phys ∧ x.phys < b))).map (·.len)).sum

/-- Bytes of stack k's local window that nothing uses. -/
def State.localFree (s : State) (k : Nat) : Nat :=
  let r := s.localPart k
  (r.2 - r.1) - s.allocIn r.1 r.2 - s.kvUsed k

/-- n places of g bytes in a region of partition p: 0–11 a local window, 12 the spread share; none where it has no room. -/
def State.findRoom (s : State) (p region g n : Nat) : Option (List Nat) :=
  let used := s.serve.allocs.map (fun a => (a.phys, a.len))
  let parts := if region < 12 then [s.localPart region] else s.shareParts p
  let l := parts.foldl (fun (l : List Nat) r => l ++ takeFree g r.2 (n - l.length) used r.1) []
  if l.length < n ∨ region < 12 ∧ s.localFree region < n * g then none else some l

/-- Device memory is filled with zero through a hub DMA engine of partition p (R241, R420). -/
def State.zeroDev (s : State) (p phys len : Nat) : State :=
  let f := ((List.range 4).find? (fun f => s.partOfDie f == p)).getD 0
  (List.range (len / 32)).foldl (fun s i =>
    (s.devWrite { unit := uid 0x08 (f * 8), asid := 0, cls := p } (phys + 32 * i) (mark false (zeros 32)) hintStream).2) s

/-- Allocations that satisfy a predicate are filled with zero and released. -/
def State.release (s : State) (p : Nat) (sel : Alloc → Bool) : State :=
  let s := (s.serve.allocs.filter sel).foldl (fun s a => s.zeroDev p a.phys a.len) s
  s.setServe { s.serve with allocs := s.serve.allocs.filter (fun a => !sel a) }

end Sys2Proof.Machine
end

