-- ==== Sys2Proof/Machine/Spaces.lean ====
section
/-! DEFINITION. The memory letters (R135, R136, R168, R170, R223–R247, R369, R430). -/
namespace Sys2Proof.Machine

/-- Translation units of a partition: its Varoft dies in UP sites and its field dies. -/
def State.unitsOf (s : State) (p : Nat) : List Nat :=
  (List.range 16).filter (fun d =>
    if d < 12 then s.partOfSite d == p && !s.guestSite d && (s.site d).mode == .up else s.partOfDie (d - 12) == p)

/-- ASID of a context. -/
def State.asidOf (s : State) (c : Nat) : Nat := (s.ctx c).asid

/-- Waiting accesses of an ASID on pages of a range are replayed, or cancelled (R240). -/
def State.releaseRange (s : State) (asid va len : Nat) (cancel : Bool) : State :=
  (List.range 16).foldl (fun s d =>
    let x := s.xl d
    let pages := ((x.slots ++ x.overflow).filter (fun w => w.asid == asid && decide (va ≤ w.va ∧ w.va < va + len))).map (fun w => w.va / 65536 * 65536)
    pages.foldl (fun s pg => if cancel then s.cancel d asid pg else s.replay d asid pg) s) s

/-! ## MAP_RANGE (R223–R228, R232, R242) -/

/-- Log of the bytes that SIZE gives. -/
def mapLog (b : Bytes) : Nat := match rdb b 59 with | 1 => 21 | 2 => 29 | _ => 16

/-- May a virtual range hold mappings of a TARGET (R223). -/
def vaOk (target va len : Nat) : Bool :=
  if target = 1 then decide (0x8000000000000 ≤ va ∧ va + len ≤ 0x8100000000000)
  else decide (0x10000 ≤ va ∧ va + len ≤ 0x8000000000000) || decide (0x8100000000000 ≤ va ∧ va + len ≤ 0xFFFFFFF000000)

/-- The fields of a MAP_RANGE that are out of range, lowest offset first. -/
def State.mapBad (s : State) (b : Bytes) : Option Nat :=
  let va := rd b 32 8
  let len := rd b 40 8
  let out := rd b 48 8
  let t := rdb b 56
  let r := rdb b 60
  let g := 2 ^ mapLog b
  let p := (s.ctx (ctxOf b)).part
  firstBad [(va % g != 0 || !vaOk t va len || (t == 1 && va != hostVirt r out), 32), (len % g != 0, 40),
    ((t == 0 && out != 0) || (t == 1 && (out % 65536 != 0 || decide (out + len > 2 ^ 43)))
      || (t == 2 && (out % g != 0 || decide (out + len > 2 ^ 44))), 48),
    (decide (t > 2), 56), (decide (rdb b 57 > 7), 57), (decide (rdb b 58 > 3), 58), (decide (rdb b 59 > 2), 59),
    ((t == 0 && (decide (r > 12) || (decide (r < 12) && s.partOfDie (r / 3) != p))) || (t == 1 && decide (r > 1)) || (t == 2 && decide (r > 7)), 60),
    (t == 1 && decide (rdb b 61 > 31), 61)]

/-- A leaf of a MAP_RANGE whose first page's output is `out` (R226, R227). -/
def mapLeaf (b : Bytes) (out : Nat) : Nat :=
  let bits := out + packN [(8, rdb b 58), (4, rdb b 57), (2, rdb b 56), (1, 1), (0, 1)]
  match rdb b 56 with
  | 0 => bits
  | 1 => bits + rdb b 61 * 2 ^ 59
  | _ => bits + rdb b 61 * 2 ^ 44 + rdb b 60 * 2 ^ 53 + rdb b 62 * 2 ^ 56

/-- Write the leaves of one granule: a page, a contiguous group or a block (R225, R228). -/
def State.mapPut (s : State) (asid : Nat) (b : Bytes) (va out : Nat) : Option State :=
  if mapLog b = 29 then
    (s.ptGet asid 1 va).map (fun x =>
      let base := va / 2 ^ 29 * 2 ^ 29
      (x.2.ptDrop (fun t => t.asid == asid && t.level == 2 && t.base == base)).fwPut (x.1.entry va) (mapLeaf b out))
  else
    (s.ptGet asid 2 va).map (fun x =>
      if mapLog b = 21 then
        (List.range 32).foldl (fun s i => s.fwPut (x.1.entry (va + i * 65536)) (mapLeaf b (out + i * 65536) + 2 ^ 10)) x.2
      else x.2.fwPut (x.1.entry va) (mapLeaf b out))

/-- Map a list of (virtual address, output). -/
def State.mapAll (asid : Nat) (b : Bytes) : List (Nat × Nat) → State → Option State
  | [], s => some s
  | (va, out) :: l, s => (s.mapPut asid b va out).bind (State.mapAll asid b l)

/-- The outputs of a MAP_RANGE's granules: allocated memory, a bus address' physical form, or a window offset. -/
def State.mapOuts (s : State) (b : Bytes) (n g : Nat) : Option (List Nat) :=
  match rdb b 56 with
  | 0 => s.findRoom (s.ctx (ctxOf b)).part (rdb b 60) g n
  | 1 => some ((List.range n).map (fun i => hostPhys (rdb b 60) (rd b 48 8 + i * g)))
  | _ => some ((List.range n).map (fun i => rd b 48 8 + i * g))

/-- Carry out a MAP_RANGE whose fields are in range; none where memory or tables run out. -/
def State.mapRange (s : State) (b : Bytes) : Option State :=
  let asid := s.asidOf (ctxOf b)
  let va := rd b 32 8
  let g := 2 ^ mapLog b
  let n := rd b 40 8 / g
  (s.mapOuts b n g).bind (fun outs =>
    let l := (List.range n).map (fun i => va + i * g) |>.zip outs
    (State.mapAll asid b l s).map (fun s =>
      let s := if rdb b 56 = 0 then
          s.setServe { s.serve with allocs := s.serve.allocs ++ l.map (fun x => { asid := asid, region := rdb b 60, va := x.1, phys := x.2, len := g }) }
        else s
      s.releaseRange asid va (rd b 40 8) false))

/-- MAP_RANGE: over a page whose entry is valid it is BAD_PARAM (R242). -/
def semMapRange : Sem where
  range := fun s _ b =>
    (s.mapBad b).orElse fun _ => if (s.leaves (s.asidOf (ctxOf b)) (rd b 32 8) (rd b 40 8)).1 = [] then none else some 32
  go := fun s src b =>
    match s.mapRange b with
    | some s => s.done src []
    | none => s.answerErr src stNoResource 0

/-- MAP_RANGE (R369). -/
def execMapRange (src : LSrc) (s : State) : Out := atSrc src (s.runLetter 0x0502 semMapRange src)

/-! ## UNMAP_RANGE (R241, R242) -/

/-- Steps 1 and 2 of R241: the leaves of a range are cleared and the invalidation goes to every unit of the partition. -/
def State.unmapStart (s : State) (part asid va len : Nat) : State :=
  let (l, s) := s.leaves asid va len
  let s := l.foldl (fun s x => s.fwPut x.addr 0) s
  (s.unitsOf part).foldl (fun s d => s.invalidate d asid va len) s

/-- Does an invalidation still wait for a client. -/
def State.unmapWaits (s : State) (asid va len : Nat) : Bool :=
  (List.range 16).any (fun d => (s.xl d).invals.any (fun i => i.asid == asid && i.va == va && i.len == len))

/-- After the last acknowledgement: allocated memory is zeroed and released, and waiting accesses are cancelled. -/
def State.unmapEnd (s : State) (part asid va len : Nat) : State :=
  (s.release part (fun a => a.asid == asid && a.model == 0 && decide (va ≤ a.va ∧ a.va < va + len))).releaseRange asid va len true

/-- The fields of an UNMAP_RANGE out of range: not on 64 KiB boundaries, beyond the address space, or cutting a block or group. -/
def State.unmapBad (s : State) (b : Bytes) : Option Nat :=
  let va := rd b 32 8
  let len := rd b 40 8
  let l := (s.leaves (s.asidOf (ctxOf b)) va len).1
  firstBad [(va % 65536 != 0, 32), (len % 65536 != 0 || decide (va + len > 2 ^ 52), 40),
    (l.any (fun x => decide (x.whole.1 < va)), 32), (l.any (fun x => decide (va + len < x.whole.1 + x.whole.2)), 40)]

/-- UNMAP_RANGE: its first event clears the entries and sends the invalidations; the event that finds the last acknowledgement in
ends it (log 65). -/
def semUnmapRange : Sem where
  range := fun s _ b => s.unmapBad b
  go := fun s src b =>
    let c := ctxOf b
    (s.unmapStart (s.ctx c).part (s.asidOf c) (rd b 32 8) (rd b 40 8)).busyLetter src

/-- UNMAP_RANGE (R241). -/
def execUnmapRange (src : LSrc) (s : State) : Out :=
  atSrc src <|
    match s.letterAt src with
    | some b =>
      let c := ctxOf b
      if opOf b = 0x0503 ∧ s.isBusy src then
        if s.unmapWaits (s.asidOf c) (rd b 32 8) (rd b 40 8) then s
        else (s.unmapEnd (s.ctx c).part (s.asidOf c) (rd b 32 8) (rd b 40 8)).done src []
      else s.runLetter 0x0503 semUnmapRange src
    | none => s

/-! ## MEM_FILL (R126, R170, R243, R369) -/

/-- Does a physical range touch firmware memory (R514). -/
def touchesFw (phys len : Nat) : Bool := (List.range 12).any (fun k => overlap phys len (k * 2 ^ 36) gib)

/-- Has partition p no context. -/
def State.noCtx (s : State) (p : Nat) : Bool := !s.ctxs.any (fun c => c.2.part == p)

/-- May a MEM_FILL write a physical range now: wholly in one local window of a partition without contexts, or wholly in the spread
window while no context exists (R369; a range outside both is among the others, DEDUCED). -/
def State.fillAllowed (s : State) (phys len : Nat) : Bool :=
  let S := s.dev.spreadS
  (List.range 12).any (fun k => s.noCtx (s.partOfDie (k / 3)) && decide (k * 2 ^ 36 ≤ phys ∧ phys + len ≤ k * 2 ^ 36 + (56 - S) * gib))
    || (s.ctxs == [] && (decide (0xC000000000 ≤ phys ∧ phys + len ≤ 0xC000000000 + min (12 * S) 192 * gib)
        || decide (0xF100000000 ≤ phys ∧ phys + len ≤ 0xF100000000 + (12 * S - 192) * gib)))

/-- The hub DMA engine that serves a fill for a partition: the first of its first field die. -/
def State.fillClient (s : State) (p asid : Nat) : Client :=
  let f := ((List.range 4).find? (fun f => s.partOfDie f == p)).getD 0
  { d := 12 + f, unit := uid 0x08 (f * 8), iss := { unit := uid 0x08 (f * 8), asid := asid, cls := p } }

/-- Where the pages of a virtual fill go; none where one does not translate for writing or touches firmware memory. -/
def State.fillTargets (s : State) (cl : Client) (va len : Nat) : Option (List (Nat × Nat × Target)) × State :=
  (parts 65536 (len / 65536 + 2) va len).foldl (fun (a : Option (List (Nat × Nat × Target)) × State) x =>
    match a.1 with
    | none => a
    | some l =>
      match a.2.translate cl.d cl.unit cl.iss cl.iss.asid x.1 kWrite true with
      | (.inr (.dev phys h), s) => if touchesFw phys x.2 then (none, s) else (some (l ++ [(x.1, x.2, .dev phys h)]), s)
      | (.inr t, s) => (some (l ++ [(x.1, x.2, t)]), s)
      | (.inl _, s) => (none, s)) (some [], s)

/-- n bytes of a repeated pattern of 8 bytes. -/
def patBytes (pat n : Nat) : PBytes := mark false ((List.replicate (n / 8) (le 8 pat)).flatten)

/-- MEM_FILL. A page of a virtual range that does not translate for writing is BAD_PARAM (DESIGN CHOICE, log 67). -/
def semMemFill : Sem where
  range := fun s _ b =>
    let a := rd b 32 8
    let n := rd b 40 8
    let c := ctxOf b
    firstBad [(a % 32 != 0 || (c == 0xFFFF && touchesFw a n), 32), (n % 32 != 0, 40), (decide (rdb b 56 > 3), 56),
      (c != 0xFFFF && (s.fillTargets (s.fillClient (s.ctx c).part (s.asidOf c)) a n).1.isNone, 32)]
  own := fun s _ b => if ctxOf b = 0xFFFF ∧ !s.fillAllowed (rd b 32 8) (rd b 40 8) then some (stBusy, 0) else none
  go := fun s src b =>
    let a := rd b 32 8
    let n := rd b 40 8
    let c := ctxOf b
    let pat := rd b 48 8
    let h := rdb b 56
    if c = 0xFFFF then
      let cl := s.fillClient (s.partOfDie (a / 2 ^ 36 / 3)) 0
      ((List.range (n / 32)).foldl (fun s i => (s.devWrite cl.iss (a + 32 * i) (patBytes pat 32) h).2) s).done src []
    else
      let cl := s.fillClient (s.ctx c).part (s.asidOf c)
      match s.fillTargets cl a n with
      | (some l, s) => (l.foldl (fun s x => (s.tgtWrite cl.iss x.2.2 (patBytes pat x.2.1) (some h)).2) s).done src []
      | (none, s) => s

/-- MEM_FILL (R369). -/
def execMemFill (src : LSrc) (s : State) : Out := atSrc src (s.runLetter 0x0501 semMemFill src)

/-! ## FAULT_BAG_SET, MIGRATE_HINTS, WINDOW_SET (R237, R239, R245–R247, R430) -/

/-- FAULT_BAG_SET: BUSY while any context exists. -/
def semFaultBag : Sem where
  range := fun _ _ b => firstBad [(!isPow2 8 16 (rd b 32 4), 32)]
  own := fun s _ _ => if s.ctxs ≠ [] then some (stBusy, 0) else none
  go := fun s src b => ({ s with bag := { s.bag with size := rd b 32 4, forward := nbit (rdb b 36) 0 } } : State).done src []

/-- FAULT_BAG_SET (R369). -/
def execFaultBagSet (src : LSrc) (s : State) : Out := atSrc src (s.runLetter 0x0504 semFaultBag src)

/-- MIGRATE_HINTS: every context it names must exist. -/
def semMigrate : Sem where
  miss := fun s _ b => if (List.range 64).any (fun c => nbit (rd b 40 8) c && !s.ctxLive c) then some 40 else none
  range := fun _ _ b => firstBad [(decide (rd b 32 4 < 1024 ∨ rd b 32 4 > 1048576), 32), (decide (rd b 36 4 < 100 ∨ rd b 36 4 > 100000), 36)]
  go := fun s src b =>
    ({ s with acc := { s.acc with threshold := rd b 32 4, decay := 1000 * rd b 36 4
                                  asids := ((List.range 64).filter (fun c => nbit (rd b 40 8) c)).map s.asidOf } } : State).done src []

/-- MIGRATE_HINTS (R245). -/
def execMigrateHints (src : LSrc) (s : State) : Out := atSrc src (s.runLetter 0x0506 semMigrate src)

/-- WINDOW_SET: an entry with VALID clear is not checked further; an ASID that no context owns is NO_SUCH (DEDUCED, log 68). An access
of this model completes when it is made, so none is waited for (R247). -/
def semWindow : Sem where
  miss := fun s _ b => if nbit (rdb b 40) 0 ∧ (s.ctxOfAsid (rd b 42 2)).isNone then some 42 else none
  range := fun _ _ b =>
    let size := rd b 56 8
    if !nbit (rdb b 40) 0 then none
    else firstBad [(rd b 48 8 % 65536 != 0 || decide (rd b 48 8 ≥ 2 ^ 52), 48), (size % 65536 != 0 || decide (size = 0 ∨ size > 2 ^ 44), 56)]
  own := fun s _ b =>
    let from_ := rdb b 41
    match s.ctxOfAsid (rd b 42 2) with
    | some c => if nbit (rdb b 40) 0 ∧ (!c.multi ∨ from_ ≠ 0xFF ∧ !c.peers.getLsbD from_) then some (stNotPermitted, 0) else none
    | none => none
  go := fun s src b =>
    let w : WindowEnt := { flags := BitVec.ofNat 8 (rdb b 40), from_ := rdb b 41, asid := rd b 42 2, base := rd b 48 8, size := rd b 56 8 }
    ({ s with windows := tset s.windows (rdb b 32) w } : State).done src []

/-- WINDOW_SET (R246, R430). -/
def execWindowSet (src : LSrc) (s : State) : Out := atSrc src (s.runLetter 0x0505 semWindow src)

/-! ## SPREAD_SET and PARTITION_SET (R23, R135, R136, R168, R232, R282, R355) -/

/-- Does no context exist and is no model loaded or loading (R349). -/
def State.vacant (s : State) : Bool := s.ctxs == [] && s.serve.models == []

/-- SHARE[p] of a SPREAD_SET. -/
def spreadShare (b : Bytes) (p : Nat) : Nat × Nat := (rd b (40 + 4 * p) 2, rd b (42 + 4 * p) 2)

/-- 1 GiB blocks of a stack whose role a change of S changes (R136). -/
def roleBlocks (s0 s1 : Nat) : List Nat := (List.range 56).filter (fun b => decide (b ≥ 56 - s0) != decide (b ≥ 56 - s1))

/-- A stack under a change of S: every line dropped, the epochs of the blocks one on, writes still held for those blocks gone. -/
def StackState.newRoles (x : StackState) (blocks : List Nat) : StackState :=
  { x with
    lines := []
    held := x.held.filter (fun h => !blocks.contains (h.sector * 32 / gib))
    epochs := blocks.foldl (fun t b => tset t b (tget 0 t b + 1)) x.epochs }

/-- The partition filters of every unit as the layout and the shares give them, and a new grant block to every site that has one (R232, R282). -/
def State.writeFilters (s : State) : State :=
  let s := (List.range 16).foldl (fun s d =>
    if d < 12 ∧ s.guestSite d then s else s.setXl d { s.xl d with filter := (List.range 4).map (fun p => (p, s.filterWord p)) }) s
  (List.range 12).foldl (fun s n => if (s.site n).grant ≠ [] then s.sendGrant n else s) s

/-- SPREAD_SET: NO_RESOURCE where an epoch would pass 254 (R168). Firmware writes the ASID table again, whose lines went without
write-back (log 66). -/
def semSpread : Sem where
  range := fun _ _ b =>
    let S := rdb b 32
    firstBad ((decide (S > 55), 32)
      :: (List.range 4).map (fun p =>
          let (x, y) := spreadShare b p
          (decide (x > y ∨ y > 12 * S) || (List.range p).any (fun q => let (u, v) := spreadShare b q; decide (x < v ∧ u < y ∧ x < y ∧ u < v)), 40 + 4 * p)))
  own := fun s _ b =>
    if !s.vacant then some (stBusy, 0)
    else if (List.range 12).any (fun k => (roleBlocks s.dev.spreadS (rdb b 32)).any (fun i => decide (tget 0 (s.stack k).epochs i ≥ 254))) then
      some (stNoResource, 0)
    else none
  go := fun s src b =>
    let S := rdb b 32
    let blocks := roleBlocks s.dev.spreadS S
    let s := if S = s.dev.spreadS then s else (List.range 12).foldl (fun s k => s.setStack k ((s.stack k).newRoles blocks)) s
    let changed := S != s.dev.spreadS
    let s : State := { s with dev := { s.dev with spreadS := S, shares := (List.range 4).map (fun p => (p, spreadShare b p)) } }
    let s := if changed then s.clearAsids else s
    s.writeFilters.done src []

/-- SPREAD_SET (R135, R136). -/
def execSpreadSet (src : LSrc) (s : State) : Out := atSrc src (s.runLetter 0x0507 semSpread src)

/-- PARTITION_SET: LAYOUT 1, 2 or 4; BUSY while a context exists or a model is loaded (R355, R422). -/
def semPartitionSet : Sem where
  range := fun _ _ b => firstBad [(!([1, 2, 4].contains (rdb b 32)), 32)]
  own := fun s _ _ => if s.vacant then none else some (stBusy, 0)
  go := fun s src b =>
    ((State.writeFilters { s with dev := { s.dev with layout := rdb b 32 } }).bumpGen).done src []

/-- PARTITION_SET (R355). -/
def execPartitionSet (src : LSrc) (s : State) : Out := atSrc src (s.runLetter 0x0201 semPartitionSet src)

end Sys2Proof.Machine
end

