-- ==== Sys2Proof/Machine/Contexts.lean ====
section
/-! DEFINITION. Contexts: creation, scheduling state, the scrub of a switch, and destruction (R318, R356, R357, R375, R395,
R399, R400, R410, R427). -/
namespace Sys2Proof.Machine

/-- n bytes from the device's DRBG, which is reseeded after 2^20 generate requests (R410). -/
def State.drbg (s : State) (n : Nat) : Bytes × State :=
  let g := s.sec.generates + 1
  let sec : SecState := if 2 ^ 20 ≤ g then { s.sec with generates := 0, reseeded := s.time } else { s.sec with generates := g }
  State.freeBytes { s with sec := sec } n

/-! ## CONTEXT_CREATE (R356) -/

/-- The lowest context ID that no context has and whose last receipt is not held (R356, R395). -/
def State.freeCtx (s : State) : Option Nat := (List.range 64).find? (fun c => !s.ctxLive c && (s.mctx c).lastRcpt.isNone)

/-- A context as CONTEXT_CREATE gives it. -/
def ctxOfLetter (asid : Nat) (b : Bytes) : CtxState :=
  { asid := asid, model := rd b 32 4, part := rdb b 36
    multi := nbit (rdb b 37) 0, reroute := nbit (rdb b 37) 1, renorm := nbit (rdb b 37) 2
    psize := rdb b 38, depth := rdb b 39, sinks := rdb b 40, recent := rdb b 41, weight := rd b 42 2
    maxTokens := rd b 44 4, maxBatch := rd b 48 4, funcs := BitVec.ofNat 64 (rd b 56 8), peers := BitVec.ofNat 256 (rd b 64 32) }

/-- CONTEXT_CREATE. The device takes the lowest free ID, and ID + 1 for the ASID (DESIGN CHOICE, log 69). -/
def semContextCreate : Sem where
  miss := fun s _ b => if (tfind s.serve.models (rd b 32 4)).isNone then some 32 else none
  range := fun s _ b =>
    let p := rdb b 36
    firstBad [(decide (p ≥ s.dev.layout) || (s.model (rd b 32 4)).part != p, 36), (decide (rdb b 38 > 2), 38), (decide (rdb b 39 > 15), 39),
      (decide (rdb b 40 > 16), 40), (decide (rdb b 41 > 64), 41), (decide (rd b 42 2 < 1 ∨ rd b 42 2 > 1000), 42),
      (decide (rd b 44 4 < 1 ∨ rd b 44 4 > 16777216), 44), (decide (rd b 48 4 < 1 ∨ rd b 48 4 > 65536), 48),
      (!nbit (rdb b 37) 0 && rd b 64 32 != 0, 64)]
  own := fun s _ b =>
    let mates := s.ctxs.filter (fun c => c.2.part == rdb b 36)
    if mates.length ≥ 32 ∨ s.ctxs.length ≥ 64 ∨ s.freeCtx.isNone then some (stNoResource, 0)
    else if nbit (rdb b 37) 0 ∧ s.links.below then some (stNoResource, 0)
    else if !(s.model (rd b 32 4)).loaded ∨ s.sec.drbgStop then some (stBusy, 0)
    else none
  go := fun s src b =>
    match s.freeCtx with
    | none => s
    | some c =>
      let asid := c + 1
      match s.ptNew asid 0 0 with
      | none => s.answerErr src stNoResource 0
      | some (t, s) =>
        let s := s.fwPut (asidEntry asid) (ptAddr t.slot + 2 * rdb b 36 + 1)
        let (key, s) := s.drbg 32
        let s : State := { s with
          ctxs := tset s.ctxs c (ctxOfLetter asid b)
          sec := { s.sec with offload := tset s.sec.offload c key, pageSeq := tset s.sec.pageSeq c 0 } }
        (s.setMctx c { cur := { start := s.time }, rcpt := { start := s.time } }).done src (le 2 c ++ le 2 asid)

/-- CONTEXT_CREATE (R356). -/
def execContextCreate (src : LSrc) (s : State) : Out := atSrc src (s.runLetter 0x0202 semContextCreate src)

/-! ## CONTEXT_SCHEDULE (R318, R357) -/

/-- CONTEXT_SCHEDULE. -/
def semSchedule : Sem where
  range := fun _ _ b => firstBad [(decide (rdb b 32 > 1), 32), (decide (rd b 34 2 < 1 ∨ rd b 34 2 > 1000), 34)]
  own := fun s _ b => if rdb b 32 = 0 ∧ (s.ctx (ctxOf b)).multi ∧ s.links.below then some (stNoResource, 0) else none
  go := fun s src b =>
    let c := ctxOf b
    ({ s with ctxs := tset s.ctxs c { s.ctx c with suspended := rdb b 32 == 1, weight := rd b 34 2 } } : State).done src []

/-- CONTEXT_SCHEDULE (R357). -/
def execContextSchedule (src : LSrc) (s : State) : Out := atSrc src (s.runLetter 0x0204 semSchedule src)

/-! ## The scrub of a switch: steps 1 and 2 of R399 -/

/-- Schedule of a partition. -/
def State.sched (s : State) (p : Nat) : SchedState := tget {} s.serve.sched p
/-- Replace the schedule of a partition. -/
def State.setSched (s : State) (p : Nat) (x : SchedState) : State := s.setServe { s.serve with sched := tset s.serve.sched p x }

/-- Cores of a partition. -/
def State.coresOf (s : State) (p : Nat) : List Nat := s.liveCores.filter (fun g => s.partOfCore g == p)
/-- Clusters of a partition. -/
def State.clustersOf (s : State) (p : Nat) : List Nat :=
  (List.range 252).filter (fun c => s.partOfSite (c / 21) == p && !s.guestSite (c / 21) && (s.site (c / 21)).mode != .down)
/-- Field dies of a partition. -/
def State.diesOf (s : State) (p : Nat) : List Nat := (List.range 4).filter (fun f => s.partOfDie f == p)

/-- Did a context use the spread region: its model's weights lie there, or a mapping does (R399). -/
def State.usesSpread (s : State) (c : Nat) : Bool :=
  let x := s.ctx c
  s.serve.allocs.any (fun a => a.region == 12 && (a.asid == x.asid || a.model == x.model))

/-- Slices whose lines of a context a switch walks (R399). -/
def State.slicesOf (s : State) (c : Nat) : List Nat :=
  if s.usesSpread c then List.range 12 else s.stacksOf (s.ctx c).part

/-- ENABLE cleared in a partition's winnow routers and page sieve units (R90, R201). -/
def State.disableUnits (s : State) (p : Nat) : State :=
  (s.diesOf p).foldl (fun s f =>
    let s := s.winCtxWrite f (setBf (s.win f).ctx 0 0 0)
    (List.range 4).foldl (fun s i => s.svCtxWrite (4 * f + i) (setBf (s.sv (4 * f + i)).ctx 0 0 0)) s) s

/-- May the scrub run: nothing of the partition's cores still runs, and no walk of a cache or slice it needs. -/
def State.mayScrub (s : State) (p c : Nat) : Bool :=
  (s.coresOf p).all (fun g => (s.core g).idle) && (s.clustersOf p).all (fun k => !(s.cluster k).ccBusy)
    && (s.slicesOf c).all (fun k => !(s.stack k).gBusy)

/-- CORE_SCRUB from start to end in an idle core, with its TLB emptied and its reservation gone (R119, R400). -/
def State.scrubCore (s : State) (g : Nat) : State :=
  let c := ((s.core g).scrubGo).scrubbed
  let s := s.setCore g { c with resv := none }
  let x := s.xl (siteOfCore g)
  s.setXl (siteOfCore g) { x with ctlb := tdel x.ctlb (uidCore g).toNat }

/-- Steps 1 and 2 of R399 for context c of partition p: FLUSH_INV in every core, CC_OP 0b01 in every cluster, CORE_SCRUB, ENABLE
cleared, and GRAN_OP 0b001 issued in the slices. -/
def State.scrubOut (s : State) (p c : Nat) : State :=
  let asid := s.asidOf c
  let s := (s.coresOf p).foldl (fun s g => s.flushInvOp g 1 0 0) s
  let s := (s.clustersOf p).foldl (fun s k => let s := s.ccOp k asid 1; s.setCluster k { s.cluster k with ccBusy := false }) s
  let s := (s.coresOf p).foldl (fun s g => s.scrubCore g) s
  let s := s.disableUnits p
  (s.slicesOf c).foldl (fun s k => s.granOp k 1 asid 0) s

/-! ## CONTEXT_DESTROY (R357, R395, R400, R427) -/

/-- Is a context its partition's current one. -/
def State.current (s : State) (c : Nat) : Bool := s.asidOf c != 0 && tget 0 s.dev.partAsid (s.ctx c).part == s.asidOf c

/-- The receipt period of a context ends and is held as its last (R395). -/
def State.closePeriod (s : State) (c : Nat) : State :=
  let s := s.busyTouch c
  let m := s.mctx c
  let x := s.ctx c
  s.setMctx c { m with
    busySince := none
    lastRcpt := some { period := { m.rcpt with stop := s.time }, part := x.part, model := x.model, digest := (s.model x.model).digest
                       generation := s.dev.generation } }

/-- What begins the destruction of a context: its requests end, its sessions close, it is scrubbed, and its address space is
withdrawn. -/
def State.destroyStart (s : State) (c : Nat) : State :=
  let x := s.ctx c
  let s := s.abortReqs (fun r => r.ctx == c)
  let s := s.closeSessions (fun q => q.ctx == c)
  let s := if s.current c then
      let s := s.scrubOut x.part c
      let s : State := { s with dev := { s.dev with partAsid := tset s.dev.partAsid x.part 0 } }
      s.setSched x.part { s.sched x.part with run := none }
    else (s.slicesOf c).foldl (fun s k => s.granOp k 1 x.asid 0) s
  s.unmapStart x.part x.asid 0 (2 ^ 52)

/-- Has everything that the destruction of a context waits for ended: the walks of its slices and the handshake of R241. -/
def State.destroyDone (s : State) (c : Nat) : Bool :=
  (s.slicesOf c).all (fun k => !(s.stack k).gBusy) && !s.unmapWaits (s.asidOf c) 0 (2 ^ 52)

/-- Its memory is filled with zero and released, and its tables, key, ID and ASID are freed. A window onto the address space goes
with it (DEDUCED from R242 and R430, log 68); a session opened in the meantime closes. -/
def State.destroyEnd (s : State) (c : Nat) : State :=
  let x := s.ctx c
  let s := (s.abortReqs (fun r => r.ctx == c)).closeSessions (fun q => q.ctx == c)
  let s := s.unmapEnd x.part x.asid 0 (2 ^ 52)
  let s := s.closePeriod c
  let s := (s.fwPut (asidEntry x.asid) 0).ptDrop (fun t => t.asid == x.asid)
  let s := s.setPart x.part { s.part x.part with later := srem c (s.part x.part).later }
  let s := s.setSched x.part { s.sched x.part with ran := srem c (s.sched x.part).ran, deficit := tdel (s.sched x.part).deficit c }
  { s with
    ctxs := tdel s.ctxs c
    windows := s.windows.filter (fun w => w.2.asid != x.asid)
    acc := { s.acc with asids := srem x.asid s.acc.asids, ctrs := s.acc.ctrs.map (fun e => (e.1, e.2.filter (fun k => k.asid != x.asid))) }
    sec := { s.sec with offload := tdel s.sec.offload c, pageSeq := tdel s.sec.pageSeq c } }

/-- CONTEXT_DESTROY: its first event begins the work once the scrub can run, the event that finds it ended answers (log 65). -/
def semDestroy : Sem where
  go := fun s src b =>
    let c := ctxOf b
    if (s.current c ∧ !s.mayScrub (s.ctx c).part c) ∨ (s.slicesOf c).any (fun k => (s.stack k).gBusy) then s
    else (s.destroyStart c).busyLetter src

/-- CONTEXT_DESTROY (R357). -/
def execContextDestroy (src : LSrc) (s : State) : Out :=
  atSrc src <|
    match s.letterAt src with
    | some b =>
      if opOf b = 0x0203 ∧ s.isBusy src then
        if s.destroyDone (ctxOf b) then (s.destroyEnd (ctxOf b)).done src [] else s
      else s.runLetter 0x0203 semDestroy src
    | none => s

end Sys2Proof.Machine
end

