-- ==== Sys2Proof/Machine/Resets.lean ====
section
/-! DEFINITION. Reset scopes below whole: stop, drain, absorb and clear; partition resets and the PARTITION errors that start them
(R241, R358, R401, R475–R481, R484, R489). -/
namespace Sys2Proof.Machine

/-! ## Stop (R477 step 1) -/

/-- The MARK writes held in a core's ingress are discarded and answered IN_RESET. -/
def State.refuseMarks (s : State) (g : Nat) : State :=
  let held := (s.core g).heldMarks
  let s := s.setCore g { s.core g with heldMarks := [] }
  held.foldl (fun s h => s.answerMark g h 4) s

/-- A core stops: its queued commands and held writes are discarded, and its control processor executes nothing. -/
def State.haltCore (s : State) (g : Nat) : State :=
  let s := s.refuseMarks g
  let c := s.core g
  s.setCore g { c with
    stopped := true, cp := { c.cp with inReset := true }
    arrays := c.arrays.map (fun e => (e.1, { e.2 with queue := [] })), vec := { c.vec with queue := [] } }

/-- A transfer engine stops: its queued descriptors are discarded. -/
def State.stopEng (s : State) (e : EngRef) : State := s.setEng e { s.eng e with stopped := true, queues := [] }

/-- A page sieve unit stops. -/
def State.stopSieve (s : State) (u : Nat) : State := s.setSv u { s.sv u with stopped := true, queue := [] }

/-- A winnow router stops. -/
def State.stopWinnow (s : State) (f : Nat) : State := s.setWin f { s.win f with stopped := true }

/-- Cores of a cluster that the package has. -/
def State.coresIn (s : State) (c : Nat) : List Nat := ((List.range 8).map (8 * c + ·)).filter (fun g => !s.guestCore g)

/-- Transfer engines of a partition. -/
def State.enginesOf (s : State) (p : Nat) : List EngRef :=
  (s.clustersOf p).map EngRef.cdma ++ (s.diesOf p).flatMap (fun f => (List.range 8).map (fun i => EngRef.hdma (8 * f + i)))

/-! ## Absorb (R477 step 3) -/

/-- The tags outstanding at a network interface are retired, with the time of the stop. -/
def State.retireIf (s : State) (i stop : Nat) : State :=
  let x := s.nif i
  if x.reqs = [] then s else s.setNif i { x with retired := x.retired ++ x.reqs.map (fun q => (q.tag, stop)), reqs := [] }

/-- Remote requests, requests at guest dies and held writes of an agent are answered to nobody. -/
def State.orphan (s : State) (e : EngRef) : State :=
  let mine (q : RemoteReq) : Bool := q.iss.unit == e.reader
  { s with
    links := { s.links with
      ports := s.links.ports.map (fun p => (p.1, { p.2 with
        reqs := p.2.reqs.map (fun q => if mine q then { q with iss := { q.iss with unit := orphanUnit } } else q) }))
      answers := s.links.answers.filter (fun a => !mine a.req) }
    sites := s.sites.map (fun x => (x.1, { x.2 with
      reqs := x.2.reqs.map (fun q => match q.eng with | some (f, _) => if f = e then { q with eng := none } else q | none => q)
      answers := x.2.answers.filter (fun a => match a.req.eng with | some (f, _) => decide (f ≠ e) | none => true) }))
    cores := s.cores.map (fun c => (c.1, { c.2 with heldMarks := c.2.heldMarks.map (fun h => if h.eng = some e then { h with eng := none } else h) })) }

/-- A client that is reset drops its translations and waiting accesses, and acknowledges every invalidation that waits for it
(R478). -/
def State.dropClient (s : State) (d : Nat) (client : W32) : State :=
  let x := s.xl d
  let mine (w : WaitSlot) : Bool := w.client == client
  let s := s.setXl d { x with
    ctlb := tdel x.ctlb client.toNat, slots := x.slots.filter (fun w => !mine w), overflow := x.overflow.filter (fun w => !mine w) }
  (s.xl d).invals.foldl (fun s _ => s.invalAck d client) s

/-! ## Clear (R477 step 4, R478) -/

/-- The boot block that firmware copies to cores: as many bytes as START announced, which the spec does not give (log 70). -/
def State.bootBlock (s : State) : Bytes × State := s.freeBytes (min 65536 s.bcast.bytes)

/-- The boot block stands at 0x0B_0000 of a core, and its control processor starts (R469). -/
def State.bootCore (s : State) (g : Nat) (b : Bytes) : State :=
  s.setCore g { ((s.core g).wrm 0x0B0000 b).release with stopped := false }

/-- A core's state cleared: the steps of R119, its control processor, BARRIER_WAIT and reservation, and its place in the cluster
DMA; it stays stopped. BAR_ENTRY is not touched. -/
def State.clearCore (s : State) (g : Nat) : State :=
  let s := s.setCore g { stopped := true }
  let k := s.cluster (clusterOf g)
  let run := (k.dma.running.filter (fun r => !(r.held && r.core == g))).map (fun r => if r.core = g then { r with mute := true } else r)
  let s := s.setCluster (clusterOf g) { k with dma := { k.dma with queues := tdel k.dma.queues (g % 8), running := run } }
  s.dropClient (siteOfCore g) (uidCore g)

/-- A transfer engine's TLB and descriptors cleared. -/
def State.clearEng (s : State) (e : EngRef) : State :=
  let s := s.orphan e
  (s.setEng e { s.eng e with queues := [], running := [], stopped := false }).dropClient e.xlat e.uid

/-- Dirty sectors of a cluster cache. -/
def ClusterState.dirty (x : ClusterState) : Nat := (x.cache.map (fun l => l.dirtySecs.length)).sum

/-- CC_OP 0b11 in a cluster from start to end; the dirty sectors lost are logged. -/
def State.loseCluster (s : State) (c : Nat) : State :=
  let n := (s.cluster c).dirty
  let s := if n = 0 then s else s.logAt 0x0203 (uidCluster c) 0 (le 4 n)
  let s := (s.setCluster c { s.cluster c with ccBusy := false }).ccOp c 0 3
  (s.setCluster c { s.cluster c with ccBusy := false }).dropClient (c / 21) (uidCluster c)

/-- A hub unit's registers at reset, its requests discarded. -/
def State.clearSieve (s : State) (u : Nat) : State := (s.setSv u {}).dropClient (12 + u / 4) (uidSieve u)
/-- The same for a winnow router. -/
def State.clearWinnow (s : State) (f : Nat) : State := (s.setWin f {}).dropClient (12 + f) (uidWinnow f)

/-! ## Unit resets (R241, R475, R476) -/

/-- Partition that a scope lies in. -/
def State.scopePart (s : State) : ScopeRef → Nat
  | .core g => s.partOfCore g
  | .cluster c => s.partOfDie (c / 63)
  | .eng e => s.partOfDie e.die
  | .sieve u => s.partOfDie (u / 4)
  | .winnow f => s.partOfDie f
  | .partition p => p

/-- Does the reset of a scope end work of the partition's current context. -/
def State.endsWork (s : State) (r : ScopeRef) : Bool :=
  tget 0 s.dev.partAsid (s.scopePart r) != 0 &&
    match r with
    | .core _ | .cluster _ | .partition _ => true
    | .eng e => (s.eng e).running != [] || (s.eng e).queues.any (fun q => q.2 != [])
    | .sieve u => (s.sv u).queue != [] || (s.sv u).running != [] || (s.sv u).heldReqs != []
    | .winnow f => (s.win f).rounds != [] || (s.win f).sendq != []

/-- The unit of a scope. -/
def scopeUnit : ScopeRef → W32
  | .core g => uidCore g
  | .cluster c => uidCluster c
  | .eng e => e.uid
  | .sieve u => uidSieve u
  | .winnow f => uidWinnow f
  | .partition _ => uid 0x0D 0

/-- The stop of a unit's scope. -/
def State.scopeStop (s : State) : ScopeRef → State
  | .core g => s.haltCore g
  | .cluster c => ((s.coresIn c).foldl (fun s g => s.haltCore g) s).stopEng (.cdma c)
  | .eng e => s.stopEng e
  | .sieve u => s.stopSieve u
  | .winnow f => s.stopWinnow f
  | .partition _ => s

/-- A reset of a unit starts: the scope stops, UNIT_RESET is logged, and where work of the current context ends the partition takes
an error (R476). The spec gives no values to the entry's scope and cause bytes: they are free. -/
def State.unitStop (s : State) (r : ScopeRef) : State :=
  let p := s.scopePart r
  if (s.part p).phase ≠ .none then s
  else
    let work := s.endsWork r
    let (d, s) := s.freeBytes 2
    let s := (s.scopeStop r).post { mkMsg 0x0202 (scopeUnit r) 0 d with part := p }
    if work then s.reportPart p 0x0202 else s

/-- Answer a next state for a scope of the package. -/
def atScope (r : ScopeRef) (s : State) : Out :=
  match r with
  | .core g => atUnit "core" g 2016 s
  | .cluster c => atUnit "cluster" c 252 s
  | .eng e => atEng e s
  | .sieve u => atUnit "page sieve unit" u 16 s
  | .winnow f => atUnit "winnow router" f 4 s
  | .partition p => atUnit "partition" p 4 s

/-- Is a scope on a die that a guest die's site leaves vacant. -/
def State.scopeVacant (s : State) : ScopeRef → Bool
  | .core g => s.guestCore g
  | .cluster c | .eng (.cdma c) => s.guestSite (c / 21)
  | _ => false

/-- UNIT_RESET: firmware starts a scope below partition; a partition is reset by PARTITION_RESET or a fault (R475). -/
def execUnitReset (scope : ScopeRef) (s : State) : Out :=
  atScope scope <|
    match scope with
    | .partition _ => s
    | r => if s.scopeVacant r then s else s.unitStop r

/-- Every descriptor that an engine holds completes with STATUS 0x06, running ones first (R241, R476). -/
def State.completeAll (s : State) (e : EngRef) : State :=
  let x := s.eng e
  let queued := x.queues.flatMap (fun q => q.2.map (fun d =>
    ({ core := e.coreOf q.1, desc := d, asid := tget 0 s.dev.partAsid (s.partOfDie e.die), status := some 6, todo := descParts d } : RunDesc)))
  let s := s.setEng e { x with queues := [], running := x.running ++ queued }
  (x.running ++ queued).foldl (fun s _ =>
    let l := (s.eng e).running
    match l.findIdx? (fun r => !r.held), l.find? (fun r => !r.held) with
    | some i, some r => (s.complWrite e r 6).2.descPost e i r 6
    | _, _ => s) s

/-- Smallest reset scope of a client of a translation unit (R475). -/
def clientScope (client : W32) : Option ScopeRef :=
  let i := bf client 15 0
  match bf client 31 24 with
  | 0x03 => some (.cluster i)
  | 0x04 => some (.core i)
  | 0x07 => some (.eng (.cdma i))
  | 0x08 => some (.eng (.hdma i))
  | 0x0B => some (.sieve i)
  | 0x0C => some (.winnow i)
  | _ => none

/-- INVALIDATION_TIMEOUT: a client that has not acknowledged is reset at its smallest scope (R241). -/
def execInvalidationTimeout (d : Nat) (client : W32) (s : State) : Out :=
  atUnit "translation unit" d 16 <|
    if (s.xl d).invals.any (fun i => i.clients.contains client) then
      match clientScope client with
      | some r =>
        let x := s.xl d
        let s := s.setXl d { x with count := cnt x.count 5 1 }
        let s := match r with
          | .eng e => s.completeAll e
          | _ => s
        s.unitStop r
      | none => s
    else s

/-! ## Partition resets (R358, R479–R481, R489) -/

/-- PARTITION errors that a partition took within the last 60 s. -/
def State.errsNow (s : State) (p : Nat) : List Nat := (s.part p).errs.filter (fun t => decide (s.time < t + 60000000000))

/-- Step 1 of R479. After eight PARTITION errors within 60 s a reset no longer restarts requests (R489). -/
def State.resetStart (s : State) (p : Nat) (restart : Bool) : State :=
  let errs := s.errsNow p
  let s := s.setPart p { s.part p with
    phase := .stopped, restart := restart && decide (errs.length < 8), stopTime := s.time, reports := [], errs := errs }
  let s := (s.coresOf p).foldl (fun s g => s.haltCore g) s
  let s := (s.enginesOf p).foldl (fun s e => s.stopEng e) s
  let s := s.disableUnits p
  let s := (s.diesOf p).foldl (fun s f => (List.range 4).foldl (fun s i => s.stopSieve (4 * f + i)) (s.stopWinnow f)) s
  let s := ((List.range 12).filter (fun n => s.guestSite n && s.partOfSite n == p)).foldl (fun s n => s.siteReset n true) s
  (s.setSched p { s.sched p with run := none }).bumpGen

/-- SEQ of the logbook entry of a code and time, as it stands in the ring or will when the intake is written. -/
def State.seqOf (s : State) (code time : Nat) : Nat :=
  match s.log.ring.reverse.find? (fun e => e.msg.code == code && e.msg.time == time) with
  | some e => e.seq
  | none =>
    match s.log.intake.findIdx? (fun m => m.code == code && m.time == time) with
    | some i => s.log.nextSeq + i
    | none => 0

/-- PARTITION_FAULT: the errors reported to the sorting office start a reset with restart (R401, R484, R489). -/
def State.partitionFault (s : State) (p : Nat) : State :=
  let x := s.part p
  match x.reports with
  | [] => s
  | (code, time) :: _ =>
    if x.phase ≠ .none then s
    else
      let old := s.errsNow p
      let s := s.setPart p { x with errs := old ++ x.reports.map (·.2) }
      let s := s.post { mkMsg 0x0601 (uid 0x0D 0) 0 (le 2 code ++ le 8 (s.seqOf code time)) with part := p }
      let s := if old.length < 8 ∧ 8 ≤ (s.part p).errs.length then s.post { mkMsg 0x0603 (uid 0x0D 0) 0 [] with part := p } else s
      s.resetStart p true

/-- PARTITION_FAULT (R489). -/
def execPartitionFault (p : Nat) (s : State) : Out := atUnit "partition" p 4 (s.partitionFault p)

/-- PARTITION_RESET: a second one runs after the first has ended (R481); answered by PARTITION_RESET_END (log 65). -/
def semPartitionReset : Sem where
  range := fun s _ b => firstBad [(decide (rdb b 32 ≥ s.dev.layout), 32)]
  go := fun s src b =>
    if (s.part (rdb b 32)).phase ≠ .none then s else (s.resetStart (rdb b 32) (nbit (rdb b 33) 0)).busyLetter src

/-- PARTITION_RESET (R358). -/
def execPartitionReset (src : LSrc) (s : State) : Out := atSrc src (s.runLetter 0x0205 semPartitionReset src)

/-- ASIDs of the contexts of a partition. -/
def State.asidsOf (s : State) (p : Nat) : List Nat := (s.ctxs.filter (fun c => c.2.part == p)).map (fun c => c.2.asid)

/-- The context that runs on a partition. -/
def State.currentOf (s : State) (p : Nat) : Option Nat :=
  (s.ctxs.find? (fun c => c.2.part == p && c.2.asid != 0 && c.2.asid == tget 0 s.dev.partAsid p)).map (·.1)

/-- Step 3 of R479 in a translation unit: entries of the partition's ASIDs dropped, wait slots released, registers at reset. -/
def State.clearXlate (s : State) (d : Nat) (asids : List Nat) : State :=
  let s := (unitClients d).foldl (fun s c => s.dropClient d c) s
  let x := s.xl d
  s.setXl d { x with
    physEn := true, asidReg := 0, filter := [], ctlb := []
    tlb := x.tlb.filter (fun e => !asids.contains e.asid), wcache := x.wcache.filter (fun e => !asids.contains e.asid)
    slots := x.slots.filter (fun w => !asids.contains w.asid), overflow := x.overflow.filter (fun w => !asids.contains w.asid) }

/-- Does a barrier ID belong to partition p (R267). -/
def State.barOwned (s : State) (p id : Nat) : Bool := id * s.dev.layout / 256 == p

/-- Steps 2 and 3 of R479: tags outstanding are retired and the partition's state is cleared; its cores stay in reset. -/
def State.partClear (s : State) (p : Nat) : State :=
  let stop := (s.part p).stopTime
  let dies := s.diesOf p
  let slices := match s.currentOf p with
    | some c => s.slicesOf c
    | none => s.stacksOf p
  let s := (s.clustersOf p).foldl (fun s c => s.retireIf c stop) s
  let s := dies.foldl (fun s f =>
    (List.range 4).foldl (fun s i => s.retireIf (292 + 4 * f + i) stop)
      ((List.range 8).foldl (fun s i => s.retireIf (256 + 8 * f + i) stop) (s.retireIf (288 + f) stop))) s
  let s := (s.coresOf p).foldl (fun s g => s.clearCore g) s
  let s := (s.enginesOf p).foldl (fun s e => s.clearEng e) s
  let s := (s.clustersOf p).foldl (fun s c => s.loseCluster c) s
  let s := slices.foldl (fun s k => (s.setStack k { s.stack k with gBusy := false }).granOp k 6 0 p) s
  let s := dies.foldl (fun s f => (List.range 4).foldl (fun s i => s.clearSieve (4 * f + i)) (s.clearWinnow f)) s
  let s := (s.unitsOf p).foldl (fun s d => s.clearXlate d (s.asidsOf p)) s
  let s : State := { s with posts := s.posts.map (fun e => (e.1, { e.2 with bar := e.2.bar.filter (fun b => !s.barOwned p b.1) })) }
  s.setPart p { s.part p with phase := .cleared }

/-- All cores of a cluster and its engine stand in the stop of a cluster reset. -/
def State.clusterStopped (s : State) (c : Nat) : Bool :=
  (s.cluster c).dma.stopped && (s.coresIn c).all (fun g => (s.core g).stopped)

/-- DRAIN_END: absorb and clear for a scope that stopped (R477, R478). -/
def State.drainEnd (s : State) (r : ScopeRef) : State :=
  if s.scopeVacant r then s
  else if (s.part (s.scopePart r)).phase ≠ .none then
    match r with
    | .partition p => if (s.part p).phase = .stopped then s.partClear p else s
    | _ => s
  else
    match r with
    | .core g =>
      if (s.core g).stopped && !s.clusterStopped (clusterOf g) then
        let (b, s) := (s.clearCore g).bootBlock
        s.bootCore g b
      else s
    | .cluster c =>
      if s.clusterStopped c then
        let s := s.retireIf c s.time
        let s := (s.coresIn c).foldl (fun s g => s.clearCore g) s
        let s := (s.clearEng (.cdma c)).loseCluster c
        let (b, s) := s.bootBlock
        (s.coresIn c).foldl (fun s g => s.bootCore g b) s
      else s
    | .eng e =>
      if (s.eng e).stopped && (match e with | .cdma c => !s.clusterStopped c | .hdma _ => true) then
        let s := match e with | .hdma h => s.retireIf (256 + h) s.time | .cdma _ => s
        s.clearEng e
      else s
    | .sieve u => if (s.sv u).stopped then (s.retireIf (292 + u) s.time).clearSieve u else s
    | .winnow f => if (s.win f).stopped then (s.retireIf (288 + f) s.time).clearWinnow f else s
    | .partition _ => s

/-- DRAIN_END (R477). -/
def execDrainEnd (scope : ScopeRef) (s : State) : Out := atScope scope (s.drainEnd scope)

/-- TAG_RETIRE_EXPIRE (R477). -/
def execTagRetireExpire (i : Nat) (tag : BitVec 12) (s : State) : Out :=
  s.atIf i (let x := s.nif i; s.setNif i { x with retired := x.retired.filter (fun q => q.1 != tag) })

/-! ## A context becomes current: step 3 of R399 -/

/-- WINNOW_CTX of a context (R90, R356). -/
def winnowWord (x : CtxState) : W64 :=
  pack 64 [(48, x.asid), (8, b2n x.renorm), (4, x.depth), (1, b2n x.reroute), (0, 1)]
/-- SIEVE_CTX of a context (R201, R356). -/
def sieveWord (x : CtxState) : W64 := pack 64 [(48, x.asid), (16, x.recent), (8, x.sinks), (0, 1)]

/-- WINNOW_CTX and SIEVE_CTX of a partition written for a context. -/
def State.unitsIn (s : State) (p c : Nat) : State :=
  let x := s.ctx c
  (s.diesOf p).foldl (fun s f =>
    (List.range 4).foldl (fun s i => s.svCtxWrite (4 * f + i) (sieveWord x)) (s.winCtxWrite f (winnowWord x))) s

/-! ## The end of a partition reset (R358, R401, R402, R479, R480) -/

/-- Insert a request by the number of its admission, latest first. -/
def insAdmit (s : State) (id : Nat) : List Nat → List Nat
  | [] => [id]
  | x :: t =>
    let n (i : Nat) : Nat := ((s.req i).map (·.admitted)).getD 0
    if n x < n id then id :: x :: t else x :: insAdmit s id t

/-- Requests in progress of a context, the latest admitted first. -/
def State.progress (s : State) (c : Nat) : List Nat :=
  (s.reqsOf (fun r => r.ctx == c && r.inProgress)).foldl (fun l id => insAdmit s id l) []

/-- Requests in progress of a context restart, each to the head of the queue, or end with ABORTED. -/
def State.restartAll (s : State) (c : Nat) (restart : Bool) : State :=
  (s.progress c).foldl (fun s id => if restart then s.restartReq id false else s.endReq id 0x0401) s

/-- Have the guest sites of a partition come back, or gone down (R480). -/
def State.guestsBack (s : State) (p : Nat) : Bool :=
  (List.range 12).all (fun n => !s.guestSite n || s.partOfSite n != p || (s.site n).mode == .up || (s.site n).mode == .down)

/-- Steps 4 to 6 of R479. -/
def State.resetEnd (s : State) (p : Nat) : State :=
  let x := s.part p
  if x.phase ≠ .cleared ∨ ¬ s.guestsBack p then s
  else
    let (b, s) := s.bootBlock
    let s := (s.coresOf p).foldl (fun s g => s.bootCore g b) s
    let s := (s.enginesOf p).foldl (fun s e => s.setEng e { s.eng e with stopped := false }) s
    let s := (s.unitsOf p).foldl (fun s d => s.setXl d { s.xl d with
      physEn := d < 12, asidReg := pack 64 [(16, asidTable / 2 ^ 16), (0, 1)]
      filter := (List.range 4).map (fun p => (p, s.filterWord p)) }) s
    let s := match s.currentOf p with
      | some c => (s.unitsIn p c).restartAll c x.restart
      | none => s
    let s := (s.setPart p { s.part p with phase := .none }).bumpGen.liftFences
    match s.letters.find? (fun q => q.busy && (match s.letterAt q.src with
        | some l => opOf l == 0x0205 && rdb l 32 == p
        | none => false)) with
    | some q => s.done q.src []
    | none => s

/-- PARTITION_RESET_END (R479). -/
def execPartitionResetEnd (p : Nat) (s : State) : Out := atUnit "partition" p 4 (s.resetEnd p)

end Sys2Proof.Machine
end

