-- ==== Sys2Proof/Machine/Service.lean ====
section
/-! DEFINITION. The service of fault-bag batches: entries forwarded to the operator, pages brought back from host memory, replays and
cancels (R237–R240, R372, R385, R386, R416, R488). -/
namespace Sys2Proof.Machine

/-! ## The records of the fault bag (R238) -/

/-- A fault-bag entry of 32 bytes. -/
def FaultEnt.bytes (e : FaultEnt) : Bytes :=
  recOf 32 [(0, 8, e.page), (8, 2, e.asid), (10, 1, e.cause), (11, 1, e.access), (12, 2, e.dies.toNat), (14, 2, e.count.toNat),
    (16, 4, e.firstUnit.toNat), (24, 8, e.firstTime)]

/-- A header entry of 32 bytes over n entries. -/
def FaultBatch.header (b : FaultBatch) (n : Nat) : Bytes := recOf 32 [(0, 8, b.num), (12, 2, n), (24, 8, b.closeTime)]

/-- Is an entry host-backed (R239). -/
def FaultEnt.hostBacked (e : FaultEnt) : Bool := nbit e.access 4

/-- The FAULT_BATCH reply to a port: the header and the host-backed entries of that port's window, one tray entry each, MORE on all
but the last (R372). -/
def State.forwardBatch (s : State) (b : FaultBatch) (p : Nat) : State :=
  let es := b.entries.filter (fun e => e.hostBacked && e.page / 2 ^ 43 % 2 == p)
  if es = [] then s
  else
    let recs := b.header es.length :: es.map FaultEnt.bytes
    recs.zipIdx.foldl (fun s x =>
      s.pushReply p 0 { entry := entryBytes 3 (b2n (decide (x.2 + 1 < recs.length))) 0 0xFF 0 0 0xFFFF 0 x.1 }) s

/-! ## Replays and cancels to the units of an entry (R240) -/

/-- The units set in DIES. -/
def FaultEnt.units (e : FaultEnt) : List Nat := (List.range 16).filter (fun d => e.dies.getLsbD d)

/-- A replay to every unit of an entry. -/
def State.replayEnt (s : State) (e : FaultEnt) : State := e.units.foldl (fun s d => s.replay d e.asid e.page) s
/-- A cancel to every unit of an entry. -/
def State.cancelEnt (s : State) (e : FaultEnt) : State := e.units.foldl (fun s d => s.cancel d e.asid e.page) s

/-- Does the page of an entry translate now for every kind of access that waits. -/
def State.servable (s : State) (e : FaultEnt) : Bool × State :=
  match e.units with
  | [] => (false, s)
  | d :: _ =>
    match s.walk d fwIss e.asid e.page with
    | (.hit t _, s) => ((List.range 4).all (fun i => !nbit e.access i || leafPermits t.leaf.toNat (2 ^ i) false), s)
    | (.fault _, s) => (false, s)

/-- Replay where the page translates, cancel where it does not. -/
def State.settle (s : State) (e : FaultEnt) : State :=
  let (ok, s) := s.servable e
  if ok then s.replayEnt e else s.cancelEnt e

/-! ## Offloaded pages (R386, R416) -/

/-- Firmware's address of the entry of an address at L2, if its tables reach that far. -/
def State.leafPlace (s : State) (asid va : Nat) : Option Nat := (s.ptFind asid 2 va).map (fun t => t.entry va)

/-- The IV of a context's PAGE records (R413). -/
def pageIv (key : Bytes) : Bytes := expand key (ascii "ZLV-H12 page iv") 12

/-- Stacks of a partition by free KV memory, most first (R385). -/
def State.kvStack (s : State) (p : Nat) : Option Nat :=
  (s.stacksOf p).foldl (fun best k => match best with
    | none => some k
    | some b => if s.localFree b < s.localFree k then some k else best) none

/-- The requests of a context in progress restart: what they read is taken as poisoned (R416). -/
def State.restartReaders (s : State) (asid : Nat) : State :=
  match s.ctxs.find? (fun c => c.2.asid == asid) with
  | some (c, _) => s.restartAll c true
  | none => s

/-- Bring an offloaded page back: its PAGE record is pulled from host memory (free bytes), checked and opened, and its 64 KiB are
written to a new page, mapped and replayed. Its leaf gives RD and WR and the hint its entry held (log 71). -/
def State.bringBack (s : State) (e : FaultEnt) : State :=
  match s.leafPlace e.asid e.page, s.ctxs.find? (fun c => c.2.asid == e.asid) with
  | some a, some (c, x) =>
    match s.fwRead a with
    | (none, s) => s
    | (some leaf, s) =>
      if nbit leaf 0 ∨ ¬ nbit leaf 11 then s.settle e
      else
        let key := tget [] s.sec.offload c
        let (b, s) := s.freeBytes 65584
        match openRec 3 c key (pageIv key) b with
        | some (seq, bind, pt) =>
          if seq ≠ nf leaf 63 12 ∨ bind ≠ e.page ∨ pt.length ≠ 65536 then (s.restartReaders e.asid).cancelEnt e
          else
            match (s.kvStack x.part).bind (fun k => (s.findRoom x.part k 65536 1).map (k, ·)) with
            | some (k, phys :: _) =>
              let s := s.setServe { s.serve with allocs := s.serve.allocs ++ [{ asid := e.asid, region := k, va := e.page, phys := phys, len := 65536 }] }
              let f := ((List.range 4).find? (fun f => s.partOfDie f == x.part)).getD 0
              let s := (List.range 2048).foldl (fun s i =>
                (s.devWrite { unit := uid 0x08 (f * 8), asid := e.asid, cls := x.part } (phys + 32 * i) (mark false (slice pt (32 * i) 32)) hintStream).2) s
              (s.fwPut a (phys + packN [(8, nf leaf 9 8), (4, 3), (1, 1), (0, 1)])).replayEnt e
            | _ => s.cancelEnt e
        | none => (s.restartReaders e.asid).cancelEnt e
  | _, _ => s.cancelEnt e

/-! ## FAULT_BATCH_SERVICE (R239) -/

/-- The table entries on the path of an address are read, which rewrites a poisoned copy from the other (R488). -/
def State.repairPath (s : State) (asid va : Nat) : State :=
  let places := asidEntry asid :: ([0, 1, 2].filterMap (fun l => (s.ptFind asid l va).map (fun t => t.entry va)))
  places.foldl (fun s a => (s.fwRead a).2) s

/-- What the sorting office does with one entry: an access-counter notice asks for nothing, host-backed entries are forwarded with
their batch or cancelled, an offloaded page is brought back, a table is repaired, and the rest is replayed or cancelled. -/
def State.serviceEnt (s : State) (e : FaultEnt) : State :=
  if e.cause = 0x10 then s
  else if e.hostBacked then (if s.bag.forward then s else s.cancelEnt e)
  else if e.cause = xOffloaded then s.bringBack e
  else if e.cause = xTableError then (s.repairPath e.asid e.page).settle e
  else s.settle e

/-- FAULT_BATCH_SERVICE: the oldest batch of the ring. -/
def State.serviceBatch (s : State) : State :=
  match s.bag.ring with
  | [] => s
  | b :: rest =>
    let s : State := { s with bag := { s.bag with ring := rest, irq := rest != [] } }
    let s := if s.bag.forward then (s.forwardBatch b 0).forwardBatch b 1 else s
    b.entries.foldl (fun s e => s.serviceEnt e) s

/-- FAULT_BATCH_SERVICE (R239). -/
def execFaultBatchService (s : State) : Out := .next s.serviceBatch

end Sys2Proof.Machine
end

