-- ==== Sys2Proof/Machine/Serve.lean ====
section
/-! DEFINITION. The sorting office's schedule: rounds, the composition of steps, KV memory, sampling, context switches and step
timeouts (R374, R375, R378–R386, R389, R399, R489). -/
namespace Sys2Proof.Machine

/-! ## Rounds and allowances (R381, R382) -/

/-- Does a request keep its context in the schedule: admitted or waiting (R375). -/
def ReqState.live (r : ReqState) : Bool := r.phase == .waiting || r.inProgress

/-- Runnable contexts of a partition in ascending order (R375). -/
def State.runnable (s : State) (p : Nat) : List Nat :=
  (s.ctxsOf p).filter (fun c => s.serve.reqs.any (fun e => e.2.ctx == c && e.2.live))

/-- L of a round among contexts, in ns. -/
def State.lOf (s : State) (l : List Nat) : Nat := minItl (l.map (fun c => (s.mctx c).contract))

/-- Reserve of a context in a round among contexts; one that cannot be met at all takes the round. -/
def State.reserveIn (s : State) (l : List Nat) (c : Nat) : Rat := (s.reserve c (s.mctx c).contract (s.lOf l)).getD (s.lOf l : Nat)

/-- A context's share of the slack, by WEIGHT; none is left when the reserves take all of D. -/
def State.shareIn (s : State) (l : List Nat) (c : Nat) : Rat :=
  let slack : Rat := (9 / 10 : Rat) * s.lOf l - (l.map (fun k => s.reserveIn l k)).sum - (switchCost l.length : Nat)
  let w : Nat := (l.map (fun k => (s.ctx k).weight)).sum
  if slack ≤ 0 ∨ w = 0 then 0 else slack * (s.ctx c).weight / w

/-- The allowance of a context among contexts. -/
def State.allowIn (s : State) (l : List Nat) (c : Nat) : Rat := s.reserveIn l c + s.shareIn l c

/-- T_R among contexts, in ns. -/
def State.roundIn (s : State) (l : List Nat) : Rat := (95 / 100 : Rat) * s.lOf l

/-- T_R of a partition, in ns. -/
def State.roundT (s : State) (p : Nat) : Rat := s.roundIn (s.runnable p)
/-- The allowance a_c. -/
def State.allow (s : State) (p c : Nat) : Rat := s.allowIn (s.runnable p) c

/-! ## Predicted times of a step (R382, R396) -/

/-- S(L) for a context. -/
def State.seqBytes (s : State) (c l : Nat) : Nat := stepSeqBytes (s.manifest c) (pageTokens (s.ctx c).psize) l

/-- Predicted time of a step with the given rows that reads the given KV bytes: t of R396 with the rows' own bytes for B × S_mix. A
prompt token counts as a row, and its request's KV is read once (log 73). None where no clock runs the array work. -/
def State.predict (s : State) (p c rows bytes : Nat) : Option Rat :=
  if rows = 0 then some 0 else s.stepTime p (s.manifest c) ((bytes : Rat) / rows) rows

/-- Is a predicted time fitsIn a limit. -/
def fitsIn (t : Option Rat) (limit : Rat) : Bool :=
  match t with
  | some x => decide (x ≤ limit)
  | none => false

/-- Tokens of a sequence as its next step processes it. -/
def ReqState.len (r : ReqState) : Nat := r.prompt.length + r.outp.length

/-- The largest n up to hi that satisfies a condition which holds of every smaller n, from bit k down. -/
def largest (ok : Nat → Bool) (hi : Nat) : Nat → Nat → Nat
  | 0, r => r
  | k + 1, r => if r + 2 ^ k ≤ hi ∧ ok (r + 2 ^ k) then largest ok hi k (r + 2 ^ k) else largest ok hi k r

/-! ## The composition of a step (R383) -/

/-- May a request take part in a step: not held for its output range or a tray with more than 4,096 replies, not finished, and not
waiting for the DRBG (R334, R364, R410). -/
def State.mayStep (s : State) (r : ReqState) : Bool :=
  !r.held && r.fin.isNone && decide ((s.fn r.p r.f).held.length ≤ 4096) && !(s.sec.drbgStop && rd r.head 24 8 == 0 && rd r.head 4 4 != 0)

/-- Insert a request by a number, the smallest first. -/
def insBy (key : ReqState → Int) (x : Nat × ReqState) : List (Nat × ReqState) → List (Nat × ReqState)
  | [] => [x]
  | y :: t => if key x.2 < key y.2 then x :: y :: t else y :: insBy key x t

/-- Requests of a context that satisfy a predicate, in the order of a key. -/
def State.reqSort (s : State) (c : Nat) (key : ReqState → Int) (p : ReqState → Bool) : List (Nat × ReqState) :=
  (s.serve.reqs.filter (fun e => e.2.ctx == c && p e.2)).foldl (fun l e => insBy key e l) []

/-- Decode rows: every sequence that is decoding, the earliest admitted first, up to MAX_BATCH. -/
def State.decodeRows (s : State) (c : Nat) : List (Nat × ReqState) :=
  (s.reqSort c (fun r => r.admitted) (fun r => r.phase == .decoding && s.mayStep r)).take (s.ctx c).maxBatch

/-- Predicted decode time of the requests in progress of a context with one more of a length. -/
def State.batchTime (s : State) (p c l : Nat) : Option Rat :=
  let rs := (s.serve.reqs.filter (fun e => e.2.ctx == c && e.2.inProgress)).map (fun e => e.2.len)
  s.predict p c (rs.length + 1) (((l :: rs).map (fun l => s.seqBytes c l)).sum)

/-- Bytes of KV memory for a sequence of a context. -/
def State.kvBytes (s : State) (c l : Nat) : Nat := kvSeqBytes (s.manifest c) (pageTokens (s.ctx c).psize) l

/-- Admit the waiting requests of a list while the batch stays fitsIn the allowance and a stack has room for its KV pages. -/
def State.takeIn (p c : Nat) (limit : Rat) : List (Nat × ReqState) → State → State
  | [], s => s
  | (id, r) :: l, s =>
    match s.kvStack p with
    | none => s
    | some k =>
      if fitsIn (s.batchTime p c r.len) limit && decide (s.kvBytes c r.len ≤ s.localFree k) then
        let n := s.serve.nextAdmit
        State.takeIn p c limit l ((s.setServe { s.serve with nextAdmit := n + 1 }).putReq id
          { r with phase := .prefill, admitted := n, filled := 0, stack := k, spilled := [] })
      else s

/-- Prefill rows: prompt tokens of the admitted requests, oldest first, while the predicted time stays fitsIn the limit, and at
least one where nothing decodes. -/
def State.fillRows (s : State) (p c : Nat) (limit : Rat) (rows bytes : Nat) : List (Nat × ReqState) → List (Nat × Nat)
  | [] => []
  | (id, r) :: l =>
    let left := r.len - r.filled
    let n := largest (fun n => fitsIn (s.predict p c (rows + n) (bytes + s.seqBytes c (r.filled + n))) limit) left 25 0
    let n := if n = 0 ∧ rows = 0 then min 1 left else n
    if n = 0 ∧ left ≠ 0 then []
    else (id, n) :: (if n < left then [] else s.fillRows p c limit (rows + n) (bytes + s.seqBytes c (r.filled + n)) l)

/-! ## KV memory (R385, R386) -/

/-- Spill space of a context: its places of one PAGE record in the host-window ranges mapped with RD and WR and without EX, with the
function of each. -/
def State.spillPlaces (s : State) (c : Nat) : List (Nat × Nat) :=
  let l := ((s.leaves (s.asidOf c) 0x8000000000000 (2 ^ 44)).1.filter (fun x => nf x.entry 3 2 == 1 && nf x.entry 6 4 == 3)).map
    (fun x => (x.va, 2 ^ x.log2, nf x.entry 63 59))
  let runs := l.foldl (fun (rs : List (Nat × Nat × Nat)) x => match rs with
    | (a, n, f) :: t => if a + n = x.1 ∧ f = x.2.2 then (a, n + x.2.1, f) :: t else x :: rs
    | [] => [x]) []
  runs.flatMap (fun r => (List.range (r.2.1 / 65584)).map (fun i => (r.1 + 65584 * i, r.2.2)))

/-- 64 KiB pages of a request that are sealed and stand on the device. -/
def State.sealedPages (s : State) (r : ReqState) : Nat :=
  let pt := pageTokens (s.ctx r.ctx).psize
  s.kvBytes r.ctx (r.filled / pt * pt) / 65536 - r.spilled.length

/-- Offload one sealed page of a context that stands in a stack: its PAGE record goes to a free place of the spill space. Which page
was selected least recently is not in the model: it is taken from the request admitted first, and its plaintext and virtual address
are free (log 71). A SEQ of 2^64 − 1 is never used (R414). -/
def State.offloadOne (s : State) (c k : Nat) : Option State :=
  let used := (s.serve.reqs.filter (fun e => e.2.ctx == c && e.2.inProgress)).flatMap (fun e => e.2.spilled)
  match (s.spillPlaces c).find? (fun x => !used.contains x.1),
        s.reqSort c (fun r => r.admitted) (fun r => r.inProgress && r.stack == k && decide (0 < s.sealedPages r && tget 0 s.sec.pageSeq c < 2 ^ 64 - 1)) with
  | some (va, f), (id, r) :: _ =>
    let key := tget [] s.sec.offload c
    let seq := tget 0 s.sec.pageSeq c
    let (pt, s) := s.freeBytes 65536
    let (bind, s) := s.freeNat
    let rec_ := sealRec 3 c seq (bind / 65536 % 2 ^ 36 * 65536) key (pageIv key) pt
    let off := va - 0x8000000000000
    let s := s.emit (.hostWrite f (hostPhys (off / 2 ^ 43) (off % 2 ^ 43)) rec_)
    let s : State := { s with sec := { s.sec with pageSeq := tset s.sec.pageSeq c (seq + 1) } }
    some (s.setReq id { r with spilled := va :: r.spilled })
  | _, _ => none

/-- Room for the next token of a decoding request: pages are offloaded, or the request admitted last is preempted, until the stack
holds what the sequence needs or the request itself has gone (R386). -/
def State.makeRoom (c id : Nat) : Nat → State → State
  | 0, s => s
  | n + 1, s =>
    match s.req id with
    | none => s
    | some r =>
      if r.phase ≠ .decoding then s
      else if s.kvBytes c (r.filled + 1) - s.kvBytes c r.filled ≤ s.localFree r.stack then s
      else
        match s.offloadOne c r.stack with
        | some s => State.makeRoom c id n s
        | none =>
          match (s.reqSort c (fun r => -(r.admitted : Int)) (fun r => r.inProgress)).head? with
          | some (last, _) => State.makeRoom c id n (s.restartReq last true)
          | none => s

/-- Steps a search for room may take. -/
def State.roomFuel (s : State) : Nat := s.serve.reqs.length + 4096

/-- Compose the next step of a context: room for its decode rows, admissions, prefill rows and the prediction (R383). A context above
its allowance admits nothing (R384). -/
def State.compose (s : State) (p c : Nat) : Option StepRun × State :=
  let a := s.allow p c
  let s := (s.decodeRows c).foldl (fun s e => State.makeRoom c e.1 s.roomFuel s) s
  let s := State.takeIn p c a (s.reqSort c (fun r => r.place) (fun r => r.phase == .waiting && s.mayStep r)) s
  let rows := s.decodeRows c
  let bytes := (rows.map (fun e => s.seqBytes c e.2.len)).sum
  let fill := s.fillRows p c ((105 / 100 : Rat) * a) rows.length bytes (s.reqSort c (fun r => r.admitted) (fun r => r.phase == .prefill && s.mayStep r))
  if rows = [] ∧ fill = [] then (none, s)
  else
    let n := rows.length + (fill.map (·.2)).sum
    let fb := (fill.map (fun e => s.seqBytes c (((s.req e.1).map (·.filled)).getD 0 + e.2))).sum
    (some { ctx := c, rows := rows.map (·.1), fill := fill, start := s.time, pred := ceilNat ((s.predict p c n (bytes + fb)).getD 0) }, s)

/-! ## The order of a round (R381) -/

/-- Contexts of a list with a step to run in this round, in the order of R381: multi-module, then those with a target, then the rest by
deficit, the largest first. -/
def State.roundOrder (s : State) (p : Nat) : List Nat :=
  let sc := s.sched p
  let l := (s.runnable p).filter (fun c => !sc.ran.contains c)
  let multi := l.filter (fun c => (s.ctx c).multi)
  let target := l.filter (fun c => !(s.ctx c).multi && ctAny (s.mctx c).contract)
  let rest := l.filter (fun c => !(s.ctx c).multi && !ctAny (s.mctx c).contract)
  let ins (c : Nat) : List Nat → List Nat := fun l =>
    let d := tget 0 sc.deficit
    l.takeWhile (fun x => decide (d c ≤ d x)) ++ c :: l.dropWhile (fun x => decide (d c ≤ d x))
  multi ++ target ++ rest.foldl (fun acc c => ins c acc) []

/-- May a context take its step now: one without a target only if the step is predicted to end fitsIn T_R of the round's start, or is
the first of the round (R381, R384). -/
def State.fits (s : State) (p c : Nat) : Bool :=
  match s.compose p c with
  | (none, _) => false
  | (some r, _) =>
    (s.ctx c).multi || ctAny (s.mctx c).contract || (s.sched p).ran == []
      || decide (((s.time - (s.sched p).roundStart + r.pred : Nat) : Rat) ≤ s.roundT p)

/-- The context whose step comes next in the round. -/
def State.nextPick (s : State) (p : Nat) : Option Nat := (s.roundOrder p).find? (fun c => s.fits p c)

/-- When no step of the round remains, the next round begins: an overrun is counted, and each context without a target is credited
with its share of the slack (R381, R384; log 72). -/
def State.openRound (s : State) (p : Nat) : State :=
  let sc := s.sched p
  if sc.ran = [] ∨ (s.nextPick p).isSome then s
  else
    let s := if ((s.time - sc.roundStart : Nat) : Rat) > s.roundT p then
        sc.ran.foldl (fun s c => s.meterUpd c (fun q => q.bump pcOverrun)) s else s
    let deficit := ((s.runnable p).filter (fun c => !(s.ctx c).multi && !ctAny (s.mctx c).contract)).foldl
      (fun d c => tset d c (tget 0 d c + ceilNat (s.shareIn (s.runnable p) c))) sc.deficit
    s.setSched p { sc with roundStart := s.time, ran := [], deficit := deficit }

/-- May the partition be scheduled at all. -/
def State.schedules (s : State) (p : Nat) : Bool :=
  s.dev.mode == .ready && !s.serve.stopped && (s.part p).phase == .none && (s.part p).reports == [] && (s.sched p).run.isNone

/-- STEP_START: the context that is next in the round, where it is the current one, starts its step (R381, R383). -/
def State.stepStart (s : State) (p : Nat) : State :=
  if !s.schedules p then s
  else
    let s := s.openRound p
    match s.nextPick p with
    | none => s
    | some c =>
      if ¬ s.current c then s
      else
        match s.compose p c with
        | (none, s) => s
        | (some r, s) =>
          let sc := s.sched p
          s.setSched p { sc with ran := sc.ran ++ [c], run := some r, deficit := tset sc.deficit c (tget 0 sc.deficit c - r.pred) }

/-- STEP_START (R383). -/
def execStepStart (p : Nat) (s : State) : Out := atUnit "partition" p 4 (s.stepStart p)

/-! ## Sampling (R378) -/

/-- A logit after the repetition penalty. -/
def penalised (pen : W32) (x : W32) : W32 :=
  match ofF32 x.toNat with
  | .fin false _ _ => BitVec.ofNat 32 (f32 (flDiv (ofF32 x.toNat) (ofF32 pen.toNat)))
  | .fin true _ _ => BitVec.ofNat 32 (f32 ((ofF32 x.toNat).mul (ofF32 pen.toNat)))
  | _ => x

/-- Is one logit greater than another; a NaN counts as less than every number. -/
def logitGt (a b : W32) : Bool :=
  !(ofF32 a.toNat).isNan && ((ofF32 b.toNat).isNan || (ofF32 a.toNat).cmp (ofF32 b.toNat) == some 1)

/-- The highest logit of a list numbered from i, the lowest number first. -/
def argmax : List W32 → Nat → Nat × W32 → Nat × W32
  | [], _, best => best
  | x :: t, i, best => argmax t (i + 1) (if logitGt x best.2 then (i, x) else best)

/-- Insert a candidate by descending logit, the lowest ID first among equals. -/
def insLogit (x : Nat × W32) : List (Nat × W32) → List (Nat × W32)
  | [] => [x]
  | y :: t => if logitGt x.2 y.2 then x :: y :: t else y :: insLogit x t

/-- The next token of a request from the model's logits. Greedy sampling is exact; what the spec does not fix of the arithmetic of
the softmax and its limits is Config.choose (log 59). -/
def State.sample (s : State) (r : ReqState) (logits : List W32) : Nat × State :=
  let temp := BitVec.ofNat 32 (rd r.head 4 4)
  let pen := BitVec.ofNat 32 (rd r.head 20 4)
  let l := logits.zipIdx.map (fun x => if r.prompt.contains x.2 || r.outp.contains x.2 then penalised pen x.1 else x.1)
  match l with
  | [] => let (n, s) := s.freeNat; (n % max 1 (pfVocab (s.manifest r.ctx)), s)
  | x :: t =>
    if f32 (ofF32 temp.toNat) % 2 ^ 31 = 0 then ((argmax t 1 (0, x)).1, s)
    else
      let k := rd r.head 12 4
      let cand := (l.zipIdx.map (fun x => (x.2, x.1))).foldl (fun acc c => insLogit c acc) []
      let cand := if k = 0 then cand else cand.take k
      let seed := rd r.head 24 8
      let (u, s) := if seed = 0 then (s.drbg 0).2.freeNat
        else (Config.seededDraw seed r.outp.length, s)
      let i := Config.choose temp (BitVec.ofNat 32 (rd r.head 8 4)) (BitVec.ofNat 32 (rd r.head 16 4)) (cand.map (·.2)) u
      (((cand[i % max 1 cand.length]?).map (·.1)).getD 0, s)

/-- Sample a token for a request, end it where R379 says so, and seal what is due. A session whose next SEQ would be 2^64 − 1 is
closed (R414). -/
def State.sampleFor (s : State) (id : Nat) (logits : List (Nat × List W32)) : State :=
  match s.req id with
  | none => s
  | some r =>
    let (t, s) := s.sample r (tget [] logits id)
    let r := { r with outp := r.outp ++ [t] }
    let r := if s.ends r then { r with fin := some 0 } else r
    let s := (s.setReq id r).postEvent .token r.serial r.ctx
    if (s.sess r.sess).tokSeq ≥ 2 ^ 64 - 1 then s.closeSess r.sess else s.sealReq id

/-- A decode row of the step that ends: its token is processed and the next sampled. -/
def State.rowEnd (s : State) (id : Nat) (logits : List (Nat × List W32)) : State :=
  match s.req id with
  | some r =>
    if r.phase = .decoding ∧ r.fin = none then (s.setReq id { r with filled := r.filled + 1 }).sampleFor id logits else s
  | none => s

/-- Prefill rows of a request in the step that ends; with its last one it samples a token and decodes from then on. -/
def State.fillEnd (s : State) (id n : Nat) (logits : List (Nat × List W32)) : State :=
  match s.req id with
  | some r =>
    if r.phase ≠ .prefill then s
    else
      let m := min r.len (r.filled + n)
      let again := min r.seen m - min r.seen r.filled
      let s := if again = 0 then s else s.meterUpd r.ctx (fun p => { p with reprefilled := p.reprefilled + again })
      if m = r.len then (s.putReq id { r with filled := m, phase := .decoding }).sampleFor id logits
      else s.setReq id { r with filled := m }
  | none => s

/-- Does the end of a step sample for a request. -/
def State.samples (s : State) (id n : Nat) : Bool :=
  match s.req id with
  | some r => r.phase == .decoding || (r.phase == .prefill && decide (r.len ≤ r.filled + n))
  | none => false

/-- STEP_END: the closing barrier departs with the model's logits for the requests that sample. While the DRBG is stopped, a step that
samples for SEED 0 waits (R410). -/
def State.stepEnd (s : State) (p : Nat) (logits : List (Nat × List W32)) : State :=
  match (s.sched p).run with
  | none => s
  | some r =>
    let ids := r.rows ++ (r.fill.filter (fun e => s.samples e.1 e.2)).map (·.1)
    let draws (id : Nat) : Bool := match s.req id with
      | some q => rd q.head 24 8 == 0 && rd q.head 4 4 != 0
      | none => false
    if s.sec.drbgStop && ids.any draws then s
    else
      let s := s.setSched p { s.sched p with run := none }
      let s := r.rows.foldl (fun s id => s.rowEnd id logits) s
      r.fill.foldl (fun s e => s.fillEnd e.1 e.2 logits) s

/-- STEP_END (R383). -/
def execStepEnd (p : Nat) (logits : List (Nat × List W32)) (s : State) : Out := atUnit "partition" p 4 (s.stepEnd p logits)

/-- STEP_TIMEOUT: the step is a PARTITION error (R489). -/
def State.stepTimeout (s : State) (p : Nat) : State :=
  match (s.sched p).run with
  | some r =>
    if (s.part p).phase = .none ∧ (s.part p).reports.all (fun e => e.1 != 0x0602) then
      (s.post { mkMsg 0x0602 (uid 0x0D 0) 0 (le 4 (r.pred / 1000)) with part := p, ctx := r.ctx }).reportPart p 0x0602
    else s
  | none => s

/-- STEP_TIMEOUT (R489). -/
def execStepTimeout (p : Nat) (s : State) : Out := atUnit "partition" p 4 (s.stepTimeout p)

/-! ## Guaranteed slots (R389) -/

/-- Bytes per token that network interface i injects: the INJECT value of its unit's CLASS code (R419; DEDUCED, log 74). -/
def injectOf (m : Bytes) (i : Nat) : Nat := let c := bf (ifUnit i) 31 24; if c < 16 then rd m (48 + 4 * c) 4 else 0

/-- r_i of a context among contexts. -/
def State.slotsAt (s : State) (l : List Nat) (c i : Nat) : Nat :=
  let a := s.allowIn l c
  if a ≤ 0 then 0
  else ceilNat (((injectOf (s.manifest c) i * ctRate (s.mctx c).contract : Nat) : Rat) * s.roundIn l / (a * 3600000000))

/-- Interfaces of a partition. -/
def State.ifsOf (s : State) (p : Nat) : List Nat := (List.range 392).filter (fun i => (s.ifRouter i).isSome && s.ifPart i == p)

/-- Is a contract GUARANTEED. -/
def ctGuar (b : Bytes) : Bool := nbit (rdb b 22) 0

/-- GUAR_CTL of a partition's interfaces for the context that becomes current: the lowest r_i slots (log 74). -/
def State.guarIn (s : State) (p c : Nat) : State :=
  if !ctGuar (s.mctx c).contract then s
  else
    (s.ifsOf p).foldl (fun s i =>
      let r := min 64 (s.slotsAt (s.runnable p) c i)
      if r = 0 then s else s.setNif i { s.nif i with guar := pack 128 [(64, 2 ^ r - 1), (16, 1), (0, s.asidOf c)] }) s

/-- ENABLE of GUAR_CTL cleared where it names a context that leaves. -/
def State.guarOut (s : State) (p c : Nat) : State :=
  (s.ifsOf p).foldl (fun s i =>
    let g := (s.nif i).guar
    if bf g 15 0 = s.asidOf c ∧ g.getLsbD 16 then s.setNif i { s.nif i with guar := setBf g 16 16 0 } else s) s

/-! ## Context switches (R399–R401) -/

/-- Steps 1 and 2 for the context that leaves. -/
def State.switchOut (s : State) (p : Nat) : State :=
  match s.currentOf p with
  | some c => (s.guarOut p c).scrubOut p c
  | none => s

/-- Step 3 for the context that comes in; poison that its state took while it was not current is its partition's error now (R401).
BAR_ENTRY is left to the writes of its registers. -/
def State.switchIn (s : State) (p c : Nat) : State :=
  let s : State := { s with dev := { s.dev with partAsid := tset s.dev.partAsid p (s.asidOf c) } }
  let s := (s.unitsIn p c).guarIn p c
  let x := s.part p
  if x.later.contains c then (s.setPart p { x with later := srem c x.later }).reportPart p 0x0201 else s

/-- CONTEXT_SWITCH: to the context whose step comes next, once nothing of the outgoing one runs (R399). -/
def State.contextSwitch (s : State) (p c : Nat) : State :=
  if !s.schedules p then s
  else
    let s' := s.openRound p
    let free : Bool := match s.currentOf p with
      | some o => s.mayScrub p o
      | none => true
    if s'.nextPick p = some c ∧ ¬ s.current c ∧ free then (s'.switchOut p).switchIn p c else s

/-- CONTEXT_SWITCH (R399). -/
def execContextSwitch (p ctx : Nat) (s : State) : Out := atUnit "partition" p 4 (s.contextSwitch p ctx)

end Sys2Proof.Machine
end

