-- ==== Sys2Proof/Machine/Contracts.lean ====
section
/-! DEFINITION. Contracts, their evaluation, the windows and the capacity statement (R370, R387, R388, R391–R393, R396–R398). -/
namespace Sys2Proof.Machine

/-! ## CONTRACT_SET (R370, R387–R389) -/

/-- Contexts whose reserves a contract of context c meets: those of its partition that may run, and c. -/
def State.rivals (s : State) (c : Nat) : List Nat := c :: (s.ctxsOf (s.ctx c).part).filter (· != c)

/-- Contract bytes put in effect. -/
def State.withContract (s : State) (c : Nat) (b : Bytes) : State := s.setMctx c { s.mctx c with contract := slice b 32 24 }

/-- Would the contracts of a partition need more than D, or an interface more than 32 slots (R258, R370, R388). Slots of outputs along a
route are reserved by GSLOT writes (log 74). -/
def State.contractTooMuch (s : State) (c : Nat) : Bool :=
  let l := s.rivals c
  decide (s.overD (l.map (fun k => (k, (s.mctx k).contract))) > 0)
    || (ctGuar (s.mctx c).contract && (s.ifsOf (s.ctx c).part).any (fun i => decide (s.slotsAt l c i > 32)))

/-- CONTRACT_SET: the current window ends and a new one starts (R387). -/
def semContractSet : Sem where
  range := fun _ _ b => firstBad [(decide (rd b 40 2 < 5000 ∨ rd b 40 2 > 9999), 40), (decide (rd b 42 2 < 5000 ∨ rd b 42 2 > 9999), 42),
    (decide (rd b 48 4 < 1 ∨ rd b 48 4 > 86400), 48), (decide (rd b 52 2 > 50), 52)]
  own := fun s _ b => if (s.withContract (ctxOf b) b).contractTooMuch (ctxOf b) then some (stNoResource, 0) else none
  go := fun s src b =>
    let c := ctxOf b
    let s := (s.endWindow c).withContract c b
    let s := s.setMctx c { s.mctx c with since := s.time, changed := true }
    let p := (s.ctx c).part
    (if s.current c then (s.guarOut p c).guarIn p c else s).done src []

/-- CONTRACT_SET (R370). -/
def execContractSet (src : LSrc) (s : State) : Out := atSrc src (s.runLetter 0x0601 semContractSet src)

/-! ## HISTOGRAM_READ (R392) -/

/-- The current and last windows of a context, 5,376 bytes. -/
def State.histogram (s : State) (c : Nat) : Bytes :=
  let s := s.busyTouch c
  let m := s.mctx c
  recOf 64 [(0, 2, c), (4, 4, rd m.contract 16 4), (8, 8, s.time)] ++ m.cur.bytes s.time ++ m.last.bytes m.last.stop

/-- HISTOGRAM_READ: with CLEAR the current window ends at the snapshot. -/
def semHistogram : Sem where
  own := fun s src b => s.tooSmall src b 5376
  go := fun s src b =>
    let c := ctxOf b
    let r := s.histogram c
    let s := s.busyTouch c
    (if nbit (rdb b 48) 0 then s.endWindow c else s).result src [] r

/-- HISTOGRAM_READ (R392). -/
def execHistogramRead (src : LSrc) (s : State) : Out := atSrc src (s.runLetter 0x0602 semHistogram src)

/-! ## The evaluation of contracts (R393) -/

/-- A CONTRACT_WARN entry (R372): kind, percentile, target and measured value. -/
def State.warnEntry (s : State) (c kind pct target measured window : Nat) : Bytes :=
  entryBytes 4 0 0 0xFF 0 0 c 0
    (recOf 32 [(0, 1, kind), (2, 2, pct), (4, 4, target), (8, 4, measured), (12, 4, window), (16, 8, s.time)])

/-- Send a warning once in a window, to every PF0 tray that is set; each reply counts in WARNINGS. -/
def State.warn (s : State) (c kind pct target measured : Nat) : State :=
  let m := s.mctx c
  let n := ([0, 1].filter (fun p => (s.fn p 0).tray.isSome)).length
  if m.warned.contains kind ∨ n = 0 then s
  else
    let s := s.toOperators (s.warnEntry c kind pct target measured (rd m.contract 16 4))
    let s := s.setMctx c { s.mctx c with warned := kind :: (s.mctx c).warned }
    (List.range n).foldl (fun s _ => s.meterUpd c (fun p => p.bump pcWarnings)) s

/-- A percentile against its target in µs: a warning where the measured one reaches the target less the margin. An empty histogram
measures nothing. The measured value of +Infinity is free. -/
def State.warnPct (s : State) (c kind pct target : Nat) (h : Tbl Nat) : State :=
  let w := rd (s.mctx c).contract 20 2
  if target = 0 ∨ histTotal h = 0 then s
  else
    match percentile h pct with
    | some e => if 100 * e ≥ target * 1000 * (100 - w) then s.warn c kind pct target (e / 1000) else s
    | none => let (x, s) := s.freeNat; s.warn c kind pct target x

/-- The evaluation of one context's window, and its rollover at WINDOW_S. -/
def State.evaluate (s : State) (c : Nat) : State :=
  let s := s.busyTouch c
  let m := s.mctx c
  let ct := m.contract
  if ct = [] then s
  else
    let s := if ctRate ct ≠ 0 ∧ m.cur.busy ≥ 1000000000 ∧ m.cur.tokens * 100 * 1000000000 ≤ ctRate ct * (100 + rd ct 20 2) * m.cur.busy then
        s.warn c 1 0 (ctRate ct) (m.cur.tokens * 1000000000 / m.cur.busy) else s
    let s := s.warnPct c 2 (rd ct 8 2) (ctTtft ct) m.cur.ttft
    let s := s.warnPct c 3 (rd ct 10 2) (ctItl ct) m.cur.itl
    if s.time ≥ m.cur.start + rd ct 16 4 * 1000000000 then s.endWindow c else s

/-- CONTRACT_EVALUATION: every context (R393). -/
def execContractEvaluation (s : State) : Out := .next ((s.ctxs.map (·.1)).foldl (fun s c => s.evaluate c) s)

/-! ## CAPACITY_STATEMENT (R396, R398) -/

/-- The mix of a letter: CONTEXT_TOKENS and SHARE of its COUNT entries. -/
def mixOf (b : Bytes) : List (Nat × Nat) := (List.range (rdb b 52)).map (fun i => (rd b (56 + 8 * i) 4, rd b (60 + 8 * i) 2))

/-- What a statement computes with: its model's manifest and partition, the contract and limits of the context named, and the reserves
and switch costs of the others. -/
structure StmtIn where
  /-- [2b R398/15 -] partition -/
  p : Nat
  /-- [bytes R419/16 -] manifest -/
  man : Bytes
  /-- [Nat R356/14 -] tokens of a KV page; 32 where no context is named (log 75) -/
  pt : Nat
  /-- [17b R356/14 -] MAX_BATCH; its largest value where no context is named -/
  maxBatch : Nat
  /-- [ns R381/15 -] L -/
  l : Nat
  /-- [opt R382/15 -] reserves of the other contexts and switch costs -/
  others : Option Rat
  deriving DecidableEq, Repr

/-- The inputs of a statement. -/
def State.stmtIn (s : State) (b : Bytes) : StmtIn :=
  let m := s.model (rd b 48 4)
  let c := ctxOf b
  let named := s.ctxLive c
  let l := minItl (if named then [(s.mctx c).contract] else [])
  let rest := (s.contracts m.part).filter (fun e => !(named && e.1 == c))
  { p := m.part, man := m.manifest, pt := if named then pageTokens (s.ctx c).psize else 32
    maxBatch := if named then (s.ctx c).maxBatch else 65536, l := l
    others := (sumOpt (rest.map (fun e => s.reserve e.1 e.2 l))).map (· + (switchCost (rest.length + 1) : Nat)) }

/-- S_mix of a statement. -/
def StmtIn.smix (i : StmtIn) (b : Bytes) : Rat := mixMean (stepSeqBytes i.man i.pt) (mixOf b)

/-- t(B) of a statement. -/
def State.stmtTime (s : State) (i : StmtIn) (b : Bytes) (n : Nat) : Option Rat := s.stepTime i.p i.man (i.smix b) n

/-- Does t(B) fit within the time the statement can give. -/
def State.stmtFits (s : State) (i : StmtIn) (b : Bytes) (n : Nat) : Bool :=
  match i.others, s.stmtTime i b n with
  | some o, some t => decide (t ≤ (9 / 10 : Rat) * i.l - o)
  | _, _ => false

/-- Does the KV memory of B sequences at the mix's proportions fit the free local windows. -/
def State.stmtHolds (s : State) (i : StmtIn) (b : Bytes) (n : Nat) : Bool :=
  decide ((n : Rat) * mixMean (kvSeqBytes i.man i.pt) (mixOf b) ≤ ((s.stacksOf i.p).map s.localFree).sum)

/-- A signed number of a time in ns, rounded up to 8 bytes. -/
def nsField (q : Rat) : Nat := min (ceilNat q) (2 ^ 64 - 1)

/-- Tokens per second of B tokens in a time of ns. -/
def tpsField (n : Nat) (q : Rat) : Nat := if q ≤ 0 then 0 else min (((n : Rat) * 1000000000 / q).floor.toNat) (2 ^ 32 - 1)

/-- The statement, 128 bytes. -/
def State.statement (s : State) (b : Bytes) : Bytes :=
  let i := s.stmtIn b
  let n := largest (fun n => s.stmtFits i b n && s.stmtHolds i b n) i.maxBatch 17 0
  let smix := i.smix b
  let bytes : Rat := (pfW i.man : Rat) + n * smix
  let bound := bytes / s.pinRate
  let o := i.others.getD 0
  let t := (s.stmtTime i b n).getD 0
  let mem := bytes / (s.pinRate * s.efficiency i.p)
  let down := (List.range 12).any (fun k => s.partOfSite k == i.p && (s.site k).mode == .down)
  let narrow := (List.range 16).any (fun l => (s.port l).mode == .up && decide ((s.port l).width < 8))
  let flags := b2n (decide (n < i.maxBatch) && !s.stmtFits i b (n + 1)) + 2 * b2n (decide (n = i.maxBatch))
    + 4 * b2n (decide (n < i.maxBatch) && !s.stmtHolds i b (n + 1)) + 8 * b2n (decide (t > mem)) + 16 * b2n s.links.below + 32 * b2n down
    + 64 * b2n narrow
  putBytes (recOf 128 [(0, 4, 1), (4, 4, rd b 48 4), (8, 2, ctxOf b), (10, 1, i.p), (11, 1, s.dev.layout), (12, 4, n), (16, 8, nsField bytes),
      (24, 8, nsField bound), (32, 8, nsField t), (40, 8, nsField (t + o)), (48, 4, tpsField n (bound + o)), (52, 4, tpsField n (t + o)),
      (56, 4, s.aclkSus i.p), (62, 1, s.topRefresh i.p), (63, 1, s.topThrottle i.p), (64, 4, flags),
      (68, 4, (s.efficiency i.p * 1000000).floor.toNat), (72, 8, nsField o), (80, 8, s.time)])
    60 (leI 2 (s.leastMargin i.p))

/-- CAPACITY_STATEMENT: the mix becomes the declared mix of the context named (R388). A model whose load still runs has no profile yet:
BUSY (DEDUCED from R356, log 75). -/
def semCapacity : Sem where
  miss := fun s _ b => if (tfind s.serve.models (rd b 48 4)).isNone then some 48 else none
  range := fun _ _ b => firstBad [(decide (rdb b 52 < 1 ∨ rdb b 52 > 8), 52), (((mixOf b).map (·.2)).sum != 10000, 56)]
  own := fun s src b => if !(s.model (rd b 48 4)).loaded then some (stBusy, 0) else s.tooSmall src b 128
  go := fun s src b =>
    let c := ctxOf b
    let r := s.statement b
    (if s.ctxLive c then s.setMctx c { s.mctx c with mix := mixOf b } else s).result src [] r

/-- CAPACITY_STATEMENT (R396). -/
def execCapacityStatement (src : LSrc) (s : State) : Out := atSrc src (s.runLetter 0x0605 semCapacity src)

end Sys2Proof.Machine
end

