-- ==== Sys2Proof/Machine/Attest.lean ====
section
/-! DEFINITION. Signatures of the root-of-trust processor, attestation reports, session keys, receipts, the DRBG, firmware staging and
the debug states (R360, R361, R371, R394, R395, R410–R412, R421–R427, R467). -/
namespace Sys2Proof.Machine

/-! ## The attestation report (R421) -/

/-- Is a staged image held: the boot-control record's bit of the slot that does not run (R465). -/
def State.isStaged (s : State) : Bool := !s.board.resetDue && s.flash.staged.getLsbD (1 - s.flash.active)

/-- SITES of a partition's record: its UP sites. -/
def State.sitesMask (s : State) (p : Nat) : Nat :=
  (((List.range 12).filter (fun n => s.partOfSite n == p && (s.site n).mode == .up)).map (fun n => 2 ^ n)).sum

/-- Partition record of the report. -/
def State.attPart (s : State) (p : Nat) : Bytes :=
  if p ≥ s.dev.layout then zeros 8
  else [if (s.part p).phase = .none then 1 else 2, 0] ++ le 2 (s.sitesMask p) ++ zeros 4

/-- Site record of the report. -/
def State.attSite (s : State) (n : Nat) : Bytes :=
  let x := s.site n
  [BitVec.ofNat 8 x.mode.code] ++ zeros 3 ++ slice x.block 8 4 ++ slice x.block 32 32 ++ slice x.digest 0 32

/-- Model record of the report. -/
def attModel (e : Nat × ModelState) : Bytes := le 4 e.1 ++ le 1 e.2.part ++ zeros 3 ++ slice e.2.owner 0 32 ++ slice e.2.digest 0 32

/-- Bytes 0–3,943 of a report for a nonce, and for a session where one is named. -/
def State.report (s : State) (nonce : Bytes) (id : Option Nat) : Bytes :=
  let d := s.dev.image.digests
  let dig (k : Nat) : Bytes := slice (tget [] d k) 0 32
  let staged : Bytes := if s.isStaged then slice ((tget ({} : FwImage) s.flash.slots (1 - s.flash.active)).digest) 0 32 else zeros 32
  let loaded := s.serve.models.filter (fun e => e.2.loaded)
  let head := recOf 48 [(0, 4, 1), (4, 4, 21032), (8, 8, s.dev.generation), (16, 8, s.time), (24, 4, s.fuse.package.toNat),
    (28, 4, s.fuse.population.toNat), (32, 4, s.links.ownInc.toNat), (36, 1, s.stateCode), (37, 1, b2n s.isStaged), (38, 1, s.debugByte),
    (39, 1, s.dev.layout), (40, 4, s.flash.fusedSv), (44, 4, b2n id.isSome + 2 * b2n s.dev.bist)]
  let sess : Bytes := match id with
    | none => zeros 1616
    | some i =>
      let q := s.sess i
      let x := s.ctx q.ctx
      recOf 16 [(0, 4, i), (4, 2, q.ctx), (6, 1, q.f), (7, 1, q.p), (8, 4, x.model), (12, 4, b2n x.multi)] ++ le 32 x.peers.toNat ++ slice q.ek 0 1568
  head ++ slice nonce 0 32 ++ sha s.sec.devPk ++ slice Config.romDigest 0 32 ++ dig 0 ++ dig 1 ++ dig 3 ++ staged
    ++ ((List.range 4).map s.attPart).flatten ++ ((List.range 12).map s.attSite).flatten
    ++ le 4 loaded.length ++ zeros 4 ++ slice ((loaded.map attModel).flatten) 0 1152 ++ sess

/-! ## Signatures one at a time (R423) -/

/-- The key that signs: the attestation key, or the debug key in VENDOR_DEBUG. -/
def State.signKey (s : State) : Bytes := if s.sec.debug = .vendor then s.sec.dbg else s.sec.att

/-- NONCE of a report's or receipt's letter. -/
def State.nonceOf (s : State) (src : LSrc) : Bytes := slice ((s.letterAt src).getD []) 48 32

/-- The snapshot of a job when its signature starts; a receipt's was taken when its letter was executed (R395). -/
def State.snapOf (s : State) (j : SigJob) : Bytes :=
  match j.kind with
  | .attest => s.report (s.nonceOf j.src) none
  | .session id _ => s.report (s.nonceOf j.src) (some id)
  | .receipt _ => j.snap

/-- Start the next signature, if none is in progress and neither an unlock nor an activation stands before it. A session report whose
session has been closed is not signed: its letter is answered ABORTED (DEDUCED, log 77). -/
def State.sigNext : Nat → State → State
  | 0, s => s
  | n + 1, s =>
    if s.sec.sig.isSome ∨ s.sec.unlock.isSome ∨ s.sec.activate.isSome ∨ s.board.resetDue then s
    else
      match s.sec.sigQ with
      | [] => s
      | j :: rest =>
        let s : State := { s with sec := { s.sec with sigQ := rest } }
        let gone := match j.kind with
          | .session id _ => (tfind s.serve.sessions id).isNone
          | _ => false
        if gone then State.sigNext n (s.answerErr j.src stAborted 0)
        else { s with sec := { s.sec with sig := some { j with snap := s.snapOf j } } }

/-- Queue a signature for a letter, whose slot stays TAKEN. -/
def State.queueSig (s : State) (j : SigJob) : State :=
  let s := s.busyLetter j.src
  State.sigNext (s.sec.sigQ.length + 2) { s with sec := { s.sec with sigQ := s.sec.sigQ ++ [j] } }

/-- Answer the letter of a finished signature. -/
def State.sigAnswer (s : State) (j : SigJob) : State :=
  let signed := j.snap ++ slhSign s.signKey j.snap
  if j.mute then s
  else
    match j.kind with
    | .attest => s.result j.src (slice j.snap 8 8) signed
    | .session id chain =>
      if (tfind s.serve.sessions id).isNone then s.answerErr j.src stAborted 0
      else
        let c := if chain then s.certChain else []
        (s.setSess id { s.sess id with hr := sha j.snap }).result j.src (le 4 id ++ le 4 21032 ++ le 4 c.length) (signed ++ c)
    | .receipt c =>
      let s := s.result j.src (slice j.snap 8 8) signed
      if nbit (rdb j.snap 19) 2 ∧ (s.mctx c).lastRcpt.isSome then s.setMctx c { s.mctx c with lastRcpt := none } else s

/-! ## ATTEST_GET (R421) -/

/-- ATTEST_GET. -/
def semAttest : Sem where
  own := fun s src b => s.tooSmall src b 21032
  go := fun s src _ => s.queueSig { src := src, kind := .attest }

/-- ATTEST_GET (R421). -/
def execAttestGet (src : LSrc) (s : State) : Out := atSrc src (s.runLetter 0x0701 semAttest src)

/-! ## SESSION_OPEN and SESSION_KEY (R360, R361, R411, R412) -/

/-- SESSION_OPEN: a session with a fresh key pair, whose report is queued. -/
def semSessionOpen : Sem where
  own := fun s src b =>
    match src with
    | .host p f _ =>
      if (s.serve.sessions.filter (fun e => e.2.p == p && e.2.f == f)).length ≥ 256 ∨ s.serve.sessions.length ≥ 4096 then some (stNoResource, 0)
      else if s.sec.drbgStop then some (stBusy, 0)
      else s.tooSmall src b (21032 + (if nbit (rd b 80 4) 0 then s.certChain.length else 0))
    | .mgmt _ => none
  go := fun s src b =>
    match src with
    | .host p f _ =>
      let id := s.serve.nextSess
      let (k, s) := s.drbg 64
      let q : SessState := { p := p, f := f, ctx := ctxOf b, opened := s.time, ek := kemEk (k.take 32) (k.drop 32), dk := kemDk (k.take 32) (k.drop 32) }
      let s := s.setServe { s.serve with sessions := tset s.serve.sessions id q, nextSess := id + 1 }
      s.queueSig { src := src, kind := .session id (nbit (rd b 80 4) 0) }
    | .mgmt _ => s

/-- SESSION_OPEN (R360). -/
def execSessionOpen (src : LSrc) (s : State) : Out := atSrc src (s.runLetter 0x0401 semSessionOpen src)

/-- T and okm of a session for a CIPHERTEXT (R411). -/
def SessState.derive (q : SessState) (id : Nat) (ct : Bytes) : Bytes × Bytes :=
  let t := sha (q.hr ++ ct)
  (t, expand (extract t (kemDecaps q.dk ct)) (ascii "ZLV-H12 session v1" ++ le 4 id) 152)

/-- SESSION_KEY: BUSY once the session has its keys, and while its report is still to be returned (R361; the latter DEDUCED from R411,
log 77). A CONFIRM that does not match closes the session. -/
def semSessionKey : Sem where
  own := fun s _ b => let q := s.sess (sessOf b); if q.okm ≠ [] ∨ q.hr = [] then some (stBusy, 0) else none
  go := fun s src b =>
    let id := sessOf b
    let q := s.sess id
    let (t, okm) := q.derive id (slice b 32 1568)
    if slice b 1600 32 = hmac (kCConf okm) (ascii "client confirm" ++ t) then
      (s.setSess id { q with okm := okm, dk := [] }).done src (hmac (kDConf okm) (ascii "device confirm" ++ t))
    else (s.closeSess id).answerErr src stBadSeal 0

/-- SESSION_KEY (R361). -/
def execSessionKey (src : LSrc) (s : State) : Out := atSrc src (s.runLetter 0x0402 semSessionKey src)

/-! ## RECEIPT_GET (R394, R395) -/

/-- Bytes 0–2,847 of a context's next receipt. -/
def State.receipt (s : State) (c : Nat) (nonce : Bytes) : Bytes :=
  let m := s.mctx c
  let x := s.ctx c
  let r : LastReceipt := match m.lastRcpt with
    | some r => r
    | none => { period := { m.rcpt with stop := s.time }, part := x.part, model := x.model, digest := (s.model x.model).digest
                generation := s.dev.generation }
  let flags := b2n (decide (m.nextRcpt = 1)) + 2 * b2n m.changed + 4 * b2n m.lastRcpt.isSome
  recOf 32 [(0, 4, 1), (4, 4, 19936), (8, 8, m.nextRcpt), (16, 2, c), (18, 1, r.part), (19, 1, flags), (20, 4, r.model),
      (24, 4, s.fuse.package.toNat), (28, 4, s.links.ownInc.toNat)]
    ++ slice nonce 0 32 ++ slice m.prevDigest 0 32 ++ slice r.digest 0 32 ++ slice m.contract 0 24
    ++ recOf 40 [(8, 8, r.generation), (16, 8, m.since)] ++ r.period.bytes r.period.stop

/-- RECEIPT_GET: the receipt period ends at this snapshot and the next begins; the receipt is queued for its signature. -/
def semReceipt : Sem where
  own := fun s src b => s.tooSmall src b 19936
  go := fun s src b =>
    let c := ctxOf b
    let s := s.busyTouch c
    let body := s.receipt c (slice b 48 32)
    let m := s.mctx c
    let s := s.setMctx c { m with nextRcpt := m.nextRcpt + 1, prevDigest := sha body, changed := false, rcpt := { start := s.time } }
    s.queueSig { src := src, kind := .receipt c, snap := body }

/-- RECEIPT_GET (R394). -/
def execReceiptGet (src : LSrc) (s : State) : Out := atSrc src (s.runLetter 0x0603 semReceipt src)

/-! ## DEBUG_UNLOCK (R424–R426) -/

/-- Is a token valid for this device in this incarnation (R425). -/
def State.tokenGood (s : State) (t : Bytes) : Bool :=
  t.length == 16288 && rd t 0 4 == 0x4B544C5A && rdb t 4 == 1 && rdb t 5 == 2 && rd t 6 2 == 0
    && rd t 8 4 == s.fuse.package.toNat && rd t 12 4 == s.links.ownInc.toNat && slice t 16 32 == sha s.sec.devPk && rd t 48 16 == 0
    && Config.slhVerify 3 Config.varoftPk (t.take 64) (t.drop 64)

/-- The translations of an ASID go from every TLB at once, with the invalidations that wait. -/
def State.dropAsid (s : State) (asid : Nat) : State :=
  { s with xlate := s.xlate.map (fun e => (e.1, { e.2 with
      tlb := e.2.tlb.filter (fun x => x.asid != asid), wcache := e.2.wcache.filter (fun x => x.asid != asid)
      ctlb := e.2.ctlb.map (fun c => (c.1, c.2.filter (fun x => x.asid != asid)))
      invals := e.2.invals.filter (fun i => i.asid != asid) })) }

/-- Steps 2 to 7 of R426. After the fill, firmware writes its empty ASID table again (log 66). -/
def State.enterVendor (s : State) : State :=
  let s := s.abortReqs (fun _ => true)
  let s := s.closeSessions (fun _ => true)
  let s := (s.ctxs.map (·.1)).foldl (fun s c => ((s.destroyStart c).dropAsid (s.asidOf c)).destroyEnd c) s
  let s := s.setServe { s.serve with models := [], allocs := [] }
  let s := (List.range 12).foldl (fun s k =>
    if (s.stack k).lost then s else s.setStack k { (s.stack k).fill with gBusy := false, gOp := 5, gAsid := 0, gPart := 0 }) s
  let s := s.clearAsids
  ({ s with sec := { s.sec with att := [], bind := [], offload := [], debug := .vendor } } : State).bumpGen

end Sys2Proof.Machine
end

