-- ==== Sys2Proof/Machine/Manage.lean ====
section
/-! DEFINITION. The operator's letters that change settings, ports and power, the writing of the saved settings, and BIST_RUN
(R148, R310, R318, R320, R371, R456, R462, R463, R470–R473, R495–R497). -/
namespace Sys2Proof.Machine

/-! ## POWER_CAP_SET (R371, R456) -/

/-- A new cap: one that lowers the cap in effect is divided at once, one that raises it is used from the next round. -/
def State.setCap (s : State) (mgmt : Bool) (w : Nat) : State :=
  let s0 := s
  let s : State := { s with pwr := if mgmt then { s.pwr with capMg := w } else { s.pwr with capOp := w } }
  let c := min s.pwr.capOp s.pwr.capMg
  if c < s.pwr.cap then
    (State.divide { s with pwr := { s.pwr with cap := c } }).recheckFrom s0
  else s

/-- POWER_CAP_SET. -/
def semPowerCap : Sem where
  range := fun _ _ b => firstBad [(decide (rd b 32 2 < 1500 ∨ rd b 32 2 > 4000), 32)]
  go := fun s src b => (s.setCap (!isHost src) (rd b 32 2)).done src []

/-- POWER_CAP_SET (R371). -/
def execPowerCapSet (src : LSrc) (s : State) : Out := atSrc src (s.runLetter 0x0A01 semPowerCap src)

/-! ## User calibration (R462, R463) -/

/-- A signed number of two bytes. -/
def rdI2 (b : Bytes) (off : Nat) : Int := (BitVec.ofNat 16 (rd b off 2)).toInt

/-- One entry: an OFFSET clamped to the limit of its channel's KIND; zero removes the offset. Answers whether it was clamped. -/
def PowerState.calEntry (p : PowerState) (c : Nat) (off : Int) : PowerState × Bool :=
  let lim := calLimit (chKind c)
  let v := max (-lim) (min lim off)
  let cl : Bool := chKind c == 1 || v != off
  ({ p with user := if v = 0 then tdel p.user c else tset p.user c v
            clamped := if cl then sins c p.clamped else srem c p.clamped }, cl)

/-- CAL_USER_SET. -/
def semCalSet : Sem where
  range := fun _ _ b =>
    firstBad ((decide (rd b 32 2 < 1 ∨ rd b 32 2 > 1000), 32)
      :: (List.range (rd b 32 2)).map (fun i => (decide (rd b (40 + 4 * i) 2 ≥ 484), 40 + 4 * i)))
  go := fun s src b =>
    let (p, n) := (List.range (rd b 32 2)).foldl (fun (a : PowerState × Nat) i =>
      let r := a.1.calEntry (rd b (40 + 4 * i) 2) (rdI2 b (42 + 4 * i))
      (r.1, a.2 + b2n r.2)) (s.pwr, 0)
    ({ s with pwr := p } : State).done src (le 2 n)

/-- CAL_USER_SET (R462). -/
def execCalUserSet (src : LSrc) (s : State) : Out := atSrc src (s.runLetter 0x0A03 semCalSet src)

/-- CAL_USER_SAVE: the page holds every user offset in effect. -/
def semCalSave : Sem where
  go := fun s src _ => ({ s with flash := { s.flash with calPage := some s.pwr.user, calBad := false } } : State).done src []

/-- CAL_USER_SAVE (R463). -/
def execCalUserSave (src : LSrc) (s : State) : Out := atSrc src (s.runLetter 0x0A04 semCalSave src)

/-! ## FLIP_MASK_SET (R182, R371) -/

/-- FLIP_MASK_SET. -/
def semFlip : Sem where
  range := fun _ _ b => firstBad [(decide (rdb b 32 ≥ 12), 32), (decide (rd b 36 4 ≥ sectorsPerStack), 36)]
  own := fun s _ b => if s.ctxs.any (fun c => c.2.part == s.partOfDie (rdb b 32 / 3)) then some (stBusy, 0) else none
  go := fun s src b =>
    let k := rdb b 32
    (s.setStack k { s.stack k with
      flipCtl := pack 64 [(63, b2n (nbit (rdb b 33) 1)), (62, b2n (nbit (rdb b 33) 0)), (0, rd b 36 4)]
      flipData := BitVec.ofNat 256 (rd b 40 32), flipCheck := BitVec.ofNat 32 (rd b 72 4) }).done src []

/-- FLIP_MASK_SET (R182). -/
def execFlipMaskSet (src : LSrc) (s : State) : Out := atSrc src (s.runLetter 0x0903 semFlip src)

/-! ## BANDWIDTH_MODE_SET, SETTINGS_SAVE and the writes of the saved settings (R148, R150, R152, R371, R473) -/

/-- BW_BUCKET of BUCKET[i] of a BANDWIDTH_MODE_SET. -/
def letterBucket (b : Bytes) (i : Nat) : W64 :=
  pack 64 [(32, rd b (44 + 8 * i) 2), (17, rdb b (46 + 8 * i)), (0, rd b (40 + 8 * i) 4)]

/-- BANDWIDTH_MODE_SET: SLOTS, and with RATES the buckets, take effect at once in every controller; the answer waits for the
write of CONFIG. -/
def semBandwidth : Sem where
  range := fun _ _ b =>
    firstBad ([(decide (rdb b 32 > 1), 32), (decide (rdb b 33 > 16), 33)]
      ++ (List.range 5).flatMap (fun i => [(decide (rd b (40 + 8 * i) 4 > 131071), 40 + 8 * i), (decide (rdb b (46 + 8 * i) > 1), 46 + 8 * i)]))
  go := fun s src b =>
    let s := (List.range 12).foldl (fun s k =>
      let x := s.stack k
      let x := { x with prio := setBf x.prio 4 0 (rdb b 33) }
      s.setStack k (if nbit (rdb b 34) 0 then
          { x with buckets := (List.range 5).map (fun i => (i, { tget ({} : Bucket) x.buckets i with new := some (letterBucket b i) })) }
        else x)) s
    (s.trigSettings 1).busyLetter src

/-- BANDWIDTH_MODE_SET (R371). -/
def execBandwidthModeSet (src : LSrc) (s : State) : Out := atSrc src (s.runLetter 0x0A06 semBandwidth src)

/-- CONFIG of a BANDWIDTH_MODE_SET: the values in effect with the letter's BW_MODE; BUCKET and RATES are those saved before unless
RATES is set (R473). -/
def State.bandwidthConfig (s : State) (b : Bytes) : Bytes :=
  let c := putBytes s.configBytes 1 [BitVec.ofNat 8 (rdb b 32)]
  if nbit (rdb b 34) 0 then c
  else
    match s.savedSection 1 with
    | some o => putBytes (putBytes c 3 (slice o 3 1)) 32 (slice o 32 40)
    | none => putBytes c 3 [0]

/-- SETTINGS_SAVE: CONFIG and every repair section, with TRAINING every training section too; the answer waits for the write. -/
def semSettingsSave : Sem where
  go := fun s src b =>
    let types := [1, 2, 3, 4, 5] ++ (if nbit (rdb b 32) 0 then [6, 7, 8, 9] else [])
    (types.foldl (fun s t => s.trigSettings t) s).busyLetter src

/-- SETTINGS_SAVE (R371, R473). -/
def execSettingsSave (src : LSrc) (s : State) : Out := atSrc src (s.runLetter 0x0803 semSettingsSave src)

/-- SETTINGS_WRITE: a write of the sections that are due completes, and the letters that asked for it are answered (R473). -/
def execSettingsWrite (s : State) : Out :=
  .next <|
    if s.dev.mode = .off ∨ s.dev.saveSecs = [] then s
    else
      let given : Tbl Bytes := match (s.busyOf 0x0A06).head? with
        | some src => [(1, s.bandwidthConfig ((s.letterAt src).getD []))]
        | none => []
      let types := s.dev.saveSecs
      let s := State.writeSettings { s with dev := { s.dev with saveSecs := [] } } types given
      (s.busyOf 0x0803 ++ s.busyOf 0x0A06).foldl (fun s src => s.done src []) s

/-! ## LINK_RETRAIN (R310, R318, R320, R371) -/

/-- The configuration of R310 and R318 that a LINK_RETRAIN carries. -/
def State.linkConfig (s : State) (b : Bytes) : State :=
  let s : State := { s with links := { s.links with device := rdb b 35, minPorts := rdb b 36 } }
  let s := (List.range 16).foldl (fun s l =>
    s.setPort l { s.port l with group := rdb b (40 + l), unused := BitVec.ofNat 8 (rdb b (56 + l)) }) s
  s.reselect.minCheck

/-- A named port sends FAREWELL with cause 0x05, goes DOWN and trains fully; one left without a lane is DISABLED. -/
def State.retrainPort (s : State) (l : Nat) : State :=
  let s := if (s.port l).mode = .up then s.sendExpress l (expressEntry 2 s.links.device (s.port l).partner [5]) else s
  let s := s.portDown l 6
  let p := s.port l
  (s.setPort l (PortState.usable { p with mode := .training, signal := false })).portChanged l

/-- Has every named port reached UP or DOWN. -/
def State.retrained (s : State) (b : Bytes) : Bool :=
  ((List.range 16).filter (fun l => nbit (rd b 32 2) l)).all (fun l =>
    (s.port l).mode == .up || (s.port l).mode == .down || (s.port l).mode == .disabled)

/-- LINK_RETRAIN: its first event configures and starts the training, a later one of the same letter ends it once every named
port has settled (log 65). -/
def semLinkRetrain : Sem where
  range := fun _ _ b =>
    firstBad ((decide (rdb b 36 > 16), 36) :: (List.range 16).map (fun l => (decide (rdb b (40 + l) > 7), 40 + l)))
  own := fun s _ b =>
    let change := rdb b 35 != s.links.device || (List.range 16).any (fun l => rdb b (40 + l) != (s.port l).group)
    if nbit (rdb b 34) 0 ∧ change ∧ s.ctxs.any (fun c => c.2.multi) then some (stBusy, 0) else none
  go := fun s src b =>
    let s := if nbit (rdb b 34) 0 then s.linkConfig b else s
    let s := ((List.range 16).filter (fun l => nbit (rd b 32 2) l)).foldl (fun s l => s.retrainPort l) s
    if s.retrained b then s.done src [] else s.busyLetter src

/-- LINK_RETRAIN (R320). -/
def execLinkRetrain (src : LSrc) (s : State) : Out :=
  atSrc src <|
    match s.letterAt src with
    | some b => if opOf b = 0x0B02 ∧ s.isBusy src then (if s.retrained b then s.done src [] else s) else s.runLetter 0x0B02 semLinkRetrain src
    | none => s

/-! ## BIST_RUN (R371, R495–R497) -/

/-- PHYS_EN of the field dies (R243). -/
def State.physAll (s : State) (on : Bool) : State :=
  (List.range 4).foldl (fun s f => s.setXl (12 + f) { s.xl (12 + f) with physEn := on }) s

/-- BIST_RUN: BUSY while a context exists or a model is loaded or loading (R349, R495); step 1 happens at once. -/
def semBistRun : Sem where
  own := fun s _ _ => if s.ctxs ≠ [] ∨ s.serve.models ≠ [] then some (stBusy, 0) else none
  go := fun s src b =>
    match src with
    | .host p f _ =>
      let s := s.bumpGen
      let w : Work := { kind := .bist (rdb b 32), p := p, f := f, letter := b }
      let s : State := { s with dev := { s.dev with bist := true }, sec := { s.sec with bistStart := s.time }, works := s.works ++ [w] }
      ((s.logAt 0x0701 0 0 [BitVec.ofNat 8 (rdb b 32)]).physAll true).answer src stAccepted [] []
    | .mgmt _ => s

/-- BIST_RUN (R495). -/
def execBistRun (src : LSrc) (s : State) : Out := atSrc src (s.runLetter 0x0901 semBistRun src)

/-- Is die d tested: a field die, or a Varoft compute die that is UP. -/
def State.bistTests (s : State) (d : Nat) : Bool := decide (d ≥ 12) || (!s.guestSite d && (s.site d).mode == .up)

/-- Expected signature of die d. -/
def State.bistExpected (s : State) (d : Nat) : Nat :=
  let x := (s.site d).block
  if d < 12 then Config.bistExpect s.dev.image.version (rd x 10 2) (rd x 12 4) (tget 21 s.dev.deadPos d) d
  else Config.bistExpect s.dev.image.version 0 0 0xFF d

/-- New failing columns of a run: (array, column) on a tested die, not bad already. -/
def State.newColumns (s : State) (cols : List (Nat × Nat)) : List (Nat × Nat) :=
  (cols.filter (fun c => decide (c.1 < 8064 ∧ c.2 < 17) && s.bistTests (c.1 / 672) && decide (c.1 / 672 < 12)
    && !(tget [] s.dev.badCols c.1).contains c.2 && !(tget [] s.dev.newCols c.1).contains c.2)).eraseDups

/-- The 576 bytes of a run's result, and the mask of the dies that failed. -/
def State.bistOutcome (s : State) (scope : Nat) (sigs : Tbl Nat) (fails : Tbl (Nat × Nat)) (new : List (Nat × Nat)) : Bytes × Nat :=
  let logic := nbit scope 0
  let mem := nbit scope 1
  let sig (d : Nat) : Nat := if s.bistTests d && logic then tget 0 sigs d % 2 ^ 64 else 0
  let nf (d : Nat) : Nat × Nat := if s.bistTests d && mem then tget (0, 0xFFFFFFFF) fails d else (0, 0xFFFFFFFF)
  let badL (d : Nat) : Bool := s.bistTests d && logic && sig d != s.bistExpected d
  let badM (d : Nat) : Bool := (nf d).1 != 0
  let recs := (List.range 16).map (fun d =>
    if s.bistTests d then
      bistDie d scope (b2n (badL d) + 2 * b2n (badM d)) (new.filter (fun c => c.1 / 672 == d)).length (sig d) (s.bistExpected d)
        (nf d).1 (if badM d then (nf d).2 else 0xFFFFFFFF)
    else bistDie d 0 4 0 0 0 0 0xFFFFFFFF)
  let mask := dieMask (fun d => badL d || badM d)
  let h := recOf 64 [(0, 4, 1), (4, 4, 576), (8, 1, scope), (9, 1, if mask = 0 then 1 else 2), (16, 8, s.sec.bistStart), (24, 8, s.time)]
  (putBytes h 32 (sha (((List.range 16).map (fun d => le 8 (sig d))).flatten ++ [BitVec.ofNat 8 scope])) ++ recs.flatten, mask)

/-- A stack after the fill of a self-test: its controller at its reset values but for training, its remap entries and what is
known of its cells. -/
def StackState.afterBist (x : StackState) : StackState :=
  if x.lost then x
  else StackState.fill { trained := true, refresh := x.refresh, refreshNext := x.refreshNext, thrStack := x.thrStack, thrDie := x.thrDie,
                         thrPower := x.thrPower, remap := x.remap, spentSpares := x.spentSpares, ondie := x.ondie, hard := x.hard,
                         badRows := x.badRows, retrain := x.retrain }

/-- Step 5: the fill, and steps 8, 11 and 12 of R468 without a whole reset. The tested dies lose what they held; settings come from
the saved configuration. -/
def State.bistRestore (s : State) : State :=
  let kept (n : Nat) : Bool := !s.bistTests n
  let s : State := { s with
    cores := s.cores.filter (fun e => kept (e.1 / 168)), clusters := s.clusters.filter (fun e => kept (e.1 / 21))
    xlate := s.xlate.filter (fun e => decide (e.1 < 12) && kept e.1)
    hubDma := [], netIf := [], routers := [], posts := [], winnow := [], sieve := [], bag := {}, acc := {}, windows := []
    hbm := (List.range 12).map (fun k => (k, (s.stack k).afterBist))
    dev := { s.dev with layout := 1, priority := true, spreadS := 0, shares := [] } }
  let s := ((s.applySec 1 State.applyFabric).readyTables).physAll false
  let s := s.liveCores.foldl (fun s g => s.setCore g (s.core g).release) s
  (State.divide { s with pwr := { s.pwr with measuring := true } })

/-- BIST_RUN_COMPLETE: steps 4–6 with what the run found: MISR values and failing macros (count and first) by die, and failing
array columns. -/
def State.bistComplete (s : State) (sigs : Tbl Nat) (fails : Tbl (Nat × Nat)) (cols : List (Nat × Nat)) : State :=
  match s.works.find? (fun w => match w.kind with | .bist _ => true | _ => false) with
  | none => s
  | some w =>
    let scope := match w.kind with | .bist n => n | _ => 0
    let new := if nbit scope 1 then s.newColumns cols else []
    let (res, mask) := s.bistOutcome scope sigs fails new
    let s := s.bistRestore
    let s : State := { s with
      sec := { s.sec with bistResult := res }
      dev := { s.dev with bist := false, newCols := new.foldl (fun t c => tset t c.1 (sins c.2 (tget [] t c.1))) s.dev.newCols }
      works := s.works.filter (fun x => match x.kind with | .bist _ => false | _ => true) }
    let s := if new = [] then s else s.trigSettings 2
    let s := new.foldl (fun s c => s.logAt 0x0206 (uid 0x05 c.1) 0 (le 2 c.1 ++ [BitVec.ofNat 8 c.2])) s
    let s := s.bumpGen
    let s := s.post { mkMsg 0x0702 0 0 (BitVec.ofNat 8 (rdb res 9) :: le 2 mask) with sev := if mask = 0 then 0 else 2 }
    s.workDone { w with mute := w.mute && (s.fn w.p w.f).tray.isNone } stDone (zeros 8 ++ [BitVec.ofNat 8 (rdb res 9)])

/-- BIST_RUN_COMPLETE (R495–R497). -/
def execBistRunComplete (sigs : Tbl Nat) (fails : Tbl (Nat × Nat)) (cols : List (Nat × Nat)) (s : State) : Out :=
  .next (s.bistComplete sigs fails cols)

end Sys2Proof.Machine
end

