-- ==== Sys2Proof/Machine/Secure.lean ====
section
/-! DEFINITION. Signatures completing, DEBUG_UNLOCK, firmware updates, the DRBG, model envelopes and prompt records (R359, R371, R376,
R377, R410, R413–R420, R423–R427, R465–R467, R487). -/
namespace Sys2Proof.Machine

/-! ## DEBUG_UNLOCK (R371, R424–R426) -/

/-- May the contexts of every partition be scrubbed now. -/
def State.mayDestroyAll (s : State) : Bool :=
  (List.range 4).all (fun p => match s.currentOf p with
    | some c => s.mayScrub p c
    | none => true) && (List.range 12).all (fun k => !(s.stack k).gBusy)

/-- A verified unlock goes on once no signature is in progress and the scrubs can run (R426). -/
def State.tryUnlock (s : State) : State :=
  match s.sec.unlock with
  | some src =>
    if s.sec.sig.isSome ∨ ¬ s.mayDestroyAll then s
    else
      let s := s.enterVendor.done src []
      let s : State := { s with sec := { s.sec with unlock := none } }
      State.sigNext (s.sec.sigQ.length + 1) s
  | none => s

/-- The boot-control record after FW_ACTIVATE; the whole reset is due (R467). -/
def State.activateNow (s : State) (src : LSrc) : State :=
  ({ s with
    flash := { s.flash with active := 1 - s.flash.active, trial := true, tries := 0, staged := 0 }
    board := { s.board with resetDue := true }
    sec := { s.sec with activate := none } } : State).done src []

/-- What waited for the signature that has just ended: an activation, an unlock, the next signature. -/
def State.afterSig (s : State) : State :=
  match s.sec.activate with
  | some src => s.activateNow src
  | none => if s.sec.unlock.isSome then s.tryUnlock else State.sigNext (s.sec.sigQ.length + 1) s

/-- SIGNATURE_COMPLETE: the letter is answered and the next signature starts (R423). -/
def execSignatureComplete (s : State) : Out :=
  .next <|
    match s.sec.sig with
    | some j => (({ s with sec := { s.sec with sig := none } } : State).sigAnswer j).afterSig
    | none => s

/-- The debug state a TARGET names. -/
def debugTarget (n : Nat) : DebugState := if n = 1 then .operator else if n = 2 then .vendor else .locked

/-- Is the token that a DEBUG_UNLOCK points at good: of 16,288 bytes, in a bounce buffer of the function as a whole, and valid. -/
def State.unlockGood (s : State) (src : LSrc) (b token : Bytes) : Bool :=
  match src with
  | .host p f _ => decide (rd b 48 4 = 16288) && s.inBuf p f 0 (rd b 40 8) 16288 && s.tokenGood (slice token 0 16288)
  | .mgmt _ => false

/-- DEBUG_UNLOCK. In VENDOR_DEBUG every target is NOT_PERMITTED, its own too (DEDUCED from R424, log 77). -/
def semUnlock (token : Bytes) : Sem where
  range := fun _ _ b => firstBad [(decide (rdb b 32 > 2), 32)]
  own := fun s src b =>
    if s.sec.debugFuse ∨ s.sec.debug = .vendor then some (stNotPermitted, 0)
    else if rdb b 32 = 2 ∧ ¬ s.unlockGood src b token then some (stBadSignature, 0)
    else none
  go := fun s src b =>
    let t := debugTarget (rdb b 32)
    if t = s.sec.debug then s.done src []
    else if t = .vendor then (State.busyLetter { s with sec := { s.sec with unlock := some src } } src).tryUnlock
    else (({ s with sec := { s.sec with debug := t } } : State).bumpGen).done src []

/-- DEBUG_UNLOCK: the token is what the device reads at TOKEN_BUS; an event on a letter whose unlock waits goes on with it (R426). -/
def execDebugUnlock (src : LSrc) (token : Bytes) (s : State) : Out :=
  atSrc src (if s.sec.unlock = some src then s.tryUnlock else s.runLetter 0x0702 (semUnlock token) src)

/-! ## Firmware updates (R371, R465–R467) -/

/-- Does a staging run. -/
def State.staging (s : State) : Bool := s.works.any (fun w => w.kind == .fwStage)

/-- The source range of a letter lies in a bounce buffer of the function as a whole. -/
def State.srcOk (s : State) (src : LSrc) (b : Bytes) : Bool :=
  match src with
  | .host p f _ => decide (rd b 40 8 ≠ 0) && s.inBuf p f 0 (rd b 32 8) (rd b 40 8)
  | .mgmt _ => false

/-- Lasting work for a letter. -/
def workOf (src : LSrc) (b : Bytes) (kind : WorkKind) : Work :=
  match src with
  | .host p f _ => { kind := kind, p := p, f := f, letter := b }
  | .mgmt _ => { kind := kind, letter := b, mute := true }

/-- FW_STAGE. -/
def semFwStage : Sem where
  range := fun s src b => firstBad [(!s.srcOk src b, 32)]
  own := fun s _ _ => if s.isStaged ∨ s.staging ∨ s.board.resetDue then some (stBusy, 0) else none
  go := fun s src b => ({ s with works := s.works ++ [workOf src b .fwStage] } : State).answer src stAccepted [] []

/-- FW_STAGE (R371). -/
def execFwStage (src : LSrc) (s : State) : Out := atSrc src (s.runLetter 0x0801 semFwStage src)

/-- FW_STAGE_COMPLETE: the image read is verified; a good one stands in the inactive slot and counts as staged. A part whose digest
fails is BAD_SIGNATURE (DEDUCED from R371 and R466). -/
def execFwStageComplete (img : FwImage) (s : State) : Out :=
  .next <|
    match s.works.find? (fun w => w.kind == .fwStage) with
    | none => s
    | some w =>
      let s : State := { s with works := s.works.filter (fun w => w.kind != .fwStage) }
      match rejects s.flash.fusedSv (some img) with
      | some (_, r) => s.workDone w (if r = 2 then stRollback else stBadSignature) []
      | none =>
        let n := 1 - s.flash.active
        let s : State := { s with flash := { s.flash with slots := tset s.flash.slots n img, staged := s.flash.staged ||| BitVec.ofNat 8 (2 ^ n) } }
        s.bumpGen.workDone w stDone []

/-- FW_ACTIVATE: it waits for the signature in progress; its whole reset follows by WHOLE_RESET. -/
def semFwActivate : Sem where
  own := fun s _ _ => if s.ctxs ≠ [] ∨ ¬ s.isStaged then some (stBusy, 0) else none
  go := fun s src _ =>
    if s.sec.sig.isSome then State.busyLetter { s with sec := { s.sec with activate := some src } } src else s.activateNow src

/-- FW_ACTIVATE (R371). -/
def execFwActivate (src : LSrc) (s : State) : Out := atSrc src (s.runLetter 0x0802 semFwActivate src)

/-! ## The DRBG (R410) -/

/-- DRBG_RESEED. -/
def execDrbgReseed (s : State) : Out :=
  .next (if s.sec.drbgStop then s else { s with sec := { s.sec with reseeded := s.time, generates := 0 } })

/-- ENTROPY_HEALTH_FAIL: the DRBG stops and the source is restarted. -/
def execEntropyHealthFail (s : State) : Out := .next { s with sec := { s.sec with drbgStop := true, restartAt := s.time } }

/-- ENTROPY_RESTART_TIMEOUT: the failure is logged, which goes as an EVENT; the spec gives the test no number (a free value). -/
def execEntropyRestartTimeout (s : State) : Out :=
  .next <|
    if s.sec.drbgStop then
      let (d, s) := s.freeBytes 1
      s.logAt 0x0605 uidRtp 0 d
    else s

/-- ENTROPY_TESTS_PASS: the DRBG resumes. -/
def execEntropyTestsPass (s : State) : Out := .next { s with sec := { s.sec with drbgStop := false } }

/-! ## Model envelopes (R359, R417–R420) -/

/-- Bytes of a signature by OWNER_SET. -/
def sigBytes (n : Nat) : Nat :=
  match n with
  | 1 => 7856
  | 2 => 17088
  | 3 => 16224
  | 4 => 35664
  | 5 => 29792
  | 6 => 49856
  | _ => 0

/-- Bytes of a public key by OWNER_SET. -/
def pkBytes (n : Nat) : Nat := if n ≤ 2 then 32 else if n ≤ 4 then 48 else 64

/-- Offset of the digest table. -/
def envDigests (e : Bytes) : Nat := 128 + rdb e 7 * 1664
/-- Bytes of the signed part. -/
def envSigned (e : Bytes) : Nat := envDigests e + (rd e 16 4 + 1) * 32
/-- Offset of the sealed manifest. -/
def envManifest (e : Bytes) : Nat := envSigned e + sigBytes (rdb e 6)
/-- Plaintext bytes of chunk i. -/
def envChunkLen (e : Bytes) (i : Nat) : Nat := min (2 ^ rdb e 8) (rd e 24 8 - i * 2 ^ rdb e 8)
/-- Offset of sealed chunk i. -/
def envChunk (e : Bytes) (i : Nat) : Nat := envManifest e + rd e 20 4 + 16 + i * (2 ^ rdb e 8 + 16)
/-- Digest j of the digest table. -/
def envDigest (e : Bytes) (j : Nat) : Bytes := slice e (envDigests e + 32 * j) 32
/-- The owner's public key without its padding. -/
def envPk (e : Bytes) : Bytes := slice e 64 (pkBytes (rdb e 6))

/-- The header's check: BAD_PARAM where it is malformed, NO_RESOURCE where a size passes its limit (R418, R420; which is which DEDUCED,
log 76). -/
def envHeader (e : Bytes) (len : Nat) : Option Nat :=
  let c := rd e 16 4
  let w := rd e 24 8
  let k := 2 ^ rdb e 8
  if e.length < 128 ∨ rd e 0 4 ≠ 0x45564C5A ∨ rd e 4 2 ≠ 1 ∨ rdb e 6 < 1 ∨ rdb e 6 > 6 ∨ rdb e 7 = 0 ∨ rdb e 8 < 20 ∨ rdb e 8 > 26
      ∨ rd e 9 7 ≠ 0 ∨ rd e 32 32 ≠ 0 ∨ c = 0 ∨ rd e 20 4 < 256 ∨ w ≤ (c - 1) * k ∨ c * k < w
      ∨ (slice e 64 64).drop (pkBytes (rdb e 6)) ≠ zeros (64 - pkBytes (rdb e 6)) then some stBadParam
  else if c > 2 ^ 20 ∨ rd e 20 4 > 2 ^ 30 - 16 then some stNoResource
  else if envChunk e (c - 1) + envChunkLen e (c - 1) + 16 > len then some stBadParam
  else none

/-- Nonce of an index (R417). -/
def envNonce (j : Nat) : Bytes := le 8 j ++ zeros 4

/-- The content key of an envelope for a device with this binding seed: NOT_BOUND or BAD_SEAL (R417, R420 steps 3 and 4). -/
def envCek (bind e : Bytes) : Nat ⊕ Bytes :=
  let ek := kemEk (bind.take 32) (bind.drop 32)
  let header := slice e 0 128
  match (List.range (rdb e 7)).find? (fun i => slice e (128 + 1664 * i) 32 == sha ek && bind != []) with
  | none => .inl stNotBound
  | some i =>
    let r := 128 + 1664 * i
    let kek := expand (extract (sha header) (kemDecaps (kemDk (bind.take 32) (bind.drop 32)) (slice e (r + 32) 1568))) (ascii "ZLV-H12 envelope v1") 32
    match gcmOpen kek (zeros 12) header (slice e (r + 1600) 48) with
    | some cek => .inr cek
    | none => .inl stBadSeal

/-- Sealed bytes of an envelope whose digest and tag both hold. -/
def envOpen (cek e : Bytes) (off len digest nonce : Nat) : Option Bytes :=
  let ct := slice e off (len + 16)
  if sha ct = envDigest e digest then gcmOpen cek (envNonce nonce) (slice e 0 128) ct else none

/-- Write plaintext into device memory in whole sectors, the last padded with zero. -/
def State.placeBytes (s : State) (p phys : Nat) (pt : Bytes) : State :=
  let f := ((List.range 4).find? (fun f => s.partOfDie f == p)).getD 0
  (List.range ((pt.length + 31) / 32)).foldl (fun s i =>
    (s.devWrite { unit := uid 0x08 (f * 8), asid := 0, cls := p } (phys + 32 * i) (mark false (slice pt (32 * i) 32)) hintStream).2) s

/-- Stream the chunks from i on into their places; whether every one was good. -/
def State.loadChunks (p : Nat) (cek e : Bytes) : Nat → List Nat → State → Bool × State
  | _, [], s => (true, s)
  | i, phys :: l, s =>
    match envOpen cek e (envChunk e i) (envChunkLen e i) (i + 1) i with
    | some pt => State.loadChunks p cek e (i + 1) l (s.placeBytes p phys pt)
    | none => (false, s)

/-- The checks and the load of R420 for a model: the final status. -/
def State.loadModel (s : State) (id : Nat) (letter e : Bytes) : Nat × State :=
  let p := (s.model id).part
  let signed := slice e 0 (envSigned e)
  match envHeader e (rd letter 40 8) with
  | some st => (st, s)
  | none =>
    let expect := slice letter 56 32
    if ¬ Config.slhVerify (rdb e 6) (envPk e) signed (slice e (envSigned e) (sigBytes (rdb e 6)))
        ∨ (expect ≠ zeros 32 ∧ expect ≠ sha (envPk e)) then (stBadSignature, s)
    else
      match envCek s.sec.bind e with
      | .inl st => (st, s)
      | .inr cek =>
        match envOpen cek e (envManifest e) (rd e 20 4) 0 (2 ^ 64 - 1) with
        | none => (stBadSeal, s)
        | some man =>
          if Config.maxTokenText man > 1012 then (stBadParam, s)
          else
            let g := 2 ^ rdb e 8
            match s.findRoom p 12 g (rd e 16 4) with
            | none => (stNoResource, s)
            | some places =>
              match State.loadChunks p cek e 0 places s with
              | (true, s) =>
                let allocs : List Alloc := places.map (fun x => { model := id, region := 12, phys := x, len := g })
                let m : ModelState := { part := p, loaded := true, weights := rd e 24 8, owner := sha (envPk e), digest := sha signed, manifest := man }
                (stDone, (s.setServe { s.serve with allocs := s.serve.allocs ++ allocs, models := tset s.serve.models id m }).bumpGen)
              | (false, s) => (stBadSeal, places.foldl (fun s x => s.zeroDev p x g) s)

/-- MODEL_LOAD: the device assigns MODEL and answers ACCEPTED. -/
def semModelLoad : Sem where
  range := fun s src b => firstBad [(!s.srcOk src b, 32), (decide (rdb b 48 ≥ s.dev.layout), 48)]
  own := fun s _ _ => if s.serve.models.length ≥ 16 then some (stNoResource, 0) else none
  go := fun s src b =>
    let id := s.serve.nextModel
    let s := s.setServe { s.serve with models := tset s.serve.models id { part := rdb b 48 }, nextModel := id + 1 }
    ({ s with works := s.works ++ [workOf src b (.modelLoad id)] } : State).answer src stAccepted (le 4 id) []

/-- MODEL_LOAD (R359). -/
def execModelLoad (src : LSrc) (s : State) : Out := atSrc src (s.runLetter 0x0301 semModelLoad src)

/-- MODEL_LOAD_COMPLETE: the envelope that the device has read is checked and loaded; after a failure the ID is free again (R420). -/
def execModelLoadComplete (model : Nat) (envelope : Bytes) (s : State) : Out :=
  .next <|
    match s.works.find? (fun w => w.kind == .modelLoad model) with
    | none => s
    | some w =>
      let s : State := { s with works := s.works.filter (fun w => w.kind != .modelLoad model) }
      let (st, s) := s.loadModel model w.letter envelope
      if st = stDone then
        s.workDone w st (le 4 model ++ zeros 4 ++ le 8 (s.model model).weights ++ le 8 s.dev.generation)
      else (s.setServe { s.serve with models := tdel s.serve.models model }).workDone w st []

/-- MODEL_UNLOAD: BUSY while a context serves the model, or while its load runs (DEDUCED, log 76). -/
def semModelUnload : Sem where
  miss := fun s _ b => if (tfind s.serve.models (rd b 32 4)).isNone then some 32 else none
  own := fun s _ b => if s.ctxs.any (fun c => c.2.model == rd b 32 4) ∨ ¬ (s.model (rd b 32 4)).loaded then some (stBusy, 0) else none
  go := fun s src b =>
    let id := rd b 32 4
    let s := s.release (s.model id).part (fun a => a.model == id)
    ((s.setServe { s.serve with models := tdel s.serve.models id }).bumpGen).done src []

/-- MODEL_UNLOAD (R359). -/
def execModelUnload (src : LSrc) (s : State) : Out := atSrc src (s.runLetter 0x0302 semModelUnload src)

/-! ## Prompt records (R376, R377, R414, R415, R487) -/

/-- Is SEQ acceptable for a prompt record of a session (R414). -/
def SessState.seqOk (q : SessState) (seq : Nat) : Bool :=
  seq != 2 ^ 64 - 1 && !q.win.contains seq && (match q.high with
    | some h => decide (seq + 64 > h)
    | none => true)

/-- The window after a record is accepted. -/
def SessState.accept (q : SessState) (seq : Nat) : SessState :=
  let h := match q.high with
    | some h => max h seq
    | none => seq
  { q with high := some h, win := (seq :: q.win).filter (fun x => decide (x + 64 > h)) }

/-- Is an FP32 word between two values. -/
def f32In (w lo hi : Nat) : Bool :=
  ((ofF32 w).cmp (ofF32 lo) == some 1 || (ofF32 w).cmp (ofF32 lo) == some 0) && ((ofF32 hi).cmp (ofF32 w) == some 1 || (ofF32 hi).cmp (ofF32 w) == some 0)

/-- Is a byte string valid UTF-8. -/
def utf8 : Nat → Bytes → Bool
  | 0, b => b == []
  | _, [] => true
  | n + 1, b :: bs =>
    let x := b.toNat
    let cont (i : Nat) : Bool := rdb bs i / 64 == 2 && decide (i < bs.length)
    if x < 0x80 then utf8 n bs
    else if 0xC2 ≤ x ∧ x ≤ 0xDF then cont 0 && utf8 n (bs.drop 1)
    else if 0xE0 ≤ x ∧ x ≤ 0xEF then
      cont 0 && cont 1 && (x != 0xE0 || decide (rdb bs 0 ≥ 0xA0)) && (x != 0xED || decide (rdb bs 0 < 0xA0)) && utf8 n (bs.drop 2)
    else if 0xF0 ≤ x ∧ x ≤ 0xF4 then
      cont 0 && cont 1 && cont 2 && (x != 0xF0 || decide (rdb bs 0 ≥ 0x90)) && (x != 0xF4 || decide (rdb bs 0 < 0x90)) && utf8 n (bs.drop 3)
    else false

/-- Does the plaintext of a prompt record keep R376. -/
def promptGood (vocab : Nat) (b : Bytes) : Bool :=
  decide (224 ≤ b.length) && rd b 0 2 == 1 && decide (rdb b 2 ≤ 1) && decide (1 ≤ rdb b 3 ∧ rdb b 3 ≤ 3)
    && f32In (rd b 4 4) 0 0x41800000 && f32In (rd b 8 4) 0 0x3F800000 && decide (rd b 12 4 ≤ vocab) && f32In (rd b 16 4) 0 0x3F800000
    && f32In (rd b 20 4) 0x3F800000 0x40800000 && decide (rdb b 32 ≤ 8) && decide (rdb b 33 ≤ 4) && rd b 34 2 == 0 && rd b 40 24 == 0
    && decide (rd b 36 4 + 224 = b.length) && (rdb b 2 == 0 || rd b 36 4 % 4 == 0)
    && (List.range (min 4 (rdb b 33))).all (fun i => decide (1 ≤ rdb b (96 + 32 * i) ∧ rdb b (96 + 32 * i) ≤ 31)
        && utf8 32 (slice b (97 + 32 * i) (rdb b (96 + 32 * i))))

/-- The tokens of a prompt, or none where R377 ends the request. -/
def State.promptTokens (s : State) (c : Nat) (b : Bytes) : Option (List Nat) :=
  let man := s.manifest c
  let inp := b.drop 224
  if !promptGood (pfVocab man) b then none
  else
    let toks : Option (List Nat) :=
      if rdb b 2 = 0 then (if utf8 (inp.length + 1) inp then some (Config.tokenise man inp) else none)
      else
        let l := (List.range (inp.length / 4)).map (fun i => rd inp (4 * i) 4)
        if l.all (fun t => decide (t < pfVocab man)) then some l else none
    toks.bind (fun l => if l.length > (s.ctx c).maxTokens then none else some l)

/-- PROMPT_UNSEAL: the record that the device has pulled, empty where the read returned poison twice (R487). A session without keys
opens nothing: BAD_SEAL (DEDUCED, log 77). -/
def State.promptUnseal (s : State) (id : Nat) (record : Bytes) : State :=
  match s.req id with
  | none => s
  | some r =>
    if r.phase ≠ .pulling then s
    else if record = [] then s.endReq id stAborted
    else
      let q := s.sess r.sess
      match (if q.okm = [] then none else openRec 1 r.sess (kC2D q.okm) (ivC2D q.okm) (slice record 0 r.promptLen)) with
      | none => s.endReq id stBadSeal
      | some (seq, _, pt) =>
        if !q.seqOk seq then s.endReq id stBadSeal
        else
          let s := s.setSess r.sess (q.accept seq)
          match s.promptTokens r.ctx pt with
          | none => s.endReq id stAborted
          | some toks => s.putReq id { r with phase := .waiting, head := pt.take 224, prompt := toks }

/-- PROMPT_UNSEAL (R415). -/
def execPromptUnseal (req : Nat) (record : Bytes) (s : State) : Out := .next (s.promptUnseal req record)

end Sys2Proof.Machine
end

