-- ==== Sys2Proof/Machine/Vector.lean ====
section
/-! DEFINITION. The commands of the vector unit (R104–R108). -/
namespace Sys2Proof.Machine

/-- Fields of a vector command word (R104). -/
structure VecF where
  srcA : Nat
  srcB : Nat
  dst : Nat
  count : Nat
  afmt : Nat
  ofmt : Nat
  scalar : Nat
  sat : Bool
  deriving DecidableEq, Repr

/-- Decode a vector word. -/
def vecF (w : CW) : VecF :=
  { srcA := bf w 127 104, srcB := bf w 103 80, dst := bf w 79 56, count := bf w 55 40, afmt := bf w 39 35,
    ofmt := bf w 34 30, scalar := bf w 29 28, sat := w.getLsbD 27 }

/-- Is an OP one of R105. -/
def isVecOp (op : Nat) : Bool := 0x80 ≤ op && op ≤ 0x92

/-- Does an OP take an operand B. -/
def vecBinary (op : Nat) : Bool := op ≤ 0x85

/-- Formats AFMT may take (R105). -/
def isVecFmt (f : Nat) : Bool := f == 7 || f == 4 || f == 5 || f == 0 || f == 1 || f == 2 || f == 0xE

/-- Integer formats of the vector unit. -/
def isVecInt (f : Nat) : Bool := f == 2 || f == 0xE

/-- Bytes of the result. -/
def vecOutBytes (op : Nat) (f : VecF) : Nat :=
  if op = 0x8F then 4 else if op = 0x90 then 8 else if op = 0x92 then eltBytes f.ofmt f.count else f.count * (fmtBits f.ofmt / 8)

/-- Is a range within vector memory and its start aligned. -/
def vmOk (a n : Nat) : Bool := a % 32 == 0 && decide (clVm ≤ a ∧ a + n ≤ clVmEnd)

/-- The code a vector word breaks (R104, R105, R107, R108); 0 for none. -/
def vecCheck (w : CW) : Nat :=
  let op := cwOp w
  let common := if bf w 19 18 != 0 then [2] else []
  if !isVecOp op then 1
  else if op = 0x91 then
    firstCode (common ++ (if bf w 95 30 != 0 || bf w 27 20 != 0 then [2] else []) ++ (if bf w 29 28 = 0 then [4] else []))
  else
    let f := vecF w
    let useB := (vecBinary op && f.scalar == 0) || op == 0x92
    let fmtBad :=
      if op = 0x92 then !(f.afmt == 7 || f.afmt == 4) || !isMx f.ofmt
      else !isVecFmt f.afmt || !isVecFmt f.ofmt
        || (if op = 0x86 then false
            else if vecBinary op && op != 0x83 then isVecInt f.afmt != isVecInt f.ofmt
            else isVecInt f.afmt || isVecInt f.ofmt)
    let an := f.count * (fmtBits f.afmt / 8)
    firstCode (common
      ++ (if bf w 26 20 != 0 || (!useB && f.srcB != 0) then [2] else [])
      ++ (if fmtBad then [5] else [])
      ++ (if f.count = 0 ∨ (op = 0x92 ∧ f.count % 32 ≠ 0) then [4] else [])
      ++ (if !vmOk f.srcA an || !vmOk f.dst (vecOutBytes op f)
            || (useB && !vmOk f.srcB (if op = 0x92 then f.count / 32 else an)) then [3] else []))

/-- Codes of the elements of an operand. -/
def vecElts (c : CoreState) (a fmt n : Nat) : List Nat :=
  let b := fmtBits fmt / 8
  let bs := c.rdm a (n * b)
  (List.range n).map (fun i => rd bs (i * b) b)

/-- Larger or smaller of two values; NaN if either is NaN; of two zeros IEEE 754-2019 maximum takes +0, minimum −0. -/
def flPick (mx : Bool) (x y : Fl) : Fl :=
  match Fl.cmp x y with
  | none => .nan
  | some 0 => match x, y with
    | .fin a m e, .fin b _ _ => if m = 0 then .fin (if mx then a && b else a || b) 0 0 else .fin a m e
    | x, _ => x
  | some i => if (i > 0) = mx then x else y

/-- One floating-point result in FP32 (R105, R106). -/
def vecFloat (op : Nat) (a b d : Fl) (dev : Nat) : Nat :=
  match op with
  | 0x80 => f32 (Fl.add a b)
  | 0x81 => f32 (Fl.add a b.neg)
  | 0x82 => f32 (Fl.mul a b)
  | 0x83 => f32 (Fl.add (Fl.mul a b) d)
  | 0x84 => f32 (flPick true a b)
  | 0x85 => f32 (flPick false a b)
  | 0x86 => f32 a
  | _ => specialFn op a dev

/-- One integer result before saturation. -/
def vecInt (op : Nat) (a b : Int) : Int :=
  match op with
  | 0x80 => a + b
  | 0x81 => a - b
  | 0x82 => a * b
  | 0x84 => max a b
  | 0x85 => min a b
  | _ => a

/-- Result code of one element in OFMT, and whether a floating-point result is NaN. `free` stands for a NaN converted to
an integer, which the spec leaves open. -/
def vecElt (op : Nat) (f : VecF) (a b d dev free : Nat) : Nat × Bool :=
  let w := fmtBits f.ofmt
  let iv (x : Nat) : Int := sx (fmtBits f.afmt) x
  let bi : Int := if f.scalar = 0 then iv b else sx 32 b
  let bfl : Fl := if f.scalar = 0 then eltVal f.afmt b else ofF32 b
  if isVecInt f.ofmt then
    if isVecInt f.afmt then (wrapI w (satI w (vecInt op (iv a) bi)), false)
    else
      match eltVal f.afmt a with
      | .nan => (free % 2 ^ w, false)
      | .inf neg => (wrapI w (if neg then -(2 ^ (w - 1)) else 2 ^ (w - 1) - 1), false)
      | x => (wrapI w (satI w (flInt x)), false)
  else
    let av := if isVecInt f.afmt then intFl (iv a) else eltVal f.afmt a
    let r := vecFloat op av bfl (eltVal f.ofmt d) dev
    (toFmt f.ofmt f.sat (ofF32 r), (ofF32 r).isNan)

/-- FP32 sum of two FP32 codes. -/
def addF32 (a b : Nat) : Nat := f32 (Fl.add (ofF32 a) (ofF32 b))

/-- The five-level tree over 32 lanes (R106): neighbours are added, level by level. -/
def laneTree : Nat → List Nat → List Nat
  | 0, l => l
  | n + 1, l => laneTree n ((List.range (l.length / 2)).map (fun i => addF32 (l.getD (2 * i) 0) (l.getD (2 * i + 1) 0)))

/-- VSUM: lane j sums elements j, j + 32, … in order, then the tree combines the lanes (R106; log 23). -/
def vecSum (xs : List Nat) : Nat :=
  let lanes := (List.range 32).map (fun j =>
    (xs.zipIdx.filter (fun p => p.2 % 32 == j)).foldl (fun s p => addF32 s p.1) 0)
  (laneTree 5 lanes).getD 0 0

/-- Maximum and index of its first occurrence; none when an element is NaN. -/
def vecRmax (xs : List Fl) : Option (Fl × Nat) :=
  if xs.any Fl.isNan then none
  else xs.zipIdx.foldl (fun acc p => match acc with
    | none => some p
    | some (m, i) => if Fl.cmp p.1 m = some 1 then some p else some (m, i)) none

/-- Do two byte ranges overlap without being the same start. -/
def badOverlap (a n b m : Nat) : Bool := decide (a ≠ b ∧ a < b + m ∧ b < a + n)

/-- The vector unit records a command error (R108). -/
def CoreState.vecErr (c : CoreState) (code : Nat) (w : CW) : CoreState :=
  ({ c with vec := { c.vec with err := true, errCode := BitVec.ofNat 8 code, errCmd := w, queue := [] } } : CoreState).irq 20

/-- Does a word read a poisoned unit. -/
def vecPz (c : CoreState) (op : Nat) (f : VecF) : Bool :=
  let an := f.count * (fmtBits f.afmt / 8)
  c.pzAny f.srcA an || (vecBinary op && f.scalar == 0 && c.pzAny f.srcB an)
    || (op == 0x83 && c.pzAny f.dst (vecOutBytes op f))

/-- The result bytes of a vector word at DST, the bytes at SRC_B for VMXQ, and whether a result became NaN. -/
def vecResult (c : CoreState) (fr : Nat) (w : CW) : Bytes × Bytes × Bool :=
  let op := cwOp w
  let f := vecF w
  let as := vecElts c f.srcA f.afmt f.count
  let fl (x : Nat) : Fl := if isVecInt f.afmt then intFl (sx (fmtBits f.afmt) x) else eltVal f.afmt x
  if op = 0x8F then
    let r := vecSum (as.map (fun x => f32 (fl x)))
    (le 4 r, [], (ofF32 r).isNan)
  else if op = 0x90 then
    match vecRmax (as.map fl) with
    | some (m, i) => (le 4 (f32 m) ++ le 4 i, [], false)
    | none => (le 4 (f32 .nan) ++ le 4 (Config.ulpDev fr 0 % f.count), [], true)
  else if op = 0x92 then
    let bl := (List.range (f.count / 32)).map (fun b => mxBlock f.ofmt (((as.drop (32 * b)).take 32).map fl))
    (packElts f.ofmt (bl.flatMap (·.2)), bl.map (fun b => BitVec.ofNat 8 b.1), false)
  else
    let sc := (tget 0 c.vec.sc f.scalar).toNat
    let bs := if vecBinary op && f.scalar == 0 then vecElts c f.srcB f.afmt f.count else []
    let ds := if op = 0x83 then vecElts c f.dst f.ofmt f.count else []
    let rs := as.zipIdx.map (fun p =>
      vecElt op f p.1 (if f.scalar = 0 then bs.getD p.2 0 else sc) (ds.getD p.2 0) (Config.ulpDev fr p.2) (Config.ulpDev fr p.2))
    (rs.flatMap (fun r => le (fmtBits f.ofmt / 8) r.1), [], rs.any (·.2))

/-- Execute a checked word: operands are read before the result is written; an operand that overlaps the result other
than at its start gives a free result (R108; log 6). -/
def State.vecExec (s : State) (g : Nat) (w : CW) : State :=
  let c := s.core g
  let op := cwOp w
  let f := vecF w
  let setRun (c : CoreState) : CoreState := { c with vec := { c.vec with run := some w, held := false, queue := c.vec.queue.drop 1 } }
  if op = 0x91 then
    s.setCore g (setRun { c with vec := { c.vec with sc := tset c.vec.sc (bf w 29 28) (BitVec.ofNat 32 (bf w 127 96)) } })
  else if vecPz c op f then
    (s.setCore g (c.vecErr 0x0B w)).logPoison (uid 0x06 g) 3 0x0B f.srcA
  else
    let (out, scales, nan) := vecResult c s.fresh w
    let s := { s with fresh := s.fresh + 1 }
    let an := f.count * (fmtBits f.afmt / 8)
    let clash := badOverlap f.srcA an f.dst out.length
      || (vecBinary op && f.scalar == 0 && badOverlap f.srcB an f.dst out.length)
      || (op == 0x92 && (decide (f.srcB < f.dst + out.length ∧ f.dst < f.srcB + scales.length)
            || decide (f.srcB < f.srcA + an ∧ f.srcA < f.srcB + scales.length)))
    let (out, s) := if clash then s.freeBytes out.length else (out, s)
    let c := (c.wrm f.dst out)
    let c := if op = 0x92 then c.wrm f.srcB scales else c
    s.setCore g (setRun { c with vec := { c.vec with nanSeen := c.vec.nanSeen || nan } })

/-- The word at the head of the vector queue starts when the unit is free: a broken rule is a vector command error, a
word of this row's OP executes (R105, R108). -/
def State.vecRow (s : State) (g op : Nat) : State :=
  let c := s.core g
  match c.vec.queue with
  | [] => s
  | w :: _ =>
    if c.vec.err || c.vec.run.isSome then s
    else if !isVecOp (cwOp w) then s.setCore g (c.vecErr 1 w)
    else if cwOp w ≠ op then s
    else
      let code := vecCheck w
      if code ≠ 0 then s.setCore g (c.vecErr code w) else s.vecExec g w

/-- VADD (R105). -/
def execVadd (g : Nat) (s : State) : Out := atUnit "core" g 2016 (s.vecRow g 0x80)
/-- VSUB (R105). -/
def execVsub (g : Nat) (s : State) : Out := atUnit "core" g 2016 (s.vecRow g 0x81)
/-- VMUL (R105). -/
def execVmul (g : Nat) (s : State) : Out := atUnit "core" g 2016 (s.vecRow g 0x82)
/-- VFMA (R105). -/
def execVfma (g : Nat) (s : State) : Out := atUnit "core" g 2016 (s.vecRow g 0x83)
/-- VMAX (R105). -/
def execVmax (g : Nat) (s : State) : Out := atUnit "core" g 2016 (s.vecRow g 0x84)
/-- VMIN (R105). -/
def execVmin (g : Nat) (s : State) : Out := atUnit "core" g 2016 (s.vecRow g 0x85)
/-- VCVT (R105). -/
def execVcvt (g : Nat) (s : State) : Out := atUnit "core" g 2016 (s.vecRow g 0x86)
/-- VEXP (R106). -/
def execVexp (g : Nat) (s : State) : Out := atUnit "core" g 2016 (s.vecRow g 0x87)
/-- VLOG (R106). -/
def execVlog (g : Nat) (s : State) : Out := atUnit "core" g 2016 (s.vecRow g 0x88)
/-- VRCP (R106). -/
def execVrcp (g : Nat) (s : State) : Out := atUnit "core" g 2016 (s.vecRow g 0x89)
/-- VRSQRT (R106). -/
def execVrsqrt (g : Nat) (s : State) : Out := atUnit "core" g 2016 (s.vecRow g 0x8A)
/-- VTANH (R106). -/
def execVtanh (g : Nat) (s : State) : Out := atUnit "core" g 2016 (s.vecRow g 0x8B)
/-- VSIGMOID (R106). -/
def execVsigmoid (g : Nat) (s : State) : Out := atUnit "core" g 2016 (s.vecRow g 0x8C)
/-- VGELU (R106). -/
def execVgelu (g : Nat) (s : State) : Out := atUnit "core" g 2016 (s.vecRow g 0x8D)
/-- VSILU (R106). -/
def execVsilu (g : Nat) (s : State) : Out := atUnit "core" g 2016 (s.vecRow g 0x8E)
/-- VSUM (R106). -/
def execVsum (g : Nat) (s : State) : Out := atUnit "core" g 2016 (s.vecRow g 0x8F)
/-- VRMAX (R105). -/
def execVrmax (g : Nat) (s : State) : Out := atUnit "core" g 2016 (s.vecRow g 0x90)
/-- VSCALAR (R104). -/
def execVscalar (g : Nat) (s : State) : Out := atUnit "core" g 2016 (s.vecRow g 0x91)
/-- VMXQ (R107). -/
def execVmxq (g : Nat) (s : State) : Out := atUnit "core" g 2016 (s.vecRow g 0x92)

/-- The executed command completes: LAST_TAG and NOTIFY (R102, R105). -/
def CoreState.vecComplete (c : CoreState) : CoreState :=
  match c.vec.run with
  | none => c
  | some w =>
    if c.vec.held then c
    else
      let v := { c.vec with lastTag := BitVec.ofNat 8 (cwTag w) }
      if !cwNotify w then { c with vec := { v with run := none } }
      else
        let (posted, c) := c.notify (cqEntry 0 4 (cwTag w)) .vec
        { c with vec := if posted then { v with run := none } else { v with held := true } }

/-- VECTOR_COMMAND_COMPLETE (R105). -/
def execVectorCommandComplete (g : Nat) (s : State) : Out :=
  atUnit "core" g 2016 (s.setCore g (s.core g).vecComplete)

/-- VEC_STATUS_WRITE: W1C bits; writing 1 to ERR reopens the queue (R108). -/
def execVecStatusWrite (g : Nat) (value : W32) (s : State) : Out :=
  let c := s.core g
  atUnit "core" g 2016 (s.setCore g { c with vec := { c.vec with
    err := c.vec.err && !value.getLsbD 31, nanSeen := c.vec.nanSeen && !value.getLsbD 28 } })

end Sys2Proof.Machine
end

