-- ==== Sys2Proof/Machine/Dispatch.lean ====
section
/-! DEFINITION. What each command does to everything but the queue: one arm per constructor, one call of its meaning. -/
namespace Sys2Proof.Machine

/-- The effect of a command. -/
def exec (i : Instr) (s : State) : Host.Outcome State Fault Refusal :=
  match i with
  | .inLoad g a => Sys2Proof.Machine.execInLoad g a s
  | .inLoadT g a => Sys2Proof.Machine.execInLoadT g a s
  | .sow g a => Sys2Proof.Machine.execSow g a s
  | .sowSparse g a => Sys2Proof.Machine.execSowSparse g a s
  | .zmapClear g a => Sys2Proof.Machine.execZmapClear g a s
  | .zmapRead g a => Sys2Proof.Machine.execZmapRead g a s
  | .zmapWrite g a => Sys2Proof.Machine.execZmapWrite g a s
  | .accClear g a => Sys2Proof.Machine.execAccClear g a s
  | .accDrain g a => Sys2Proof.Machine.execAccDrain g a s
  | .passSet g a => Sys2Proof.Machine.execPassSet g a s
  | .arrayCommandIssue g a => Sys2Proof.Machine.execArrayCommandIssue g a s
  | .arrayCommandComplete g a u => Sys2Proof.Machine.execArrayCommandComplete g a u s
  | .gangPresentTimeout g a => Sys2Proof.Machine.execGangPresentTimeout g a s
  | .sowHopperBlockReady g a waited => Sys2Proof.Machine.execSowHopperBlockReady g a waited s
  | .arrayStatusWrite g a value => Sys2Proof.Machine.execArrayStatusWrite g a value s
  | .roundOpen f writer record => Sys2Proof.Machine.execRoundOpen f writer record s
  | .gateRecord f writer slot record => Sys2Proof.Machine.execGateRecord f writer slot record s
  | .winnowTakeToken f => Sys2Proof.Machine.execWinnowTakeToken f s
  | .tokenLetter f => Sys2Proof.Machine.execTokenLetter f s
  | .roundClose f writer record => Sys2Proof.Machine.execRoundClose f writer record s
  | .roundCloseFinish f round => Sys2Proof.Machine.execRoundCloseFinish f round s
  | .winnowCtxWrite f value => Sys2Proof.Machine.execWinnowCtxWrite f value s
  | .sieveSelect v writer slot record => Sys2Proof.Machine.execSieveSelect v writer slot record s
  | .sieveSeal v writer slot record => Sys2Proof.Machine.execSieveSeal v writer slot record s
  | .sieveRequestStart v => Sys2Proof.Machine.execSieveRequestStart v s
  | .sieveResultWrite v ix => Sys2Proof.Machine.execSieveResultWrite v ix s
  | .sieveCtxWrite v value => Sys2Proof.Machine.execSieveCtxWrite v value s
  | .vadd g => Sys2Proof.Machine.execVadd g s
  | .vsub g => Sys2Proof.Machine.execVsub g s
  | .vmul g => Sys2Proof.Machine.execVmul g s
  | .vfma g => Sys2Proof.Machine.execVfma g s
  | .vmax g => Sys2Proof.Machine.execVmax g s
  | .vmin g => Sys2Proof.Machine.execVmin g s
  | .vcvt g => Sys2Proof.Machine.execVcvt g s
  | .vexp g => Sys2Proof.Machine.execVexp g s
  | .vlog g => Sys2Proof.Machine.execVlog g s
  | .vrcp g => Sys2Proof.Machine.execVrcp g s
  | .vrsqrt g => Sys2Proof.Machine.execVrsqrt g s
  | .vtanh g => Sys2Proof.Machine.execVtanh g s
  | .vsigmoid g => Sys2Proof.Machine.execVsigmoid g s
  | .vgelu g => Sys2Proof.Machine.execVgelu g s
  | .vsilu g => Sys2Proof.Machine.execVsilu g s
  | .vsum g => Sys2Proof.Machine.execVsum g s
  | .vrmax g => Sys2Proof.Machine.execVrmax g s
  | .vscalar g => Sys2Proof.Machine.execVscalar g s
  | .vmxq g => Sys2Proof.Machine.execVmxq g s
  | .vectorCommandComplete g => Sys2Proof.Machine.execVectorCommandComplete g s
  | .vecStatusWrite g value => Sys2Proof.Machine.execVecStatusWrite g value s
  | .aqPush g mask word rd => Sys2Proof.Machine.execAqPush g mask word rd s
  | .aqPushPlaced g => Sys2Proof.Machine.execAqPushPlaced g s
  | .aqTry g mask word rd => Sys2Proof.Machine.execAqTry g mask word rd s
  | .aqPoll g rd => Sys2Proof.Machine.execAqPoll g rd s
  | .aqWait g limit rd => Sys2Proof.Machine.execAqWait g limit rd s
  | .aqWaitWake g => Sys2Proof.Machine.execAqWaitWake g s
  | .completionWaitRelease g => Sys2Proof.Machine.execCompletionWaitRelease g s
  | .cpInterrupt g cause => Sys2Proof.Machine.execCpInterrupt g cause s
  | .cpInstruction g => Sys2Proof.Machine.execCpInstruction g s
  | .cpApertureAccess g x size store value amo => Sys2Proof.Machine.execCpApertureAccess g x size store value amo s
  | .hopperCtlWrite g value => Sys2Proof.Machine.execHopperCtlWrite g value s
  | .hopperCtlApply g => Sys2Proof.Machine.execHopperCtlApply g s
  | .hopperSetWrite g ix value => Sys2Proof.Machine.execHopperSetWrite g ix value s
  | .hopperClrWrite g ix value => Sys2Proof.Machine.execHopperClrWrite g ix value s
  | .hopperIngressRelease g => Sys2Proof.Machine.execHopperIngressRelease g s
  | .coreScrub g => Sys2Proof.Machine.execCoreScrub g s
  | .coreScrubDone g => Sys2Proof.Machine.execCoreScrubDone g s
  | .cdmaSubmit g value => Sys2Proof.Machine.execCdmaSubmit g value s
  | .descriptorStart e => Sys2Proof.Machine.execDescriptorStart e s
  | .copy e ix => Sys2Proof.Machine.execCopy e ix s
  | .fill e ix => Sys2Proof.Machine.execFill e ix s
  | .circular e ix => Sys2Proof.Machine.execCircular e ix s
  | .add e ix => Sys2Proof.Machine.execAdd e ix s
  | .descriptorComplete e ix => Sys2Proof.Machine.execDescriptorComplete e ix s
  | .ccWritebackInvalidateAsid c asid => Sys2Proof.Machine.execCcWritebackInvalidateAsid c asid s
  | .ccInvalidateAsid c asid => Sys2Proof.Machine.execCcInvalidateAsid c asid s
  | .ccInvalidateAll c => Sys2Proof.Machine.execCcInvalidateAll c s
  | .ccOpDone c => Sys2Proof.Machine.execCcOpDone c s
  | .flush g scope => Sys2Proof.Machine.execFlush g scope s
  | .flushInv g scope => Sys2Proof.Machine.execFlushInv g scope s
  | .acquire g scope => Sys2Proof.Machine.execAcquire g scope s
  | .release g scope => Sys2Proof.Machine.execRelease g scope s
  | .barrierCsrWrite g id => Sys2Proof.Machine.execBarrierCsrWrite g id s
  | .barrierWaitRead g rd => Sys2Proof.Machine.execBarrierWaitRead g rd s
  | .barrierWaitWake g => Sys2Proof.Machine.execBarrierWaitWake g s
  | .fillDone k => Sys2Proof.Machine.execFillDone k s
  | .memopAdd iss addr fmt val => Sys2Proof.Machine.execMemopAdd iss addr fmt val s
  | .fetchAdd iss addr wide val => Sys2Proof.Machine.execFetchAdd iss addr wide val s
  | .swap iss addr wide val => Sys2Proof.Machine.execSwap iss addr wide val s
  | .memopAnd iss addr wide val => Sys2Proof.Machine.execMemopAnd iss addr wide val s
  | .memopOr iss addr wide val => Sys2Proof.Machine.execMemopOr iss addr wide val s
  | .memopXor iss addr wide val => Sys2Proof.Machine.execMemopXor iss addr wide val s
  | .memopMin iss addr wide val => Sys2Proof.Machine.execMemopMin iss addr wide val s
  | .memopMax iss addr wide val => Sys2Proof.Machine.execMemopMax iss addr wide val s
  | .memopMinu iss addr wide val => Sys2Proof.Machine.execMemopMinu iss addr wide val s
  | .memopMaxu iss addr wide val => Sys2Proof.Machine.execMemopMaxu iss addr wide val s
  | .lr g iss addr wide => Sys2Proof.Machine.execLr g iss addr wide s
  | .sc g iss addr wide val => Sys2Proof.Machine.execSc g iss addr wide val s
  | .writeBatchIssue k pc => Sys2Proof.Machine.execWriteBatchIssue k pc s
  | .bucketTick k => Sys2Proof.Machine.execBucketTick k s
  | .granWritebackInvalidateAsid k asid => Sys2Proof.Machine.execGranWritebackInvalidateAsid k asid s
  | .granInvalidateAsid k asid => Sys2Proof.Machine.execGranInvalidateAsid k asid s
  | .granClearProtectionAsid k asid => Sys2Proof.Machine.execGranClearProtectionAsid k asid s
  | .granWritebackAll k => Sys2Proof.Machine.execGranWritebackAll k s
  | .granInvalidateAll k => Sys2Proof.Machine.execGranInvalidateAll k s
  | .granWritebackInvalidatePart k part => Sys2Proof.Machine.execGranWritebackInvalidatePart k part s
  | .granOpDone k => Sys2Proof.Machine.execGranOpDone k s
  | .granQuotaWrite k value => Sys2Proof.Machine.execGranQuotaWrite k value s
  | .remapInstall k index sector spareRow => Sys2Proof.Machine.execRemapInstall k index sector spareRow s
  | .remapRemove k index => Sys2Proof.Machine.execRemapRemove k index s
  | .remapOpDone k => Sys2Proof.Machine.execRemapOpDone k s
  | .gleanerRead k => Sys2Proof.Machine.execGleanerRead k s
  | .gleanOverdue k => Sys2Proof.Machine.execGleanOverdue k s
  | .channelRetrain k channel => Sys2Proof.Machine.execChannelRetrain k channel s
  | .channelRetrainDone k channel ok => Sys2Proof.Machine.execChannelRetrainDone k channel ok s
  | .pageWalkComplete d client asid va acc ns => Sys2Proof.Machine.execPageWalkComplete d client asid va acc ns s
  | .faultMessage => Sys2Proof.Machine.execFaultMessage s
  | .faultBatchClose => Sys2Proof.Machine.execFaultBatchClose s
  | .translateReplay d asid page => Sys2Proof.Machine.execTranslateReplay d asid page s
  | .translateCancel d asid page => Sys2Proof.Machine.execTranslateCancel d asid page s
  | .translateInvalidate d asid va len => Sys2Proof.Machine.execTranslateInvalidate d asid va len s
  | .translateAck d client => Sys2Proof.Machine.execTranslateAck d client s
  | .accessCounterDecay p => Sys2Proof.Machine.execAccessCounterDecay p s
  | .packetRead ix p loc par d r => Sys2Proof.Machine.execPacketRead ix p loc par d r s
  | .packetWrite ix p loc par d r => Sys2Proof.Machine.execPacketWrite ix p loc par d r s
  | .packetMemop ix p fmt par d r => Sys2Proof.Machine.execPacketMemop ix p fmt par d r s
  | .packetMarkWrite ix p par d r => Sys2Proof.Machine.execPacketMarkWrite ix p par d r s
  | .packetCircWrite d r p par => Sys2Proof.Machine.execPacketCircWrite d r p par s
  | .packetData ix => Sys2Proof.Machine.execPacketData ix s
  | .packetAck ix => Sys2Proof.Machine.execPacketAck ix s
  | .packetCircAck d r output p => Sys2Proof.Machine.execPacketCircAck d r output p s
  | .circularHeld g => Sys2Proof.Machine.execCircularHeld g s
  | .requestTimeout ix tag => Sys2Proof.Machine.execRequestTimeout ix tag s
  | .postInterrupt hdr payload => Sys2Proof.Machine.execPostInterrupt hdr payload s
  | .postControl hdr payload => Sys2Proof.Machine.execPostControl hdr payload s
  | .broadcastStart bytes => Sys2Proof.Machine.execBroadcastStart bytes s
  | .broadcastCount count => Sys2Proof.Machine.execBroadcastCount count s
  | .broadcastEnd => Sys2Proof.Machine.execBroadcastEnd s
  | .capabilityBlockRead n block => Sys2Proof.Machine.execCapabilityBlockRead n block s
  | .tBootTimeout n => Sys2Proof.Machine.execTBootTimeout n s
  | .grantOk n => Sys2Proof.Machine.execGrantOk n s
  | .grantOkTimeout n => Sys2Proof.Machine.execGrantOkTimeout n s
  | .siteTrainingDone n wires => Sys2Proof.Machine.execSiteTrainingDone n wires s
  | .siteLinkUp n => Sys2Proof.Machine.execSiteLinkUp n s
  | .fwLoaded n => Sys2Proof.Machine.execFwLoaded n s
  | .guestDigestReport n digest => Sys2Proof.Machine.execGuestDigestReport n digest s
  | .guestDigestTimeout n => Sys2Proof.Machine.execGuestDigestTimeout n s
  | .siteFrame n b seq good ack ackGood => Sys2Proof.Machine.execSiteFrame n b seq good ack ackGood s
  | .bundleRetrainDone n b wires => Sys2Proof.Machine.execBundleRetrainDone n b wires s
  | .bridgeFrame br m seq good ack ackGood => Sys2Proof.Machine.execBridgeFrame br m seq good ack ackGood s
  | .siteIngress n a vc fmt p loc par d r => Sys2Proof.Machine.execSiteIngress n a vc fmt p loc par d r s
  | .guestPostMessage n hdr payload => Sys2Proof.Machine.execGuestPostMessage n hdr payload s
  | .siteResetReq n again => Sys2Proof.Machine.execSiteResetReq n again s
  | .quiesced n => Sys2Proof.Machine.execQuiesced n s
  | .sitePowerCheck n watts => Sys2Proof.Machine.execSitePowerCheck n watts s
  | .guestGrantRequest n watts => Sys2Proof.Machine.execGuestGrantRequest n watts s
  | .siteRequestTimeout n a tag => Sys2Proof.Machine.execSiteRequestTimeout n a tag s
  | .siteCreditTimeout n => Sys2Proof.Machine.execSiteCreditTimeout n s
  | .siteCtlReset n => Sys2Proof.Machine.execSiteCtlReset n s
  | .sitePowerGrantWrite n value => Sys2Proof.Machine.execSitePowerGrantWrite n value s
  | .guestSiteReturnTimeout n => Sys2Proof.Machine.execGuestSiteReturnTimeout n s
  | .signalDetect l => Sys2Proof.Machine.execSignalDetect l s
  | .hello l device port group mine theirs inc => Sys2Proof.Machine.execHello l device port group mine theirs inc s
  | .portRetry l => Sys2Proof.Machine.execPortRetry l s
  | .linkFlit l flit bad => Sys2Proof.Machine.execLinkFlit l flit bad s
  | .linkLoss l => Sys2Proof.Machine.execLinkLoss l s
  | .retrainTimeout l => Sys2Proof.Machine.execRetrainTimeout l s
  | .portDownReceived l => Sys2Proof.Machine.execPortDownReceived l s
  | .farewellReceived l => Sys2Proof.Machine.execFarewellReceived l s
  | .expressPost l => Sys2Proof.Machine.execExpressPost l s
  | .remoteRead l => Sys2Proof.Machine.execRemoteRead l s
  | .remoteWrite l => Sys2Proof.Machine.execRemoteWrite l s
  | .remoteMemop l => Sys2Proof.Machine.execRemoteMemop l s
  | .remoteCircWrite l => Sys2Proof.Machine.execRemoteCircWrite l s
  | .remoteData l => Sys2Proof.Machine.execRemoteData l s
  | .remoteAck l => Sys2Proof.Machine.execRemoteAck l s
  | .remoteCircAck l => Sys2Proof.Machine.execRemoteCircAck l s
  | .credit l => Sys2Proof.Machine.execCredit l s
  | .barrierArrive d r port id => Sys2Proof.Machine.execBarrierArrive d r port id s
  | .barrierDepart d r id => Sys2Proof.Machine.execBarrierDepart d r id s
  | .letterboxWrite p f off data => Sys2Proof.Machine.execLetterboxWrite p f off data s
  | .trayStampRead p f zero => Sys2Proof.Machine.execTrayStampRead p f zero s
  | .trayFullReread p f zero => Sys2Proof.Machine.execTrayFullReread p f zero s
  | .msixModerationExpire p f => Sys2Proof.Machine.execMsixModerationExpire p f s
  | .portReset p cause => Sys2Proof.Machine.execPortReset p cause s
  | .vfFlr p f => Sys2Proof.Machine.execVfFlr p f s
  | .mctpLetter letter => Sys2Proof.Machine.execMctpLetter letter s
  | .perstRelease p => Sys2Proof.Machine.execPerstRelease p s
  | .pcieLinkUp p rate width flit => Sys2Proof.Machine.execPcieLinkUp p rate width flit s
  | .registerWrite r value => Sys2Proof.Machine.execRegisterWrite r value s
  | .meterEvent => Sys2Proof.Machine.execMeterEvent s
  | .identify src => Sys2Proof.Machine.execIdentify src s
  | .capsGet src => Sys2Proof.Machine.execCapsGet src s
  | .logRead src => Sys2Proof.Machine.execLogRead src s
  | .nvRecordRead src => Sys2Proof.Machine.execNvRecordRead src s
  | .traySet src => Sys2Proof.Machine.execTraySet src s
  | .partitionSet src => Sys2Proof.Machine.execPartitionSet src s
  | .contextCreate src => Sys2Proof.Machine.execContextCreate src s
  | .contextDestroy src => Sys2Proof.Machine.execContextDestroy src s
  | .contextSchedule src => Sys2Proof.Machine.execContextSchedule src s
  | .partitionReset src => Sys2Proof.Machine.execPartitionReset src s
  | .modelLoad src => Sys2Proof.Machine.execModelLoad src s
  | .modelLoadComplete model envelope => Sys2Proof.Machine.execModelLoadComplete model envelope s
  | .modelUnload src => Sys2Proof.Machine.execModelUnload src s
  | .sessionOpen src => Sys2Proof.Machine.execSessionOpen src s
  | .signatureComplete => Sys2Proof.Machine.execSignatureComplete s
  | .sessionKey src => Sys2Proof.Machine.execSessionKey src s
  | .sessionKeyTimeout session => Sys2Proof.Machine.execSessionKeyTimeout session s
  | .sessionClose src => Sys2Proof.Machine.execSessionClose src s
  | .requestSubmit src => Sys2Proof.Machine.execRequestSubmit src s
  | .promptUnseal req record => Sys2Proof.Machine.execPromptUnseal req record s
  | .requestCancel src => Sys2Proof.Machine.execRequestCancel src s
  | .bounceSetAdd src => Sys2Proof.Machine.execBounceSetAdd src s
  | .bounceSetWithdraw src => Sys2Proof.Machine.execBounceSetWithdraw src s
  | .memFill src => Sys2Proof.Machine.execMemFill src s
  | .mapRange src => Sys2Proof.Machine.execMapRange src s
  | .unmapRange src => Sys2Proof.Machine.execUnmapRange src s
  | .faultBagSet src => Sys2Proof.Machine.execFaultBagSet src s
  | .windowSet src => Sys2Proof.Machine.execWindowSet src s
  | .migrateHints src => Sys2Proof.Machine.execMigrateHints src s
  | .spreadSet src => Sys2Proof.Machine.execSpreadSet src s
  | .contractSet src => Sys2Proof.Machine.execContractSet src s
  | .histogramRead src => Sys2Proof.Machine.execHistogramRead src s
  | .receiptGet src => Sys2Proof.Machine.execReceiptGet src s
  | .statsRead src => Sys2Proof.Machine.execStatsRead src s
  | .capacityStatement src => Sys2Proof.Machine.execCapacityStatement src s
  | .attestGet src => Sys2Proof.Machine.execAttestGet src s
  | .debugUnlock src token => Sys2Proof.Machine.execDebugUnlock src token s
  | .certChainGet src => Sys2Proof.Machine.execCertChainGet src s
  | .fwStage src => Sys2Proof.Machine.execFwStage src s
  | .fwStageComplete img => Sys2Proof.Machine.execFwStageComplete img s
  | .fwActivate src => Sys2Proof.Machine.execFwActivate src s
  | .settingsSave src => Sys2Proof.Machine.execSettingsSave src s
  | .bistRun src => Sys2Proof.Machine.execBistRun src s
  | .bistRunComplete sigs fails cols => Sys2Proof.Machine.execBistRunComplete sigs fails cols s
  | .bistResult src => Sys2Proof.Machine.execBistResult src s
  | .flipMaskSet src => Sys2Proof.Machine.execFlipMaskSet src s
  | .powerCapSet src => Sys2Proof.Machine.execPowerCapSet src s
  | .thermalRead src => Sys2Proof.Machine.execThermalRead src s
  | .calUserSet src => Sys2Proof.Machine.execCalUserSet src s
  | .calUserSave src => Sys2Proof.Machine.execCalUserSave src s
  | .marginReport src => Sys2Proof.Machine.execMarginReport src s
  | .bandwidthModeSet src => Sys2Proof.Machine.execBandwidthModeSet src s
  | .linkStatus src => Sys2Proof.Machine.execLinkStatus src s
  | .linkRetrain src => Sys2Proof.Machine.execLinkRetrain src s
  | .siteStatus src => Sys2Proof.Machine.execSiteStatus src s
  | .stepStart p => Sys2Proof.Machine.execStepStart p s
  | .stepEnd p logits => Sys2Proof.Machine.execStepEnd p logits s
  | .contextSwitch p ctx => Sys2Proof.Machine.execContextSwitch p ctx s
  | .stepTimeout p => Sys2Proof.Machine.execStepTimeout p s
  | .contractEvaluation => Sys2Proof.Machine.execContractEvaluation s
  | .drbgReseed => Sys2Proof.Machine.execDrbgReseed s
  | .entropyHealthFail => Sys2Proof.Machine.execEntropyHealthFail s
  | .entropyRestartTimeout => Sys2Proof.Machine.execEntropyRestartTimeout s
  | .entropyTestsPass => Sys2Proof.Machine.execEntropyTestsPass s
  | .housekeepingRound rd => Sys2Proof.Machine.execHousekeepingRound rd s
  | .refreshStepApply k => Sys2Proof.Machine.execRefreshStepApply k s
  | .comparatorSample codes => Sys2Proof.Machine.execComparatorSample codes s
  | .localPowerControl n power => Sys2Proof.Machine.execLocalPowerControl n power s
  | .vcompReached n => Sys2Proof.Machine.execVcompReached n s
  | .wearMeasureDone slow => Sys2Proof.Machine.execWearMeasureDone slow s
  | .pohTick => Sys2Proof.Machine.execPohTick s
  | .powerReport d flit => Sys2Proof.Machine.execPowerReport d flit s
  | .powerTemps d first count payload => Sys2Proof.Machine.execPowerTemps d first count payload s
  | .powerBudget n flit => Sys2Proof.Machine.execPowerBudget n flit s
  | .stackLost k => Sys2Proof.Machine.execStackLost k s
  | .powerOnStart => Sys2Proof.Machine.execPowerOnStart s
  | .bridgeTrained off => Sys2Proof.Machine.execBridgeTrained off s
  | .hotStartRecheck rd => Sys2Proof.Machine.execHotStartRecheck rd s
  | .stackTrainingDone k ok => Sys2Proof.Machine.execStackTrainingDone k ok s
  | .readyAssert => Sys2Proof.Machine.execReadyAssert s
  | .wholeReset cause => Sys2Proof.Machine.execWholeReset cause s
  | .powerDown => Sys2Proof.Machine.execPowerDown s
  | .powerFail lowest us complete => Sys2Proof.Machine.execPowerFail lowest us complete s
  | .thermtripClear => Sys2Proof.Machine.execThermtripClear s
  | .pllLockLost unit kind => Sys2Proof.Machine.execPllLockLost unit kind s
  | .pllRelockHoldEnd => Sys2Proof.Machine.execPllRelockHoldEnd s
  | .thermalRailsOff complete => Sys2Proof.Machine.execThermalRailsOff complete s
  | .inrushComplete => Sys2Proof.Machine.execInrushComplete s
  | .undervoltageLockout => Sys2Proof.Machine.execUndervoltageLockout s
  | .modResetNRelease => Sys2Proof.Machine.execModResetNRelease s
  | .logMessage => Sys2Proof.Machine.execLogMessage s
  | .settingsWrite => Sys2Proof.Machine.execSettingsWrite s
  | .faultBatchService => Sys2Proof.Machine.execFaultBatchService s
  | .invalidationTimeout d client => Sys2Proof.Machine.execInvalidationTimeout d client s
  | .partitionFault p => Sys2Proof.Machine.execPartitionFault p s
  | .drainEnd scope => Sys2Proof.Machine.execDrainEnd scope s
  | .tagRetireExpire ix tag => Sys2Proof.Machine.execTagRetireExpire ix tag s
  | .partitionResetEnd p => Sys2Proof.Machine.execPartitionResetEnd p s
  | .unitReset scope => Sys2Proof.Machine.execUnitReset scope s

end Sys2Proof.Machine
end

