-- ==== Sys2Proof/WellFormed.lean ====
section
/-! DEFINITION. Which commands are well formed: those that name a unit the package has (R19, R22, R248, R272, R322, R340). -/
namespace Sys2Proof

/-- The unit a command is addressed to. -/
inductive UnitRef where
  /-- the device as a whole -/
  | device
  | core (g : Nat) | array (g a : Nat) | cluster (c : Nat) | engine (e : EngRef) | stack (k : Nat) | sieve (u : Nat)
  | winnow (f : Nat) | xlate (d : Nat) | netIf (i : Nat) | router (d r : Nat) | post (d r : Nat) | site (n : Nat)
  /-- a die by number: 0–11 the sites', 12–15 the field dies -/
  | die (d : Nat)
  | bridge (b : Nat) | link (l : Nat) | hostPort (p : Nat) | function (p f : Nat)
  /-- a virtual function: every function of a port but function 0 -/
  | virtual (p f : Nat)
  | partition (p : Nat) | letter (src : LSrc) | scope (r : ScopeRef) | register (r : RegAt)
  deriving DecidableEq, Repr

/-- Transfer engines of the package: 252 cluster DMAs and 32 hub DMA engines (R19). -/
def EngRef.exists : EngRef → Bool
  | .cdma c => decide (c < 252)
  | .hdma e => decide (e < 32)

/-- Bulk routers of the die of a code: 12 × 8 on a field die, 4 × 6 on a compute die (R248). -/
def routersOn (d : Nat) : Nat := if d < 4 then 96 else if d < 16 then 24 else 0

/-- Is a number one of a unit of the package. -/
def UnitRef.exists : UnitRef → Bool
  | .device => true
  | .core g => decide (g < 2016)
  | .array g a => decide (g < 2016) && decide (a < 4)
  | .cluster c => decide (c < 252)
  | .engine e => e.exists
  | .stack k => decide (k < 12)
  | .sieve u => decide (u < 16)
  | .winnow f => decide (f < 4)
  | .xlate d => decide (d < 16)
  | .netIf i => decide (i < 252) || (decide (256 ≤ i) && decide (i < 392))
  | .router d r => decide (r < routersOn d)
  | .post d r => if d < 4 then decide (r < 4) else decide (d < 16) && (decide (r = 0) || (decide (16 ≤ r) && decide (r < 38)))
  | .site n => decide (n < 12)
  | .die d => decide (d < 16)
  | .bridge b => decide (b < 4)
  | .link l => decide (l < 16)
  | .hostPort p => decide (p < 2)
  | .function p f => decide (p < 2) && decide (f < 32)
  | .virtual p f => decide (p < 2) && decide (0 < f) && decide (f < 32)
  | .partition p => decide (p < 4)
  | .letter (.host p f k) => decide (p < 2) && decide (f < 32) && decide (k < 64)
  | .letter (.mgmt k) => decide (k < 4)
  | .scope (.core g) => decide (g < 2016)
  | .scope (.cluster c) => decide (c < 252)
  | .scope (.eng e) => e.exists
  | .scope (.sieve u) => decide (u < 16)
  | .scope (.winnow f) => decide (f < 4)
  | .scope (.partition p) => decide (p < 4)
  | .register (.hub _ _) => true
  | .register (.bar p f _ _) => decide (p < 2) && decide (f < 32)

/-- The unit a command is addressed to. -/
def Instr.unit : Instr → UnitRef
  | .inLoad g a => .array g a
  | .inLoadT g a => .array g a
  | .sow g a => .array g a
  | .sowSparse g a => .array g a
  | .zmapClear g a => .array g a
  | .zmapRead g a => .array g a
  | .zmapWrite g a => .array g a
  | .accClear g a => .array g a
  | .accDrain g a => .array g a
  | .passSet g a => .array g a
  | .arrayCommandIssue g a => .array g a
  | .arrayCommandComplete g a _ => .array g a
  | .gangPresentTimeout g a => .array g a
  | .sowHopperBlockReady g a _ => .array g a
  | .arrayStatusWrite g a _ => .array g a
  | .roundOpen f _ _ => .winnow f
  | .gateRecord f _ _ _ => .winnow f
  | .winnowTakeToken f => .winnow f
  | .tokenLetter f => .winnow f
  | .roundClose f _ _ => .winnow f
  | .roundCloseFinish f _ => .winnow f
  | .winnowCtxWrite f _ => .winnow f
  | .sieveSelect v _ _ _ => .sieve v
  | .sieveSeal v _ _ _ => .sieve v
  | .sieveRequestStart v => .sieve v
  | .sieveResultWrite v _ => .sieve v
  | .sieveCtxWrite v _ => .sieve v
  | .vadd g => .core g
  | .vsub g => .core g
  | .vmul g => .core g
  | .vfma g => .core g
  | .vmax g => .core g
  | .vmin g => .core g
  | .vcvt g => .core g
  | .vexp g => .core g
  | .vlog g => .core g
  | .vrcp g => .core g
  | .vrsqrt g => .core g
  | .vtanh g => .core g
  | .vsigmoid g => .core g
  | .vgelu g => .core g
  | .vsilu g => .core g
  | .vsum g => .core g
  | .vrmax g => .core g
  | .vscalar g => .core g
  | .vmxq g => .core g
  | .vectorCommandComplete g => .core g
  | .vecStatusWrite g _ => .core g
  | .aqPush g _ _ _ => .core g
  | .aqPushPlaced g => .core g
  | .aqTry g _ _ _ => .core g
  | .aqPoll g _ => .core g
  | .aqWait g _ _ => .core g
  | .aqWaitWake g => .core g
  | .completionWaitRelease g => .core g
  | .cpInterrupt g _ => .core g
  | .cpInstruction g => .core g
  | .cpApertureAccess g _ _ _ _ _ => .core g
  | .hopperCtlWrite g _ => .core g
  | .hopperCtlApply g => .core g
  | .hopperSetWrite g _ _ => .core g
  | .hopperClrWrite g _ _ => .core g
  | .hopperIngressRelease g => .core g
  | .coreScrub g => .core g
  | .coreScrubDone g => .core g
  | .cdmaSubmit g _ => .core g
  | .descriptorStart e => .engine e
  | .copy e _ => .engine e
  | .fill e _ => .engine e
  | .circular e _ => .engine e
  | .add e _ => .engine e
  | .descriptorComplete e _ => .engine e
  | .ccWritebackInvalidateAsid c _ => .cluster c
  | .ccInvalidateAsid c _ => .cluster c
  | .ccInvalidateAll c => .cluster c
  | .ccOpDone c => .cluster c
  | .flush g _ => .core g
  | .flushInv g _ => .core g
  | .acquire g _ => .core g
  | .release g _ => .core g
  | .barrierCsrWrite g _ => .core g
  | .barrierWaitRead g _ => .core g
  | .barrierWaitWake g => .core g
  | .fillDone k => .stack k
  | .memopAdd _ _ _ _ => .device
  | .fetchAdd _ _ _ _ => .device
  | .swap _ _ _ _ => .device
  | .memopAnd _ _ _ _ => .device
  | .memopOr _ _ _ _ => .device
  | .memopXor _ _ _ _ => .device
  | .memopMin _ _ _ _ => .device
  | .memopMax _ _ _ _ => .device
  | .memopMinu _ _ _ _ => .device
  | .memopMaxu _ _ _ _ => .device
  | .lr g _ _ _ => .core g
  | .sc g _ _ _ _ => .core g
  | .writeBatchIssue k _ => .stack k
  | .bucketTick k => .stack k
  | .granWritebackInvalidateAsid k _ => .stack k
  | .granInvalidateAsid k _ => .stack k
  | .granClearProtectionAsid k _ => .stack k
  | .granWritebackAll k => .stack k
  | .granInvalidateAll k => .stack k
  | .granWritebackInvalidatePart k _ => .stack k
  | .granOpDone k => .stack k
  | .granQuotaWrite k _ => .stack k
  | .remapInstall k _ _ _ => .stack k
  | .remapRemove k _ => .stack k
  | .remapOpDone k => .stack k
  | .gleanerRead k => .stack k
  | .gleanOverdue k => .stack k
  | .channelRetrain k _ => .stack k
  | .channelRetrainDone k _ _ => .stack k
  | .pageWalkComplete d _ _ _ _ _ => .xlate d
  | .faultMessage => .device
  | .faultBatchClose => .device
  | .translateReplay d _ _ => .xlate d
  | .translateCancel d _ _ => .xlate d
  | .translateInvalidate d _ _ _ => .xlate d
  | .translateAck d _ => .xlate d
  | .accessCounterDecay p => .hostPort p
  | .packetRead ix _ _ _ _ _ => .netIf ix
  | .packetWrite ix _ _ _ _ _ => .netIf ix
  | .packetMemop ix _ _ _ _ _ => .netIf ix
  | .packetMarkWrite ix _ _ _ _ => .netIf ix
  | .packetCircWrite d r _ _ => .router d r
  | .packetData ix => .netIf ix
  | .packetAck ix => .netIf ix
  | .packetCircAck d r _ _ => .router d r
  | .circularHeld g => .core g
  | .requestTimeout ix _ => .netIf ix
  | .postInterrupt _ _ => .device
  | .postControl _ _ => .device
  | .broadcastStart _ => .device
  | .broadcastCount _ => .device
  | .broadcastEnd => .device
  | .capabilityBlockRead n _ => .site n
  | .tBootTimeout n => .site n
  | .grantOk n => .site n
  | .grantOkTimeout n => .site n
  | .siteTrainingDone n _ => .site n
  | .siteLinkUp n => .site n
  | .fwLoaded n => .site n
  | .guestDigestReport n _ => .site n
  | .guestDigestTimeout n => .site n
  | .siteFrame n _ _ _ _ _ => .site n
  | .bundleRetrainDone n _ _ => .site n
  | .bridgeFrame br _ _ _ _ _ => .bridge br
  | .siteIngress n _ _ _ _ _ _ _ _ => .site n
  | .guestPostMessage n _ _ => .site n
  | .siteResetReq n _ => .site n
  | .quiesced n => .site n
  | .sitePowerCheck n _ => .site n
  | .guestGrantRequest n _ => .site n
  | .siteRequestTimeout n _ _ => .site n
  | .siteCreditTimeout n => .site n
  | .siteCtlReset n => .site n
  | .sitePowerGrantWrite n _ => .site n
  | .guestSiteReturnTimeout n => .site n
  | .signalDetect l => .link l
  | .hello l _ _ _ _ _ _ => .link l
  | .portRetry l => .link l
  | .linkFlit l _ _ => .link l
  | .linkLoss l => .link l
  | .retrainTimeout l => .link l
  | .portDownReceived l => .link l
  | .farewellReceived l => .link l
  | .expressPost l => .link l
  | .remoteRead l => .link l
  | .remoteWrite l => .link l
  | .remoteMemop l => .link l
  | .remoteCircWrite l => .link l
  | .remoteData l => .link l
  | .remoteAck l => .link l
  | .remoteCircAck l => .link l
  | .credit l => .link l
  | .barrierArrive d r _ _ => .post d r
  | .barrierDepart d r _ => .post d r
  | .letterboxWrite p f _ _ => .function p f
  | .trayStampRead p f _ => .function p f
  | .trayFullReread p f _ => .function p f
  | .msixModerationExpire p f => .function p f
  | .portReset p _ => .hostPort p
  | .vfFlr p f => .virtual p f
  | .mctpLetter _ => .device
  | .perstRelease p => .hostPort p
  | .pcieLinkUp p _ _ _ => .hostPort p
  | .registerWrite r _ => .register r
  | .meterEvent => .device
  | .identify src => .letter src
  | .capsGet src => .letter src
  | .logRead src => .letter src
  | .nvRecordRead src => .letter src
  | .traySet src => .letter src
  | .partitionSet src => .letter src
  | .contextCreate src => .letter src
  | .contextDestroy src => .letter src
  | .contextSchedule src => .letter src
  | .partitionReset src => .letter src
  | .modelLoad src => .letter src
  | .modelLoadComplete _ _ => .device
  | .modelUnload src => .letter src
  | .sessionOpen src => .letter src
  | .signatureComplete => .device
  | .sessionKey src => .letter src
  | .sessionKeyTimeout _ => .device
  | .sessionClose src => .letter src
  | .requestSubmit src => .letter src
  | .promptUnseal _ _ => .device
  | .requestCancel src => .letter src
  | .bounceSetAdd src => .letter src
  | .bounceSetWithdraw src => .letter src
  | .memFill src => .letter src
  | .mapRange src => .letter src
  | .unmapRange src => .letter src
  | .faultBagSet src => .letter src
  | .windowSet src => .letter src
  | .migrateHints src => .letter src
  | .spreadSet src => .letter src
  | .contractSet src => .letter src
  | .histogramRead src => .letter src
  | .receiptGet src => .letter src
  | .statsRead src => .letter src
  | .capacityStatement src => .letter src
  | .attestGet src => .letter src
  | .debugUnlock src _ => .letter src
  | .certChainGet src => .letter src
  | .fwStage src => .letter src
  | .fwStageComplete _ => .device
  | .fwActivate src => .letter src
  | .settingsSave src => .letter src
  | .bistRun src => .letter src
  | .bistRunComplete _ _ _ => .device
  | .bistResult src => .letter src
  | .flipMaskSet src => .letter src
  | .powerCapSet src => .letter src
  | .thermalRead src => .letter src
  | .calUserSet src => .letter src
  | .calUserSave src => .letter src
  | .marginReport src => .letter src
  | .bandwidthModeSet src => .letter src
  | .linkStatus src => .letter src
  | .linkRetrain src => .letter src
  | .siteStatus src => .letter src
  | .stepStart p => .partition p
  | .stepEnd p _ => .partition p
  | .contextSwitch p _ => .partition p
  | .stepTimeout p => .partition p
  | .contractEvaluation => .device
  | .drbgReseed => .device
  | .entropyHealthFail => .device
  | .entropyRestartTimeout => .device
  | .entropyTestsPass => .device
  | .housekeepingRound _ => .device
  | .refreshStepApply k => .stack k
  | .comparatorSample _ => .device
  | .localPowerControl n _ => .site n
  | .vcompReached n => .site n
  | .wearMeasureDone _ => .device
  | .pohTick => .device
  | .powerReport d _ => .die d
  | .powerTemps d _ _ _ => .die d
  | .powerBudget n _ => .site n
  | .stackLost k => .stack k
  | .powerOnStart => .device
  | .bridgeTrained _ => .device
  | .hotStartRecheck _ => .device
  | .stackTrainingDone k _ => .stack k
  | .readyAssert => .device
  | .wholeReset _ => .device
  | .powerDown => .device
  | .powerFail _ _ _ => .device
  | .thermtripClear => .device
  | .pllLockLost _ _ => .device
  | .pllRelockHoldEnd => .device
  | .thermalRailsOff _ => .device
  | .inrushComplete => .device
  | .undervoltageLockout => .device
  | .modResetNRelease => .device
  | .logMessage => .device
  | .settingsWrite => .device
  | .faultBatchService => .device
  | .invalidationTimeout d _ => .xlate d
  | .partitionFault p => .partition p
  | .drainEnd scope => .scope scope
  | .tagRetireExpire ix _ => .netIf ix
  | .partitionResetEnd p => .partition p
  | .unitReset scope => .scope scope

/-- A well-formed command: it names a unit of the package. -/
def Instr.wf (i : Instr) : Bool := i.unit.exists

end Sys2Proof
end

