-- ==== Sys2Proof/Safety.lean ====
section
/-! DEFINITION. What the statements about the machine speak of: the invariants of a step, and the frames of commands. -/
namespace Sys2Proof.Machine

/-! ## Invariants -/

/-- The timebase is counted in steps of 10 ns (R435). -/
def State.clockWf (s : State) : Prop := s.time % 10 = 0

/-- The controller's intake holds at most 256 messages (R490). -/
def State.intakeWf (s : State) : Prop := s.log.intake.length ≤ 256

/-- Every byte memory is in its one canonical form: core-local memories, stacks and letterboxes. -/
def State.memWf (s : State) : Prop :=
  (∀ g, Memory.wf (s.core g).mem = true) ∧ (∀ k, Memory.wf (s.stack k).raw = true)
    ∧ (∀ i, Memory.wf (tget {} s.hostFn i : HostFunc).lb = true)

/-- What every step keeps (R435, R490, log 6). -/
def State.inv (s : State) : Prop := s.clockWf ∧ s.intakeWf ∧ s.memWf

/-! ## Frames -/

/-- Core g alone differs. -/
def State.onlyCore (g : Nat) (s t : State) : Prop := t = { s with cores := t.cores } ∧ ∀ h, h ≠ g → t.core h = s.core h

/-- Of a core, memory and array a alone differ: its poison marks, FULL bits, queues and registers are as they were. -/
def CoreState.onlyMemArr (a : Nat) (c d : CoreState) : Prop :=
  d = { c with mem := d.mem, poison := d.poison, arrays := d.arrays } ∧ ∀ b, b ≠ a → d.arr b = c.arr b

/-- Bytes of a core's local memory outside [lo, lo + n) are as they were. -/
def CoreState.memKept (lo n : Nat) (c d : CoreState) : Prop := ∀ i, i < lo ∨ lo + n ≤ i → mget d.mem i = mget c.mem i

end Sys2Proof.Machine
end

