-- ==== Sys2Proof/Certificates/Slice0/Obligations.lean ====
section
/-! DEFINITION. The statements about the model, from the numbered rules of spec/ where one says what a command or the
machine does. -/
open Sys2Proof Sys2Proof.Machine

/-! ## Matrix arrays (chapters 02, 03) -/

/-- R39, R51, R55, R515: a load whose word passes the checks and whose source is free of poison finishes: row r, position k
of its tile is source element k of row r (IN_LOAD) or element r of line k (IN_LOAD_T), after the split, in the
input-store units from DST_BASE on; nothing else of the core but the array's zero maps and the command's own state changes. -/
def Obligations.LoadFillsTile : Prop :=
  ∀ (s : State) (g a : Nat) (tr : Bool) (r : RunCmd), g < 2016 → a < 4 →
    (s.arr g a).run .load = some r → r.done = false → cwOp r.word = (if tr then 2 else 1) →
    chkLoad tr (s.width g a) r.word = [] → loadPz (s.core g) (loadF r.word) tr = false →
    ∃ t, exec (if tr then .inLoadT g a else .inLoad g a) s = .next t ∧ State.onlyCore g s t
      ∧ CoreState.onlyMemArr a (s.core g) (t.core g)
      ∧ (t.arr g a).run .load = some { r with done := true }
      ∧ t.arr g a = { s.arr g a with zmaps := (t.arr g a).zmaps, running := (t.arr g a).running }
      ∧ (∀ row k, row < (loadF r.word).rows → k < (loadF r.word).k →
          eltAt (loadF r.word).fmt ((t.core g).rdm
              (clIn a ((loadF r.word).dst * 512 + row * rowBytes (loadF r.word).fmt (loadF r.word).k))
              (eltBytes (loadF r.word).fmt (loadF r.word).k)) k
            = splitElt (loadF r.word)
                (if tr then srcElt (s.core g) (loadF r.word) k row else srcElt (s.core g) (loadF r.word) row k))
      ∧ CoreState.memKept (clIn a ((loadF r.word).dst * 512))
          (tileUnits (loadF r.word).fmt (loadF r.word).k (loadF r.word).rows * 512) (s.core g) (t.core g)

/-- R69, R70: ZMAP READ writes the 128 bytes of the map keyed by IN_BASE (zeros where there is none) to ADDR and changes no
map; CLEAR zeroes a map that is held and takes no entry otherwise; WRITE installs the 128 bytes at ADDR, free of poison, as the
map. Every map keyed otherwise that stays is as it was, and no other byte changes. -/
def Obligations.ZmapActsOnItsMap : Prop :=
  ∀ (s : State) (g a : Nat) (r : RunCmd), g < 2016 → a < 4 →
    (s.arr g a).run .load = some r → r.done = false → cwOp r.word = 0x20 →
    (bf r.word 21 20 = 1 →
      ∃ t, exec (.zmapRead g a) s = .next t ∧ State.onlyCore g s t ∧ CoreState.onlyMemArr a (s.core g) (t.core g)
        ∧ t.arr g a = (s.arr g a).setRun { r with done := true }
        ∧ (t.core g).rdm (bf r.word 127 104) 128
            = le 128 (match (s.arr g a).zmaps.find? (fun z => z.base == bf r.word 79 73) with
                | some z => z.bits.toNat
                | none => 0)
        ∧ CoreState.memKept (bf r.word 127 104) 128 (s.core g) (t.core g))
    ∧ (bf r.word 21 20 = 0 →
      ∃ t, exec (.zmapClear g a) s = .next t ∧ t = s.setArr g a (t.arr g a)
        ∧ (t.arr g a).zmaps.find? (fun z => z.base == bf r.word 79 73)
            = (if (s.arr g a).zmaps.any (fun z => z.base == bf r.word 79 73) then some { base := bf r.word 79 73, bits := 0 } else none)
        ∧ (∀ z ∈ (t.arr g a).zmaps, z.base ≠ bf r.word 79 73 → z ∈ (s.arr g a).zmaps)
        ∧ t.arr g a = { (s.arr g a).setRun { r with done := true } with zmaps := (t.arr g a).zmaps })
    ∧ (bf r.word 21 20 = 2 → (s.core g).pzAny (bf r.word 127 104) 128 = false →
      ∃ t, exec (.zmapWrite g a) s = .next t ∧ t = s.setArr g a (t.arr g a)
        ∧ (t.arr g a).zmaps.find? (fun z => z.base == bf r.word 79 73)
            = some { base := bf r.word 79 73, bits := BitVec.ofNat 1024 (unle ((s.core g).rdm (bf r.word 127 104) 128)) }
        ∧ (∀ z ∈ (t.arr g a).zmaps, z.base ≠ bf r.word 79 73 → z ∈ (s.arr g a).zmaps)
        ∧ (t.arr g a).zmaps.length ≤ 8
        ∧ t.arr g a = { (s.arr g a).setRun { r with done := true } with zmaps := (t.arr g a).zmaps })

/-- R44, R516: ACC_CLEAR zeroes its columns in all 16 rows and changes no other byte; PASS_SET gives the array the word's
ACC64, ISHIFT, NEG, A_UNS and W_UNS and changes nothing else.

R35, R516: ACC_DRAIN finishes. Where no column it reads holds the other mode's type and its output rows do not
overlap, element j of output row i is the conversion of cell (i, ACC_COL + j); with CLEAR_AFTER the drained cells read zero
afterwards. Bytes outside the output rows and the drained cells are as they were. -/
def Obligations.AccumulatorsAndDrain : Prop :=
  (∀ (s : State) (g a : Nat) (r : RunCmd), g < 2016 → a < 4 → (s.arr g a).run .sow = some r → r.done = false →
        (cwOp r.word = 0x30 →
          ∃ t, exec (.accClear g a) s = .next t ∧ State.onlyCore g s t ∧ CoreState.onlyMemArr a (s.core g) (t.core g)
            ∧ t.arr g a = (s.arr g a).setRun { r with done := true }
            ∧ (∀ row col, row < 16 → col ∈ colCells (s.arr g a).acc64 (drainF r.word).col (drainF r.word).n →
                (t.core g).rdm (clAcc a row col) 4 = zeros 4)
            ∧ (∀ i, (∀ row col, row < 16 → col ∈ colCells (s.arr g a).acc64 (drainF r.word).col (drainF r.word).n →
                  i < clAcc a row col ∨ clAcc a row col + 4 ≤ i) → mget (t.core g).mem i = mget (s.core g).mem i))
        ∧ (cwOp r.word = 0x40 →
          exec (.passSet g a) s = .next (s.setArr g a
            ({ s.arr g a with acc64 := r.word.getLsbD 28, ishift := bf r.word 27 23, neg := r.word.getLsbD 22
                              aUns := r.word.getLsbD 21, wUns := r.word.getLsbD 20 }.setRun { r with done := true }))))
    ∧ (∀ (s : State) (g a : Nat) (r : RunCmd), g < 2016 → a < 4 → (s.arr g a).run .drain = some r → r.done = false →
          cwOp r.word = 0x31 → chkAcc { s.arr g a with colType := r.prevTypes } (s.width g a) r.word = [] →
          ∃ t, exec (.accDrain g a) s = .next t ∧ { t with fresh := s.fresh, cores := s.cores } = s
            ∧ (∀ h, h ≠ g → t.core h = s.core h) ∧ CoreState.onlyMemArr a (s.core g) (t.core g)
            ∧ t.arr g a = (s.arr g a).setRun { r with done := true }
            ∧ ((drainKind { s.arr g a with colType := r.prevTypes } (drainF r.word)).2 = false →
                (drainF r.word).n * (fmtBits (drainF r.word).ofmt / 8) ≤ (drainF r.word).stride * 16 →
                ∀ i j, i < (drainF r.word).rows → j < (drainF r.word).n →
                  (t.core g).rdm ((drainF r.word).dst + i * ((drainF r.word).stride * 16) + j * (fmtBits (drainF r.word).ofmt / 8))
                      (fmtBits (drainF r.word).ofmt / 8)
                    = le (fmtBits (drainF r.word).ofmt / 8) (drainElt
                        (((drainKind { s.arr g a with colType := r.prevTypes } (drainF r.word)).1).getD .none) (drainF r.word)
                        (accRead (s.core g) a i ((drainF r.word).col + j) (s.arr g a).acc64)))
            ∧ ((drainF r.word).clear = true → ∀ row col, row < 16 →
                col ∈ colCells (s.arr g a).acc64 (drainF r.word).col (drainF r.word).n →
                (t.core g).rdm (clAcc a row col) 4 = zeros 4)
            ∧ (∀ x, (x < (drainF r.word).dst ∨ (drainF r.word).dst + ((drainF r.word).rows - 1) * ((drainF r.word).stride * 16)
                    + (drainF r.word).n * (fmtBits (drainF r.word).ofmt / 8) ≤ x) →
                  ((drainF r.word).clear = true → ∀ row col, row < 16 →
                    col ∈ colCells (s.arr g a).acc64 (drainF r.word).col (drainF r.word).n →
                    x < clAcc a row col ∨ clAcc a row col + 4 ≤ x) →
                  mget (t.core g).mem x = mget (s.core g).mem x))

/-- R31, R34, R37: an INT8 SOW of one array in ACC64 mode whose streams are all FULL and whose operands are free of poison
adds to every cell of its columns the exact sum over K of activation times weight, shifted by ISHIFT and negated under NEG
(under OVERWRITE it writes that sum); rows beyond the tile meet zero activations. No other byte of the core changes. -/
def Obligations.SowAddsExactProducts : Prop :=
  ∀ (s : State) (g a : Nat) (r : RunCmd) (tl : Tile), g < 2016 → a < 4 → (s.arr g a).run .sow = some r → r.done = false →
    cwOp r.word = 0x10 → r.step = 0 → r.work = [] → r.owed = [] → r.kind = .int64 → r.tile = some tl → tl.fmt = 2 → tl.rows ≤ 16 →
    (sowF r.word).wfmt = 2 → (sowF r.word).gang = 2 ^ a → (sowF r.word).zskip = false →
    0 < (sowF r.word).k → (sowF r.word).k ≤ tl.k → 0 < (sowF r.word).n → (sowF r.word).col + (sowF r.word).n ≤ 128 →
    (s.arr g a).acc64 = true → (s.core g).hctl.getLsbD 31 = false → (s.core g).hctl.getLsbD 30 = false → (s.core g).poison = [] → (∀ b, b < 1024 → b ∈ (s.core g).full) →
    (sowF r.word).waddr + ((sowF r.word).k + 7) / 8 * (((sowF r.word).n + 3) / 4) * 32 ≤ 0x80000 →
    (∀ c, (tget .none r.prevTypes c == .none || tget .none r.prevTypes c == .int64) = true) →
    ∃ t, exec (.sow g a) s = .next t ∧ State.onlyCore g s t ∧ CoreState.onlyMemArr a (s.core g) (t.core g)
      ∧ (∃ r', (t.arr g a).run .sow = some r' ∧ r'.done = true ∧ r'.word = r.word)
      ∧ (t.arr g a).active = (s.arr g a).active + BitVec.ofNat 64 (((sowF r.word).k + 7) / 8 * (((sowF r.word).n + 3) / 4))
      ∧ (∀ row n, row < 16 → n < (sowF r.word).n →
          accRead (t.core g) a row ((sowF r.word).col + n) true
            = wrapI 64 ((if (sowF r.word).overwrite then 0
                  else sx 64 (accRead (s.core g) a row ((sowF r.word).col + n) true))
                + (if (s.arr g a).neg then -1 else 1) * 2 ^ (s.arr g a).ishift
                  * ((List.range (((sowF r.word).k + 7) / 8 * 8)).map (fun p =>
                      intElt 2 (actAt (s.core g) a tl (sowF r.word).k row p).1 (s.arr g a).aUns
                        * intElt 2 (mget (s.core g).mem ((sowF r.word).waddr
                            + (n / 4 * (((sowF r.word).k + 7) / 8) + p / 8) * 32 + n % 4 * 8 + p % 8)).toNat (s.arr g a).wUns)).sum))
      ∧ (∀ i, (∀ row n, row < 16 → n < (sowF r.word).n →
            i < clAcc a row (2 * ((sowF r.word).col + n)) ∨ clAcc a row (2 * ((sowF r.word).col + n)) + 8 ≤ i) →
          mget (t.core g).mem i = mget (s.core g).mem i)

/-- R26, R49: a SOW or SOW_SPARSE, or one that waited for a hopper block that is now FULL (SOW_HOPPER_BLOCK_READY), goes on
while nothing it reads is poisoned: it is done or waits for a block. It is done when every block its steps read is FULL and
CONSUME is clear. Only the core's own state changes. -/
def Obligations.SowRunsOrWaits : Prop :=
  ∀ (s : State) (g a : Nat) (r : RunCmd) (i : Instr) (q : SowCfg), g < 2016 → a < 4 →
    (s.arr g a).run .sow = some r → r.done = false →
    ((cwOp r.word = 0x10 ∧ i = .sow g a) ∨ (cwOp r.word = 0x11 ∧ i = .sowSparse g a)
      ∨ (isSow (cwOp r.word) = true ∧ (∃ b, r.waitBlk = some b ∧ b ∈ (s.core g).full)
          ∧ ∃ waited, i = .sowHopperBlockReady g a waited)) →
    q = { f := sowF r.word, sparse := cwOp r.word == 0x11, fmt := (r.tile.getD {}).fmt } →
    q.f.gang.testBit a = true → (s.core g).poison = [] →
    ∃ t, exec i s = .next t ∧ { t with fresh := s.fresh, cores := s.cores } = s ∧ (∀ h, h ≠ g → t.core h = s.core h)
      ∧ ∃ r', (t.arr g a).run .sow = some r' ∧ r'.word = r.word ∧ (r'.done = true ∨ r'.waitBlk.isSome)
        ∧ ((s.core g).hctl.getLsbD 30 = false →
            (∀ k x b, k < q.steps → x ∈ q.reads k → b ∈ (s.core g).streamBlocks x.1 x.2.1 x.2.2 → b ∈ (s.core g).full) →
            r'.done = true)

/-- R42, R45, R50, R103: the head word of an open queue that breaks a rule closes the queue with its code and word recorded
and the array's exception pending; a word that is no SOW, breaks none and meets no conflict leaves the queue and runs; a lone
array's SOW does so when no sow is sowing in the core. Other arrays and other cores are as they were.

R42, R46, R102: a done command completes: LAST_TAG takes its TAG and its unit is free; with NOTIFY its entry goes into
the completion queue, or, with the queue full or other completions waiting, waits while the command keeps its unit. -/
def Obligations.ArrayLifeCycle : Prop :=
  (∀ (s : State) (g a : Nat) (w : CW) (ws : List CW), g < 2016 → a < 4 → (s.arr g a).queue = w :: ws → (s.arr g a).err = false →
        (s.core g).hctlNew = none →
        (isSow (cwOp w) = false → arrCheck (s.core g) a (s.width g a) (s.arr g a) w ≠ 0 →
          ∃ t, exec (.arrayCommandIssue g a) s = .next t
            ∧ t = s.setCore g { s.core g with arrays := (t.core g).arrays, mip := sins (16 + a) (s.core g).mip }
            ∧ t.arr g a = { s.arr g a with
                err := true, errCode := BitVec.ofNat 8 (arrCheck (s.core g) a (s.width g a) (s.arr g a) w), errCmd := w, queue := [] }
            ∧ ∀ b, b ≠ a → t.arr g b = s.arr g b)
        ∧ (isSow (cwOp w) = false → arrCheck (s.core g) a (s.width g a) (s.arr g a) w = 0 → (s.arr g a).ready w = true →
          ∃ t r, exec (.arrayCommandIssue g a) s = .next t ∧ t = s.setArr g a (t.arr g a)
            ∧ (t.arr g a).queue = ws ∧ (t.arr g a).running = (s.arr g a).running ++ [r] ∧ r.word = w
            ∧ r.unit = opUnit (cwOp w) ∧ r.done = false ∧ (t.arr g a).err = false)
        ∧ (isSow (cwOp w) = true → (sowF w).gang = 2 ^ a → arrCheck (s.core g) a (s.width g a) (s.arr g a) w = 0 →
          (s.arr g a).ready w = true → (s.core g).sowing = false →
          ∃ t r, exec (.arrayCommandIssue g a) s = .next t ∧ t = s.setArr g a (t.arr g a)
            ∧ (t.arr g a).queue = ws ∧ (t.arr g a).running = (s.arr g a).running ++ [r] ∧ r.word = w ∧ r.unit = .sow
            ∧ (∀ c ∈ colCells (r.kind == .int64) (sowF w).col (sowF w).n, (t.arr g a).ctype c = r.kind)))
    ∧ (∀ (s : State) (g a : Nat) (u : ArrUnit) (r : RunCmd), g < 2016 → a < 4 → (s.arr g a).run u = some r →
          r.done = true → r.held = false →
          (cwNotify r.word = false →
            exec (.arrayCommandComplete g a u) s = .next (s.setArr g a
              ({ s.arr g a with lastTag := BitVec.ofNat 8 (cwTag r.word) }.dropRun u)))
          ∧ (cwNotify r.word = true → (s.core g).cq.length < 64 → (s.core g).cqWait = [] →
            exec (.arrayCommandComplete g a u) s = .next (s.setCore g
              ({ s.core g with cq := (s.core g).cq ++ [cqEntry 0 a (cwTag r.word)] }.setArr a
                ({ s.arr g a with lastTag := BitVec.ofNat 8 (cwTag r.word) }.dropRun u))))
          ∧ (cwNotify r.word = true → 64 ≤ (s.core g).cq.length →
            exec (.arrayCommandComplete g a u) s = .next (s.setCore g
              ({ s.core g with cqWait := (s.core g).cqWait ++ [(cqEntry 0 a (cwTag r.word), Holder.arr a u)] }.setArr a
                ({ s.arr g a with lastTag := BitVec.ofNat 8 (cwTag r.word) }.setRun { r with held := true })))))

/-- R50: a SOW at the head whose gang is not all there when the time ends: every member that presents it records code 0x07
and the word, its queue discarded and closed and its exception pending; the other arrays are as they were. Writing 1 to bits
31–28 of ARRAY_STATUS clears ERR, GANG_ABORT, ISAT and NAN_SEEN, writing 0 leaves them. -/
def Obligations.GangTimeoutAndStatusWrite : Prop :=
  ∀ (s : State) (g a : Nat), g < 2016 → a < 4 →
    (∀ w, (s.arr g a).queue.head? = some w → isSow (cwOp w) = true → (sowF w).gang.testBit a = true →
      (∃ b, b < 4 ∧ (sowF w).gang.testBit b = true ∧ (s.arr g b).queue = []) →
      ∃ t, exec (.gangPresentTimeout g a) s = .next t ∧ State.onlyCore g s t
        ∧ (t.arr g a).err = true ∧ (t.arr g a).errCode = 7 ∧ (t.arr g a).errCmd = w ∧ (t.arr g a).queue = []
        ∧ 16 + a ∈ (t.core g).mip
        ∧ ∀ b, b < 4 → (sowF w).gang.testBit b = false ∨ (s.arr g b).queue = [] → t.arr g b = s.arr g b)
    ∧ ∀ v : W32, exec (.arrayStatusWrite g a v) s = .next (s.setArr g a { s.arr g a with
        err := (s.arr g a).err && !v.getLsbD 31, gangAbort := (s.arr g a).gangAbort && !v.getLsbD 30
        isat := (s.arr g a).isat && !v.getLsbD 29, nanSeen := (s.arr g a).nanSeen && !v.getLsbD 28 })

/-! ## Winnow routers (chapter 03) -/

/-- The writes that a router judges at once (R74, R90, R477): it is not stopped, it is enabled, and the writer is firmware
or a core of its partition. -/
def winnowOpen (s : State) (f : Nat) (writer : Option Nat) : Prop :=
  f < 4 ∧ (s.win f).stopped = false ∧ (s.win f).ctx.getLsbD 0 = true
    ∧ ∀ g, writer = some g → s.partOfCore g = s.partOfDie f

/-- R75, R79, R80, R87, R91: a write that an enabled router judges is answered. A ROUND_OPEN inside its ranges, of a round not
open and with fewer than 16 open, opens the round; a complete gate record of an open round, in the writer's own slot, with a
TOKEN of the round not yet received and room in the buffer is accepted into it; a ROUND_CLOSE of an open round notes its close
flag and, under INDEX, declares the tokens not received missing. A ROUND_OPEN outside its ranges or of an open round is
rejected: an error response, LAST_ERR and ERR_COUNT.

R81, R83, R84, R85, R88: a router with its tables read takes the first record it may. The token is taken once and its
record leaves the buffer; at most K letters are queued for it, each to an enabled expert that had capacity left, in the slot
after those the router has filled for that expert; its route report counts them. -/
def Obligations.WinnowTokens : Prop :=
  (∀ (s : State) (f : Nat) (writer : Option Nat) (rec : Bytes), winnowOpen s f writer →
        (openGood rec = true → (s.win f).round (rd rec 2 2) = none → (s.win f).rounds.length < 16 →
          ∃ t, exec (.roundOpen f writer rec) s = .next t
            ∧ (∃ r, (t.win f).round (rd rec 2 2) = some r ∧ r.k = rdb rec 1 ∧ r.experts = rd rec 4 2 ∧ r.tokens = rd rec 6 2
                ∧ r.closeFlag = none ∧ r.received = [])
            ∧ (t.win f).rounds.length = (s.win f).rounds.length + 1 ∧ (t.win f).errCount = (s.win f).errCount
            ∧ t.out.head? = some (.writeAnswer (writerUnit writer) (uidWinnow f) 0))
        ∧ (openGood rec = false →
          ∃ t, exec (.roundOpen f writer rec) s = .next t
            ∧ t.win f = { s.win f with lastErr := 2, errCount := satAdd (s.win f).errCount 1 }
            ∧ t.out = .writeAnswer (writerUnit writer) (uidWinnow f) 1 :: s.out
            ∧ t = { s with winnow := t.winnow, log := t.log, out := t.out })
        ∧ (∀ slot r, (s.win f).round (rd rec 0 2) = some r → r.closeFlag = none → 16 + 2 * r.experts ≤ rec.length →
          (∀ g, writer = some g → g = slot / 2) → rd rec 2 2 < r.tokens → rd rec 2 2 ∉ r.received →
          (s.win f).room r (rd rec 2 2) = true →
          ∃ t g, exec (.gateRecord f writer slot rec) s = .next t ∧ t = { s with winnow := t.winnow, out := t.out }
            ∧ t.out = .writeAnswer (writerUnit writer) (uidWinnow f) 0 :: s.out
            ∧ (t.win f).buf = (s.win f).buf ++ [g] ∧ g.round = r.id ∧ g.token = rd rec 2 2 ∧ g.rowAddr = rd rec 8 8
            ∧ (∀ i, i < r.experts → g.logits[i]? = some (BitVec.ofNat 16 (rd rec (16 + 2 * i) 2)))
            ∧ (t.win f).round r.id = some { r with received := sins (rd rec 2 2) r.received })
        ∧ (∀ r, rdb rec 0 = 2 → rdb rec 1 = 0 → rd rec 4 4 = 0 → (∀ b ∈ slice rec 16 48, b = 0) →
          (s.win f).round (rd rec 2 2) = some r → r.closeFlag = none →
          ∃ t r', exec (.roundClose f writer rec) s = .next t ∧ t = { s with winnow := t.winnow, out := t.out }
            ∧ t.out = .writeAnswer (writerUnit writer) (uidWinnow f) 0 :: s.out
            ∧ (t.win f).round r.id = some r' ∧ r' = { r with closeFlag := some (rd rec 8 8), missing := r'.missing }
            ∧ (∀ k, k ∈ r'.missing ↔ r.byIndex = true ∧ k < r.tokens ∧ k ∉ r.received)))
    ∧ (∀ (s : State) (f : Nat) (g : GateRec) (r : Round), f < 4 → (s.win f).stopped = false →
          (∀ y ∈ (s.win f).rounds, y.loaded = true) → (s.win f).buf.find? (s.win f).takeable = some g →
          (s.win f).round g.round = some r →
          ∃ t r' ls rep, exec (.winnowTakeToken f) s = .next t ∧ t = { s with winnow := t.winnow, fresh := t.fresh }
            ∧ (t.win f).buf = (s.win f).buf.erase g ∧ (t.win f).records = (s.win f).records + 1
            ∧ (t.win f).sendq = (s.win f).sendq ++ ls ∧ (t.win f).round r.id = some r'
            ∧ r'.taken = sins g.token r.taken ∧ r'.reports = r.reports ++ [rep] ∧ rep.token = g.token
            ∧ rep.entries.length = ls.length ∧ ls.length ≤ r.k
            ∧ (∀ l ∈ ls, l.round = r.id ∧ l.token = g.token ∧ l.rowAddr = g.rowAddr
                ∧ ∃ e, r.table[l.expert]? = some e ∧ e.enable = true ∧ tget 0 r.assigned l.expert < e.capacity
                    ∧ l.slot = e.slotBase + tget 0 r.assigned l.expert
                    ∧ tget 0 r'.assigned l.expert = tget 0 r.assigned l.expert + 1))

/-- R85, R87, R90: a letter whose row can be read is sent with the other letters of its token: each leaves the queue and is
counted. A closed round with its table read, no record and no letter left and its pages translating is finished: it is open
no more. Clearing ENABLE or writing another ASID discards rounds, records and unsent letters; any other write only
replaces WINNOW_CTX, its reserved bits zero. -/
def Obligations.WinnowSendsAndFinishes : Prop :=
  ∀ (s : State) (f : Nat), f < 4 →
    (∀ l ls r bs st u, (s.win f).stopped = false → (s.win f).sendq = l :: ls → (s.win f).round l.round = some r →
      (∀ y ∈ l :: ls, (r.table[y.expert]?).isSome) → (l :: ls).Nodup →
      s.clRead (s.winClient f) l.rowAddr (r.rowBytes + r.scaleBytes) hintNormal = (.ok bs st, u) → st ≠ .wait →
      ∃ t, exec (.tokenLetter f) s = .next t
        ∧ (t.win f).sendq = (l :: ls).filter (fun y => !(y.round == l.round && y.token == l.token))
        ∧ (t.win f).letters = (s.win f).letters
            + BitVec.ofNat 32 ((l :: ls).filter (fun y => y.round == l.round && y.token == l.token)).length)
    ∧ (∀ r flag, (s.win f).round r.id = some r → r.closeFlag = some flag → (s.win f).stopped = false → r.loaded = true →
      (∀ g ∈ (s.win f).buf, g.round ≠ r.id) → (∀ l ∈ (s.win f).sendq, l.round ≠ r.id) →
      ((r.closing f flag).foldl (fun (a : Option Nat × State) w => match a.1 with
        | some _ => a
        | none => a.2.clProbe (s.winClient f) w.1 w.2.length kWrite) (none, s)).1 = none →
      ∃ t, exec (.roundCloseFinish f r.id) s = .next t ∧ (t.win f).round r.id = none
        ∧ (t.win f).rounds = (s.win f).rounds.filter (fun y => y.id != r.id))
    ∧ ∀ v : W64, exec (.winnowCtxWrite f v) s = .next (s.setWin f
        { (if ((s.win f).ctx.getLsbD 0 && !v.getLsbD 0) || bf (s.win f).ctx 63 48 != bf v 63 48
            then { s.win f with rounds := [], buf := [], sendq := [] } else s.win f) with
          ctx := v &&& 0xFFFF0000000001F3 })

/-! ## The vector unit (chapter 04) -/

/-- The vector unit of core g is free and open, its queue begins with a word that breaks no rule, and no unit of vector
memory that the word reads is poisoned (R105, R108). -/
def vecReady (s : State) (g op : Nat) (w : CW) (ws : List CW) : Prop :=
  g < 2016 ∧ (s.core g).vec.queue = w :: ws ∧ (s.core g).vec.err = false ∧ (s.core g).vec.run = none ∧ cwOp w = op
    ∧ vecCheck w = 0 ∧ vecPz (s.core g) op (vecF w) = false

/-- What a vector command leaves alone: outside core g nothing but the model's free values; in core g everything but the
vector unit and the bytes written. The queue has lost its head, which runs; scalars, errors and LAST_TAG stay. -/
def vecKept (s t : State) (g : Nat) (w : CW) (ws : List CW) : Prop :=
  { t with fresh := s.fresh, cores := s.cores } = s ∧ (∀ h, h ≠ g → t.core h = s.core h)
    ∧ t.core g = { s.core g with mem := (t.core g).mem, poison := (t.core g).poison, vec := (t.core g).vec }
    ∧ (t.core g).vec = { (s.core g).vec with queue := ws, run := some w, held := false, nanSeen := (t.core g).vec.nanSeen }

/-- R104, R105, R106: a vector command word of OP 0x80–0x8E executes: element k of the result is its operation on elements k of A and
B (or the scalar) and, for VFMA, of DST, in OFMT; a NaN result sets NAN_SEEN. SRC_A or SRC_B may equal DST.

R105, R106, R107: VSUM writes the FP32 sum its lanes and tree give; VRMAX writes the FP32 maximum and the INT32 index of
an element that has it; VMXQ writes, for each block of 32, the quantised elements at DST and the scale at SRC_B. -/
def Obligations.VectorCommands : Prop :=
  (∀ (s : State) (g op : Nat) (i : Instr) (w : CW) (ws : List CW), vecReady s g op w ws →
        (op, i) ∈ [(0x80, Instr.vadd g), (0x81, .vsub g), (0x82, .vmul g), (0x83, .vfma g), (0x84, .vmax g), (0x85, .vmin g),
          (0x86, .vcvt g), (0x87, .vexp g), (0x88, .vlog g), (0x89, .vrcp g), (0x8A, .vrsqrt g), (0x8B, .vtanh g),
          (0x8C, .vsigmoid g), (0x8D, .vgelu g), (0x8E, .vsilu g)] →
        badOverlap (vecF w).srcA ((vecF w).count * (fmtBits (vecF w).afmt / 8)) (vecF w).dst (vecOutBytes op (vecF w)) = false →
        (vecBinary op = true → (vecF w).scalar = 0 →
          badOverlap (vecF w).srcB ((vecF w).count * (fmtBits (vecF w).afmt / 8)) (vecF w).dst (vecOutBytes op (vecF w)) = false) →
        ∃ t, exec i s = .next t ∧ vecKept s t g w ws
          ∧ CoreState.memKept (vecF w).dst (vecOutBytes op (vecF w)) (s.core g) (t.core g)
          ∧ ((s.core g).vec.nanSeen = true → (t.core g).vec.nanSeen = true)
          ∧ ∀ k, k < (vecF w).count → ∃ free,
              let r := vecElt op (vecF w)
                (rd ((s.core g).rdm ((vecF w).srcA + k * (fmtBits (vecF w).afmt / 8)) (fmtBits (vecF w).afmt / 8)) 0 (fmtBits (vecF w).afmt / 8))
                (if (vecF w).scalar ≠ 0 then (tget 0 (s.core g).vec.sc (vecF w).scalar).toNat
                  else if vecBinary op then
                    rd ((s.core g).rdm ((vecF w).srcB + k * (fmtBits (vecF w).afmt / 8)) (fmtBits (vecF w).afmt / 8)) 0 (fmtBits (vecF w).afmt / 8)
                  else 0)
                (if op = 0x83 then
                    rd ((s.core g).rdm ((vecF w).dst + k * (fmtBits (vecF w).ofmt / 8)) (fmtBits (vecF w).ofmt / 8)) 0 (fmtBits (vecF w).ofmt / 8)
                  else 0) free free
              (t.core g).rdm ((vecF w).dst + k * (fmtBits (vecF w).ofmt / 8)) (fmtBits (vecF w).ofmt / 8) = le (fmtBits (vecF w).ofmt / 8) r.1
                ∧ (r.2 = true → (t.core g).vec.nanSeen = true))
    ∧ (∀ (s : State) (g op : Nat) (w : CW) (ws : List CW), vecReady s g op w ws →
          badOverlap (vecF w).srcA ((vecF w).count * (fmtBits (vecF w).afmt / 8)) (vecF w).dst (vecOutBytes op (vecF w)) = false →
          (op = 0x8F → ∃ t, exec (.vsum g) s = .next t ∧ vecKept s t g w ws ∧ CoreState.memKept (vecF w).dst 4 (s.core g) (t.core g)
            ∧ (t.core g).rdm (vecF w).dst 4 = le 4 (vecSum ((vecElts (s.core g) (vecF w).srcA (vecF w).afmt (vecF w).count).map
                (fun x => f32 (eltVal (vecF w).afmt x)))))
          ∧ (op = 0x90 → (∀ x ∈ vecElts (s.core g) (vecF w).srcA (vecF w).afmt (vecF w).count, (eltVal (vecF w).afmt x).isNan = false) →
            ∃ t i x, exec (.vrmax g) s = .next t ∧ vecKept s t g w ws ∧ CoreState.memKept (vecF w).dst 8 (s.core g) (t.core g)
              ∧ (vecElts (s.core g) (vecF w).srcA (vecF w).afmt (vecF w).count)[i]? = some x
              ∧ vecRmax ((vecElts (s.core g) (vecF w).srcA (vecF w).afmt (vecF w).count).map (eltVal (vecF w).afmt)) = some (eltVal (vecF w).afmt x, i)
              ∧ (t.core g).rdm (vecF w).dst 4 = le 4 (f32 (eltVal (vecF w).afmt x)) ∧ (t.core g).rdm ((vecF w).dst + 4) 4 = le 4 i)
          ∧ (op = 0x92 →
            ((vecF w).dst + vecOutBytes op (vecF w) ≤ (vecF w).srcB ∨ (vecF w).srcB + (vecF w).count / 32 ≤ (vecF w).dst) →
            ((vecF w).srcA + (vecF w).count * (fmtBits (vecF w).afmt / 8) ≤ (vecF w).srcB ∨ (vecF w).srcB + (vecF w).count / 32 ≤ (vecF w).srcA) →
            ∃ t, exec (.vmxq g) s = .next t ∧ vecKept s t g w ws
              ∧ (∀ b e, b < (vecF w).count / 32 → e < 32 →
                  let q := mxBlock (vecF w).ofmt ((vecElts (s.core g) ((vecF w).srcA + 32 * b * (fmtBits (vecF w).afmt / 8)) (vecF w).afmt 32).map
                    (eltVal (vecF w).afmt))
                  mget (t.core g).mem ((vecF w).srcB + b) = BitVec.ofNat 8 q.1
                    ∧ q.2[e]? = some (eltAt (vecF w).ofmt ((t.core g).rdm (vecF w).dst (vecOutBytes op (vecF w))) (32 * b + e)))
              ∧ (∀ x, (x < (vecF w).dst ∨ (vecF w).dst + vecOutBytes op (vecF w) ≤ x) → (x < (vecF w).srcB ∨ (vecF w).srcB + (vecF w).count / 32 ≤ x) →
                  mget (t.core g).mem x = mget (s.core g).mem x)))

/-- R104, R102, R108: VSCALAR loads its scalar register and nothing else. A word that breaks a rule, or reads a poisoned
unit, is recorded with its code, closes the queue and raises interrupt 20, and writes no byte. The command that ran completes:
LAST_TAG, and its entry where it has NOTIFY. VEC_STATUS's W1C bits clear what is written 1. -/
def Obligations.VectorScalarErrorsComplete : Prop :=
  ∀ (s : State) (g op : Nat) (w : CW) (ws : List CW), g < 2016 →
    (vecReady s g op w ws → op = 0x91 →
      exec (.vscalar g) s = .next (s.setCore g { s.core g with vec := { (s.core g).vec with
        queue := ws, run := some w, held := false, sc := tset (s.core g).vec.sc (bf w 29 28) (BitVec.ofNat 32 (bf w 127 96)) } }))
    ∧ ((s.core g).vec.queue = w :: ws → (s.core g).vec.err = false → (s.core g).vec.run = none →
      (cwOp w = 0x80 ∧ (vecCheck w ≠ 0 ∨ vecPz (s.core g) 0x80 (vecF w) = true) ∨ isVecOp (cwOp w) = false) →
      ∃ t code, exec (.vadd g) s = .next t
        ∧ code = (if isVecOp (cwOp w) = false then 1 else if vecCheck w = 0 then 0x0B else vecCheck w)
        ∧ t.core g = { s.core g with mip := sins 20 (s.core g).mip, vec := { (s.core g).vec with
            err := true, errCode := BitVec.ofNat 8 code, errCmd := w, queue := [] } }
        ∧ { t with cores := s.cores, log := s.log, pstate := s.pstate } = s ∧ ∀ h, h ≠ g → t.core h = s.core h)
    ∧ ((s.core g).vec.run = some w → (s.core g).vec.held = false →
      (cwNotify w = false → exec (.vectorCommandComplete g) s = .next (s.setCore g { s.core g with vec :=
        { (s.core g).vec with run := none, lastTag := BitVec.ofNat 8 (cwTag w) } }))
      ∧ (cwNotify w = true → (s.core g).cq.length < 64 → (s.core g).cqWait = [] →
        exec (.vectorCommandComplete g) s = .next (s.setCore g { s.core g with
          cq := (s.core g).cq ++ [cqEntry 0 4 (cwTag w)]
          vec := { (s.core g).vec with run := none, lastTag := BitVec.ofNat 8 (cwTag w) } })))
    ∧ ∀ v : W32, exec (.vecStatusWrite g v) s = .next (s.setCore g { s.core g with vec := { (s.core g).vec with
        err := (s.core g).vec.err && !v.getLsbD 31, nanSeen := (s.core g).vec.nanSeen && !v.getLsbD 28 } })

/-! ## Page sieve (chapter 07) -/

/-- The code of R202 that a sieve record is rejected with, in the order the spec checks the causes; 0 for a record accepted. -/
def sieveReject (s : State) (v : Nat) (writer : Option Nat) (slot : Nat) (rec : Bytes) : Nat :=
  if (s.sv v).ctx.getLsbD 0 = false then 6
  else if writer.any (fun g => s.partOfCore g != s.partOfDie (v / 4) || g != slot / 2) then 5
  else if srOp rec ≠ 1 ∧ srOp rec ≠ 2 then 1
  else if srGood rec = false then 2
  else if srPlaced rec (slot / 2) = false then 5
  else 0

/-- R191, R192, R193, R202: a record that breaks no rule enters the queue while fewer than 64 wait, and its writes are
answered; a record that breaks one is answered with an error, recorded in LAST_ERR and counted in ERR_COUNT, and nothing else of the
unit changes. A write of SIEVE_CTX that clears ENABLE or changes ASID discards every request (R201).

R189, R194, R197: the oldest queued request starts while fewer than four run and none is set aside. A SELECT whose query
rows and pages can be read gets the result that the pages give and counts the pages scored; a SEAL whose accesses end well writes the
summaries of every head and the list entry with SEALED, in that order; a request that meets a fault is set aside. -/
def Obligations.SieveRequests : Prop :=
  (∀ (s : State) (v : Nat) (writer : Option Nat) (slot : Nat) (rec : Bytes) (i : Instr), v < 16 →
        (∀ op, (op = 1 ∧ i = .sieveSelect v writer slot rec) ∨ (op = 2 ∧ i = .sieveSeal v writer slot rec) →
          (s.sv v).stopped = false → slot < 4032 →
          (sieveReject s v writer slot rec = 0 → srOp rec = op → (s.sv v).queue.length < 64 →
            ∃ t, exec i s = .next t ∧ t = { s with sieve := t.sieve, out := t.out }
              ∧ t.sv v = { s.sv v with queue := (s.sv v).queue ++ [{ core := slot / 2, record := slice rec 0 64 }] }
              ∧ (∀ u, u ≠ v → t.sv u = s.sv u) ∧ t.out = .writeAnswer (writerUnit writer) (uidSieve v) 0 :: s.out)
          ∧ (sieveReject s v writer slot rec ≠ 0 →
            ∃ t, exec i s = .next t ∧ t = { s with sieve := t.sieve, out := t.out, log := t.log }
              ∧ t.sv v = { s.sv v with lastErr := BitVec.ofNat 8 (sieveReject s v writer slot rec), errCount := satAdd (s.sv v).errCount 1 }
              ∧ t.out = .writeAnswer (writerUnit writer) (uidSieve v) 1 :: s.out))
        ∧ ∀ value : W64, exec (.sieveCtxWrite v value) s = .next (s.setSv v
            { (if ((s.sv v).ctx.getLsbD 0 && !value.getLsbD 0) || bf (s.sv v).ctx 63 48 != bf value 63 48
                then { s.sv v with queue := [], running := [], heldReqs := [] } else s.sv v) with
              ctx := value &&& 0xFFFF0000007F1F01 }))
    ∧ (∀ (s : State) (v : Nat) (req : SieveReq) (rest : List SieveReq), v < 16 → (s.sv v).stopped = false → (s.sv v).running.length < 4 →
          (s.sv v).heldReqs = [] → (s.sv v).queue = req :: rest →
          (∀ pages u, srOp req.record = 1 →
            (s.localRead req.core (lfAddr (rd req.record 40 8)) (2 * srDim req.record * rdb req.record 7)).1 = 0 →
            State.readPages (s.setSv v { s.sv v with queue := rest }) (s.svClient v) req.record
                ((s.core req.core).rdm (lfAddr (rd req.record 40 8)) (2 * srDim req.record * rdb req.record 7))
                (List.range ((rd req.record 16 4 + srP req.record - 1) / srP req.record)) [] = (.ok pages, u) →
            exec (.sieveRequestStart v) s = .next (u.setSv v { u.sv v with
              scored := (u.sv v).scored + BitVec.ofNat 64 (pages.filter (fun p => p.sealed_ && !p.poison)).length
              running := (u.sv v).running ++ [selectResult (u.sv v).ctx req.record
                ((s.core req.core).rdm (lfAddr (rd req.record 40 8)) (2 * srDim req.record * rdb req.record 7)) pages req] }))
          ∧ (∀ bs sm psn s1 s2 s3 s4 s5 s6, srOp req.record = 2 →
            State.clProbe (s.setSv v { s.sv v with queue := rest }) (s.svClient v)
              (rd req.record 32 8 + rd req.record 20 4 * srHeads req.record * 4 * srDim req.record) (srHeads req.record * 4 * srDim req.record) kWrite
              = (none, s1) →
            s1.clProbe (s.svClient v) (rd req.record 24 8 + 8 * rd req.record 20 4) 8 kWrite = (none, s2) →
            s2.clRead (s.svClient v) (rd req.record 24 8 + 8 * rd req.record 20 4) 8 (srHint req.record) = (.ok bs .ok, s3) →
            s3.readKeys (s.svClient v) req.record (nf (unle (bs.map (·.1))) 51 8 * 256) (List.range (srHeads req.record)) [] false
              = (.ok (sm, psn), s4) →
            s4.clWrite (s.svClient v) (rd req.record 32 8 + rd req.record 20 4 * srHeads req.record * 4 * srDim req.record) (mark false sm)
              (srHint req.record) = (.ok [] .ok, s5) →
            s5.clWrite (s.svClient v) (rd req.record 24 8 + 8 * rd req.record 20 4) (mark false (le 8 (setNf (unle (bs.map (·.1))) 0 0 1)))
              (srHint req.record) = (.ok [] .ok, s6) →
            exec (.sieveRequestStart v) s = .next (s6.setSv v { s6.sv v with
              running := (s6.sv v).running ++ [earlyRun req (if psn then 3 else 0) psn] }))
          ∧ (∀ va u, srOp req.record = 1 → State.runSelect (s.setSv v { s.sv v with queue := rest }) v req = (.fault va, u) →
            exec (.sieveRequestStart v) s = .next (u.setSv v { u.sv v with heldReqs := (u.sv v).heldReqs ++ [(req, va)] })))

/-- R198, R199: the result of a running request is written to its core: the header with VALID at RESULT and the
entries after it, and the unit counts it. No other byte of the core changes, and no other core. -/
def Obligations.SieveWritesResult : Prop :=
  ∀ (s : State) (v ix : Nat) (run : SieveRun), v < 16 → (s.sv v).stopped = false → (s.sv v).running[ix]? = some run →
    (s.core run.req.core).stopped = false → (s.core run.req.core).scrub = false →
    srRes run.req.record % 32 = 0 → clVm ≤ srRes run.req.record → srRes run.req.record + 32 + 16 * run.entries.length ≤ clVmEnd →
    ∃ t, exec (.sieveResultWrite v ix) s = .next t
      ∧ (t.core run.req.core).rdm (srRes run.req.record) 32 = run.header v run.status true
      ∧ (∀ k e, run.entries[k]? = some e → (t.core run.req.core).rdm (srRes run.req.record + 32 + 16 * k) 16
          = le 8 e.page.toNat ++ le 4 e.index ++ le 4 e.score.toNat)
      ∧ CoreState.memKept (srRes run.req.record) (32 + 16 * run.entries.length) (s.core run.req.core) (t.core run.req.core)
      ∧ t.core run.req.core = { s.core run.req.core with mem := (t.core run.req.core).mem, poison := (t.core run.req.core).poison }
      ∧ (∀ h, h ≠ run.req.core → t.core h = s.core h)
      ∧ { t with cores := s.cores, sieve := s.sieve, log := s.log, pstate := s.pstate } = s
      ∧ (t.sv v).running = (s.sv v).running.eraseIdx ix
      ∧ (t.sv v).selects = (if srOp run.req.record = 1 then (s.sv v).selects + 1 else (s.sv v).selects)
      ∧ (t.sv v).seals = (if srOp run.req.record = 1 then (s.sv v).seals else (s.sv v).seals + 1)

/-- R197: from the pages of a SELECT, in which page i is forced when it is a sink, recent, the last, unsealed or poisoned:
the entries name, in ascending index, every forced page and as many candidates as TOP and MAX_ENTRIES let in; a candidate left out never
has a higher score than one chosen, nor the same score and a lower index. With more forced pages than MAX_ENTRIES the STATUS is 0x07 and
there is no entry. -/
def Obligations.SieveChoosesHighestScores : Prop :=
  ∀ (ctx : W64) (rec q : Bytes) (pages : List PageRd) (req : SieveReq),
    let forced := fun i : Nat => decide (i < min (min (bf ctx 12 8) 16) pages.length ∨ pages.length - min (bf ctx 22 16) 64 ≤ i ∨ i + 1 = pages.length)
      || ((pages[i]?).any (fun p => !p.sealed_ || p.poison))
    let score := fun i : Nat => f32Ord (((pages[i]?).map (·.score)).getD 0)
    let nf := ((List.range pages.length).filter forced).length
    let run := selectResult ctx rec q pages req
    let ixs := run.entries.map (·.index)
    (rd rec 14 2 < nf → run.status = 7 ∧ run.entries = [])
    ∧ (nf ≤ rd rec 14 2 →
      run.status = (if pages.any (·.poison) then 3 else 0)
      ∧ ixs.Pairwise (· < ·) ∧ (∀ i ∈ ixs, i < pages.length)
      ∧ (∀ i, i < pages.length → forced i = true → i ∈ ixs)
      ∧ ixs.length = min (rd rec 14 2) (nf + min (rd rec 12 2) (pages.length - nf))
      ∧ (∀ i j, i < pages.length → j < pages.length → forced i = false → forced j = false → i ∈ ixs → j ∉ ixs →
          score j < score i ∨ (score j = score i ∧ i < j))
      ∧ run.flags.getLsbD 0 = decide (rd rec 14 2 < nf + min (rd rec 12 2) (pages.length - nf)))

/-! ## Control processors, hoppers and engines (chapter 04) -/

/-- The word stands in every named queue of core g and in no other, register rd holds v, and the instruction has retired; the
rest of the core and of the device is as it was (R100). -/
def aqPlaced (s t : State) (g : Nat) (m : Nat) (w : CW) (rd v : Nat) : Prop :=
  t = s.setCore g (t.core g)
    ∧ t.core g = { s.core g with arrays := (t.core g).arrays, vec := (t.core g).vec, cp := (t.core g).cp }
    ∧ (∀ b, b < 4 → t.arr g b = { s.arr g b with queue := (s.arr g b).queue ++ (if m.testBit b then [w] else []) })
    ∧ (t.core g).vec = { (s.core g).vec with queue := (s.core g).vec.queue ++ (if m.testBit 4 then [w] else []) }
    ∧ (t.core g).cp = { (s.core g).cp with x := (t.core g).cp.x, pc := (s.core g).cp.pc + 4, instret := (s.core g).cp.instret + 1, stall := .none }
    ∧ ∀ r, (t.core g).xr r = if r = rd ∧ r ≠ 0 then v % 2 ^ 64 else (s.core g).xr r

/-- R100: AQ.PUSH with every named queue open and with room places the word; with a closed queue it traps with mcause 24
and with a full one it waits, placing nothing; a waiting one places once there is room. AQ.TRY places everywhere or nowhere and
answers the refusal mask. A bad mask is an illegal instruction.

R100, R102, R103: AQ.POLL removes and returns the oldest completion entry, or EMPTY; AQ.WAIT does so when there is an
entry or an enabled interrupt is pending and waits otherwise; the wait ends on an entry, an enabled interrupt or its limit. A freed
entry is taken by the oldest completion that waited, and the unit it held is free. -/
def Obligations.QueuesOfACore : Prop :=
  (∀ (s : State) (g : Nat) (m : BitVec 7) (w : CW) (rd : Nat), g < 2016 → (s.core g).cp.inReset = false →
        ((s.core g).cp.stall = .none → aqMaskOk m = true →
          ((∀ i ∈ aqNamed m, (s.core g).qClosed i = false ∧ (s.core g).qFull i = false) →
            ∃ t u, exec (.aqPush g m w rd) s = .next t ∧ aqPlaced s t g m.toNat w rd 0
              ∧ exec (.aqTry g m w rd) s = .next u ∧ aqPlaced s u g m.toNat w rd 0)
          ∧ ((∃ i ∈ aqNamed m, (s.core g).qClosed i = true) →
            ∃ t, exec (.aqPush g m w rd) s = .next t ∧ t = s.setCore g { s.core g with cp := (t.core g).cp }
              ∧ (t.core g).csr 0x342 = 24 ∧ (t.core g).csr 0x341 = (s.core g).cp.pc.toNat ∧ (t.core g).cp.mach = true
              ∧ (t.core g).cp.pc.toNat = (s.core g).csr 0x305 / 4 * 4)
          ∧ ((∀ i ∈ aqNamed m, (s.core g).qClosed i = false) → (∃ i ∈ aqNamed m, (s.core g).qFull i = true) →
            exec (.aqPush g m w rd) s = .next (s.setCore g { s.core g with cp := { (s.core g).cp with
              stall := .aqPush (BitVec.ofNat 5 m.toNat) w rd } }))
          ∧ ((∃ i ∈ aqNamed m, (s.core g).qClosed i = true ∨ (s.core g).qFull i = true) →
            ∃ t, exec (.aqTry g m w rd) s = .next t ∧ aqPlaced s t g 0 w rd
              ((aqNamed m).foldl (fun n i => if (s.core g).qClosed i || (s.core g).qFull i then n + 2 ^ i else n) 0)))
        ∧ ((s.core g).cp.stall = .none → aqMaskOk m = false →
          exec (.aqPush g m w rd) s = .next (s.setCore g ((s.core g).trap 2 0 false))
            ∧ exec (.aqTry g m w rd) s = .next (s.setCore g ((s.core g).trap 2 0 false)))
        ∧ ((s.core g).cp.stall = .aqPush (BitVec.ofNat 5 m.toNat) w rd → aqMaskOk m = true →
          (∀ i ∈ aqNamed m, (s.core g).qClosed i = false ∧ (s.core g).qFull i = false) →
          ∃ t, exec (.aqPushPlaced g) s = .next t ∧ aqPlaced s t g m.toNat w rd 0))
    ∧ (∀ (s : State) (g rd limit : Nat), g < 2016 →
          (let v := ((s.core g).cq.head?.getD cqEmpty).toNat
           let popped := fun t : State => t = s.setCore g (t.core g)
              ∧ t.core g = { s.core g with cq := (s.core g).cq.tail, cp := (t.core g).cp }
              ∧ (t.core g).cp = { (s.core g).cp with
                  x := (t.core g).cp.x, pc := (s.core g).cp.pc + 4, instret := (s.core g).cp.instret + 1, stall := .none }
              ∧ ∀ r, (t.core g).xr r = if r = rd ∧ r ≠ 0 then v else (s.core g).xr r
           (s.core g).cp.inReset = false →
            ((s.core g).cp.stall = .none → ∃ t, exec (.aqPoll g rd) s = .next t ∧ popped t)
            ∧ ((s.core g).cp.stall = .none → ((s.core g).cq ≠ [] ∨ (s.core g).wakes = true) → ∃ t, exec (.aqWait g limit rd) s = .next t ∧ popped t)
            ∧ ((s.core g).cp.stall = .none → (s.core g).cq = [] → (s.core g).wakes = false →
                exec (.aqWait g limit rd) s = .next (s.setCore g { s.core g with cp := { (s.core g).cp with stall := .aqWait rd limit } }))
            ∧ ((s.core g).cp.stall = .aqWait rd limit → ((s.core g).cq ≠ [] ∨ (s.core g).wakes = true ∨ limit ≠ 0) →
                ∃ t, exec (.aqWaitWake g) s = .next t ∧ popped t))
          ∧ ∀ e h rest, (s.core g).cqWait = (e, h) :: rest → (s.core g).cq.length < 64 →
            ∃ t, exec (.completionWaitRelease g) s = .next t ∧ { t with cores := s.cores, clusters := s.clusters } = s
              ∧ (∀ k, k ≠ g → t.core k = s.core k) ∧ (t.core g).cq = (s.core g).cq ++ [e] ∧ (t.core g).cqWait = rest
              ∧ (∀ a u, h = .arr a u → t.arr g a = (s.arr g a).dropRun u)
              ∧ (h = .vec → (t.core g).vec = { (s.core g).vec with run := none, held := false }))

/-- R112, R113, R114, R119: a HOPPER_CTL write is kept, its reserved bits zero, and takes effect once no sow is sowing in the
core; HOPPER_SET and HOPPER_CLR set and clear FULL of the blocks whose bit is 1 and of no other. CORE_SCRUB.GO discards the core's queued
commands and sets BUSY; when the running ones have completed, the core's memories read zero, no poison, no tile and no FULL bit is left,
registers and queues are at reset, the completion queue and core cache empty; the pc and registers of the processor stay. A held MARK
write whose block is free lands whole and sets FULL. -/
def Obligations.HopperAndScrub : Prop :=
  (∀ (s : State) (g ix : Nat) (v : W64), g < 2016 → ix < 16 →
    exec (.hopperCtlWrite g v) s = .next (s.setCore g { s.core g with hctlNew := some (v &&& 0xFFF007FF) })
    ∧ (∀ n, (s.core g).hctlNew = some n → (s.core g).sowing = false →
        exec (.hopperCtlApply g) s = .next (s.setCore g { s.core g with hctl := n, hctlNew := none }))
    ∧ (∃ t, exec (.hopperSetWrite g ix v) s = .next t ∧ t = s.setCore g { s.core g with full := (t.core g).full }
        ∧ ∀ b, b ∈ (t.core g).full ↔ b ∈ (s.core g).full ∨ (b / 64 = ix ∧ v.getLsbD (b % 64) = true))
    ∧ (∃ t, exec (.hopperClrWrite g ix v) s = .next t ∧ t = s.setCore g { s.core g with full := (t.core g).full }
        ∧ ∀ b, b ∈ (t.core g).full ↔ b ∈ (s.core g).full ∧ ¬ (b / 64 = ix ∧ v.getLsbD (b % 64) = true)))
  ∧ (∀ (s : State) (g : Nat), g < 2016 →
    ((s.core g).scrub = false →
      ∃ t, exec (.coreScrub g) s = .next t ∧ t = s.setCore g (t.core g) ∧ (t.core g).scrub = true
        ∧ (∀ a, t.arr g a = { s.arr g a with queue := [] })
        ∧ t.core g = { s.core g with scrub := true, arrays := (t.core g).arrays, vec := { (s.core g).vec with queue := [] } })
    ∧ ((s.core g).scrub = true → (s.core g).idle = true →
      ∃ t, exec (.coreScrubDone g) s = .next t ∧ { t with cores := s.cores, xlate := s.xlate } = s
        ∧ (∀ h, h ≠ g → t.core h = s.core h) ∧ (∀ i, mget (t.core g).mem i = 0) ∧ (t.core g).poison = []
        ∧ (∀ a, t.arr g a = {}) ∧ (t.core g).vec = {} ∧ (t.core g).full = [] ∧ (t.core g).hctl = 1024 ∧ (t.core g).cq = []
        ∧ (t.core g).cache = [] ∧ (t.core g).scrub = false ∧ (t.core g).cp = (s.core g).cp)
    ∧ (∀ h rest, (s.core g).heldMarks = h :: rest → (s.core g).stopped = false → (s.core g).scrub = false →
      h.block ∉ (s.core g).full → h.data.length = 512 →
      ∃ t, exec (.hopperIngressRelease g) s = .next t ∧ h.block ∈ (t.core g).full
        ∧ (t.core g).rdm (h.block * 512) 512 = h.data ∧ CoreState.memKept (h.block * 512) 512 (s.core g) (t.core g)
        ∧ (t.core g).heldMarks = rest))

/-- R98, R99, R103: a control processor that is out of reset and not stalled fetches the instruction at its pc, here from its
hopper, and executes it: OP-IMM and OP write rd (x0 discards), a taken branch moves the pc, ECALL traps, and a word of no
instruction is illegal. An enabled pending interrupt is taken with mepc the pc. The RISC-V meanings are the profile's (log 24). -/
def Obligations.CpExecutesAndTraps : Prop :=
  ∀ (s : State) (g : Nat), g < 2016 → (s.core g).cp.inReset = false →
    (∀ x w, (s.core g).cp.stall = .none → (s.core g).cp.pc.toNat = aperture + x → x + 4 ≤ 0xC0000 →
      (s.core g).pzAny x 2 = false → (s.core g).pzAny (x + 2) 2 = false → unle ((s.core g).rdm x 4) = w → w % 4 = 3 →
      (∀ v, (w % 128 = 0x13 ∧ aluImm (nf w 14 12) (nf w 31 20) ((s.core g).xr (nf w 19 15)) = some v)
          ∨ (w % 128 = 0x33 ∧ alu (nf w 14 12) (nf w 31 25) ((s.core g).xr (nf w 19 15)) ((s.core g).xr (nf w 24 20)) = some v) →
        ∃ t, exec (.cpInstruction g) s = .next t ∧ t = s.setCore g { s.core g with cp := (t.core g).cp }
          ∧ (t.core g).cp = { (s.core g).cp with
              x := (t.core g).cp.x, pc := (s.core g).cp.pc + 4, instret := (s.core g).cp.instret + 1 }
          ∧ ∀ r, (t.core g).xr r = if r = nf w 11 7 ∧ r ≠ 0 then v % 2 ^ 64 else (s.core g).xr r)
      ∧ (∀ taken, w % 128 = 0x63 → branch (nf w 14 12) ((s.core g).xr (nf w 19 15)) ((s.core g).xr (nf w 24 20)) = some taken →
        exec (.cpInstruction g) s = .next (s.setCore g { s.core g with cp := { (s.core g).cp with
          instret := (s.core g).cp.instret + 1
          pc := if taken then BitVec.ofNat 64 (addI (aperture + x) (immB w)) else (s.core g).cp.pc + 4 } }))
      ∧ (w = 0x73 → exec (.cpInstruction g) s = .next (s.setCore g ((s.core g).trap (if (s.core g).cp.mach then 11 else 8) 0 false)))
      ∧ (w % 128 = 0x7B → exec (.cpInstruction g) s = .next (s.setCore g ((s.core g).trap 2 w false))))
    ∧ (∀ cause, (s.core g).cp.stall = .none → cause ∈ (s.core g).pend → nbit ((s.core g).csr 0x304) cause = true → cause < 2 ^ 63 →
      ((s.core g).cp.mach = false ∨ nbit ((s.core g).csr 0x300) 3 = true) →
      ∃ t, exec (.cpInterrupt g cause) s = .next t ∧ t = s.setCore g { s.core g with cp := (t.core g).cp }
        ∧ (t.core g).csr 0x341 = (s.core g).cp.pc.toNat ∧ (t.core g).csr 0x342 = 2 ^ 63 + cause ∧ (t.core g).cp.mach = true
        ∧ nbit ((t.core g).csr 0x300) 3 = false ∧ ∀ r, (t.core g).xr r = (s.core g).xr r)

/-- R94, R95, R99: through the aperture a naturally aligned store puts its bytes into the hopper or vector memory and a
load answers them, changing nothing; a misaligned access traps with mcause 4 or 6, an AMO, LR or SC with 7 or 5 and a store to the
accumulator or input windows with 7, and none of them is performed. -/
def Obligations.ApertureAccess : Prop :=
  ∀ (s : State) (g x n : Nat) (v : W64), g < 2016 → (s.core g).cp.inReset = false → (s.core g).cp.stall = .none →
    (n = 1 ∨ n = 2 ∨ n = 4 ∨ n = 8) → x < 0x1000000 →
    (x % n = 0 → x < 0xC0000 →
      (∃ t, exec (.cpApertureAccess g x n true v 0) s = .next t ∧ (t.core g).rdm x n = le n v.toNat
        ∧ CoreState.memKept x n (s.core g) (t.core g)
        ∧ t = { s.setCore g { s.core g with mem := (t.core g).mem, poison := (t.core g).poison } with out := .apertureData g 0 :: s.out })
      ∧ ((s.core g).pzAny x n = false →
        exec (.cpApertureAccess g x n false v 0) s = .next { s with out := .apertureData g (unle ((s.core g).rdm x n)) :: s.out }))
    ∧ (x % n ≠ 0 →
      exec (.cpApertureAccess g x n true v 0) s = .next (s.setCore g ((s.core g).trap 6 (aperture + x) false))
        ∧ exec (.cpApertureAccess g x n false v 0) s = .next (s.setCore g ((s.core g).trap 4 (aperture + x) false)))
    ∧ (∀ store, exec (.cpApertureAccess g x n store v 1) s = .next (s.setCore g ((s.core g).trap 5 (aperture + x) false))
        ∧ exec (.cpApertureAccess g x n store v 2) s = .next (s.setCore g ((s.core g).trap 7 (aperture + x) false)))
    ∧ (x % n = 0 → (0xC0000 ≤ x ∧ x < 0xD0000) ∨ (0x100000 ≤ x ∧ x < 0x140000) →
      exec (.cpApertureAccess g x n true v 0) s = .next (s.setCore g ((s.core g).trap 7 (aperture + x) false)))

/-! ## Transfer engines (chapter 04) -/

/-- R120, R121, R124, R125, R102, R103: the store that submits puts the window's 64 bytes, its last word the value stored, at
the end of the core's queue, and stalls while 16 wait. A lone queue whose head may start gives it to a free engine: it runs, its fields
checked; one that fails its checks has its status at once. A descriptor whose transfer has ended, with no write outstanding and no
completion word, completes: it runs no more; a nonzero status is counted and kept as LAST_STATUS; with NOTIFY the submitting core's
completion queue takes its entry, or it waits while the queue is full. -/
def Obligations.DescriptorLife : Prop :=
  (∀ (s : State),
    (∀ g v, g < 2016 → (s.core g).cp.inReset = false → (s.core g).cp.stall = .none →
      ((tget [] (s.cluster (g / 8)).dma.queues (g % 8)).length < 16 →
        ∃ t d, exec (.cdmaSubmit g v) s = .next t ∧ { t with cores := s.cores, clusters := s.clusters } = s
          ∧ t.cluster (g / 8) = { s.cluster (g / 8) with dma := { (s.cluster (g / 8)).dma with
              queues := tset (s.cluster (g / 8)).dma.queues (g % 8) (tget [] (s.cluster (g / 8)).dma.queues (g % 8) ++ [d]) } }
          ∧ d.length = 64 ∧ rd d 56 8 = v.toNat ∧ (∀ i, i < 56 → d[i]? = some (BitVec.ofNat 8 ((s.core g).cdmaWin.toNat / 2 ^ (8 * i)))))
      ∧ (16 ≤ (tget [] (s.cluster (g / 8)).dma.queues (g % 8)).length →
        ∃ t, exec (.cdmaSubmit g v) s = .next t ∧ (t.core g).cp = { (s.core g).cp with stall := .cdma v } ∧ t.clusters = s.clusters))
    ∧ (∀ e q d rest, e.exists_ = true → (s.eng e).stopped = false → (s.eng e).running.length < e.slots → q < 8 →
      tget [] (s.eng e).queues q = d :: rest → (∀ j, j < 8 → j ≠ q → tget [] (s.eng e).queues j = []) →
      (dFlag d 2 = true → ∀ r ∈ (s.eng e).running, r.core ≠ e.coreOf q) →
      ∃ t r, exec (.descriptorStart e) s = .next t
        ∧ t = s.setEng e { s.eng e with
            queues := tset (s.eng e).queues q rest, next := (q + 1) % 8, running := (s.eng e).running ++ [r] }
        ∧ r.desc = d ∧ r.core = e.coreOf q ∧ r.todo = descParts d ∧ r.held = false
        ∧ r.status = (if s.descCheck e d = 0 then none else some (s.descCheck e d))))
  ∧ (∀ (s : State) (e : EngRef) (ix : Nat) (r : RunDesc) (st : Nat), e.exists_ = true → s.runDesc e ix = some r → r.status = some st →
    r.held = false → s.descBusy e r = false → rd r.desc 56 8 = 0 →
    ((dFlag r.desc 0 = false ∨ r.mute = true ∨ ∃ h, e = .hdma h) →
      ∃ t, exec (.descriptorComplete e ix) s = .next t ∧ (t.eng e).running = (s.eng e).running.eraseIdx ix
        ∧ (t.eng e).errCount = (if st = 0 then (s.eng e).errCount else satAdd (s.eng e).errCount 1)
        ∧ (t.eng e).lastStatus = (if st = 0 then (s.eng e).lastStatus else BitVec.ofNat 8 st)
        ∧ { t with cores := s.cores, clusters := s.clusters, hubDma := s.hubDma } = s
        ∧ (∀ c, e = .cdma c → t.core r.core = (if st = 0 then s.core r.core else (s.core r.core).irq 22)))
    ∧ (∀ c, e = .cdma c → dFlag r.desc 0 = true → r.mute = false → (s.core r.core).cqWait = [] →
      ((s.core r.core).cq.length < 64 →
        ∃ t, exec (.descriptorComplete e ix) s = .next t ∧ (t.eng e).running = (s.eng e).running.eraseIdx ix
          ∧ (t.core r.core).cq = (s.core r.core).cq ++ [cqEntry st 5 (rd r.desc 4 2)])
      ∧ (64 ≤ (s.core r.core).cq.length →
        ∃ t, exec (.descriptorComplete e ix) s = .next t ∧ t.runDesc e ix = some { r with held := true }
          ∧ (t.core r.core).cqWait = [(cqEntry st 5 (rd r.desc 4 2), Holder.dma)] ∧ (t.core r.core).cq = (s.core r.core).cq)))

/-- R122, R123: COPY and FILL of one row into vector memory of a core of the partition, free of poison and of
overlap, write every byte of the row and end with status 0x00; nothing else of the device changes but the descriptor.

R122, R260: a CIRCULAR of one row whose group leads only to cores that take writes puts the source's bytes into every one of
them at DST. An ADD of one element under PHYS, read from device memory, adds it by the memory-side adder. -/
def Obligations.DescriptorParts : Prop :=
  (∀ (s : State) (e : EngRef) (ix g : Nat) (r : RunDesc), e.exists_ = true → (s.eng e).stopped = false →
        s.runDesc e ix = some r → r.status = none → r.unc = false → r.todo = descParts r.desc → s.descCheck e r.desc = 0 → dRows r.desc = 1 →
        dFlag r.desc 1 = false → dFlag r.desc 5 = true → g = lfCore (rd r.desc 16 8) → s.guestCore g = false →
        (s.core g).stopped = false → (s.core g).scrub = false → clVm ≤ lfAddr (rd r.desc 16 8) → lfAddr (rd r.desc 16 8) + dLen r.desc ≤ clVmEnd →
        let dst := lfAddr (rd r.desc 16 8)
        let ends := fun t : State => { t with cores := s.cores, clusters := s.clusters, hubDma := s.hubDma } = s
          ∧ (∀ h, h ≠ g → t.core h = s.core h)
          ∧ t.core g = { s.core g with mem := (t.core g).mem, poison := (t.core g).poison }
          ∧ CoreState.memKept dst (dLen r.desc) (s.core g) (t.core g)
          ∧ t.eng e = { s.eng e with running := (s.eng e).running.set ix { r with todo := [], status := some 0 } }
          ∧ ∀ e', e' ≠ e → t.eng e' = s.eng e'
        (rdb r.desc 0 = 2 → ∃ t, exec (.fill e ix) s = .next t ∧ ends t
          ∧ ∀ i, i < dLen r.desc → mget (t.core g).mem (dst + i) = r.desc.getD (48 + i % 8) 0)
        ∧ (∀ h src, rdb r.desc 0 = 1 → dFlag r.desc 4 = true → h = lfCore (rd r.desc 8 8) → src = lfAddr (rd r.desc 8 8) →
          s.guestCore h = false → (s.core h).stopped = false → clVm ≤ src → src + dLen r.desc ≤ clVmEnd →
          (s.core h).pzAny src (dLen r.desc) = false → descOverlap r.desc = false →
          ∃ t, exec (.copy e ix) s = .next t ∧ ends t
            ∧ ∀ i, i < dLen r.desc → mget (t.core g).mem (dst + i) = mget (s.core h).mem (src + i)))
    ∧ (∀ (s : State) (e : EngRef) (ix : Nat) (r : RunDesc), e.exists_ = true → (s.eng e).stopped = false →
          s.runDesc e ix = some r → r.status = none → r.unc = false → r.todo = descParts r.desc → s.descCheck e r.desc = 0 → dRows r.desc = 1 →
          dFlag r.desc 1 = false →
          (∀ h src tgts dst, rdb r.desc 0 = 3 → dFlag r.desc 4 = true → h = lfCore (rd r.desc 8 8) → src = lfAddr (rd r.desc 8 8) →
            s.guestCore h = false → (s.core h).stopped = false → clVm ≤ src → src + dLen r.desc ≤ clVmEnd →
            (s.core h).pzAny src (dLen r.desc) = false → dst = lfAddr (rd r.desc 16 8) →
            s.circTargets (rd r.desc 6 2) 64 (s.engRouter e).1 (s.engRouter e).2 = (tgts, false) →
            dst + dLen r.desc ≤ clVmEnd → (dst + dLen r.desc ≤ src ∨ src + dLen r.desc ≤ dst) →
            (∀ c ∈ tgts, ∃ g, c = .core g ∧ s.guestCore g = false ∧ (s.core g).stopped = false ∧ (s.core g).scrub = false) →
            ∃ t, exec (.circular e ix) s = .next t ∧ { t with cores := s.cores, clusters := s.clusters, hubDma := s.hubDma } = s
              ∧ t.runDesc e ix = some { r with todo := [], status := some 0 }
              ∧ (∀ g, .core g ∉ tgts → t.core g = s.core g)
              ∧ ∀ g, .core g ∈ tgts → CoreState.memKept dst (dLen r.desc) (s.core g) (t.core g)
                  ∧ ∀ i, i < dLen r.desc → mget (t.core g).mem (dst + i) = mget (s.core h).mem (src + i))
          ∧ (∀ n f old bs u v, rdb r.desc 0 = 4 → dFlag r.desc 3 = true → dFlag r.desc 4 = false → addFmt (rdb r.desc 3) = some (n, f) →
            dLen r.desc = n → s.devRead (s.engIss e r) (rd r.desc 8 8) n (dHintR r.desc) = (bs, .ok, u) →
            u.memop (s.engIss e r) (rd r.desc 16 8) n (fun o => f o (unle (bs.map (·.1)))) = (old, .ok, v) →
            exec (.add e ix) s = .next (v.setRunDesc e ix { r with todo := [], status := some 0 })))

/-! ## Caches, synchronisation and barriers (chapters 04, 08, 10) -/

/-- R117, R118: a CC_OP of an idle cluster is recorded with BUSY and removes its lines from the cluster cache, those of the
ASID or all; while BUSY another is ignored; CC_OP_DONE clears BUSY. R208, R209: SYNC_OP keeps the operation and scope. RELEASE changes
nothing else. After FLUSH at cluster scope or wider no sector of the range is dirty in the core cache, nor, from package scope on, in the
cluster cache; after FLUSH_INV and ACQUIRE no line of the range is left there. Nothing else of a core changes but reservations that a
write-back clears. -/
def Obligations.CacheOperations : Prop :=
  (∀ (s : State) (c asid : Nat), c < 252 → asid < 2 ^ 16 →
    ((s.cluster c).ccBusy = false →
      exec (.ccInvalidateAsid c asid) s = .next (s.setCluster c { s.cluster c with
        ccAsid := BitVec.ofNat 16 asid, ccOp := 2, ccBusy := true, cache := (s.cluster c).cache.filter (fun l => !(l.asid == asid)) })
      ∧ exec (.ccInvalidateAll c) s = .next (s.setCluster c { s.cluster c with ccAsid := 0, ccOp := 3, ccBusy := true, cache := [] })
      ∧ ∃ t, exec (.ccWritebackInvalidateAsid c asid) s = .next t ∧ t.cluster c = { s.cluster c with
          ccAsid := BitVec.ofNat 16 asid, ccOp := 1, ccBusy := true, cache := (s.cluster c).cache.filter (fun l => !(l.asid == asid)) }
        ∧ ∀ d, d ≠ c → t.cluster d = s.cluster d)
    ∧ ((s.cluster c).ccBusy = true → exec (.ccWritebackInvalidateAsid c asid) s = .next s ∧ exec (.ccInvalidateAsid c asid) s = .next s
      ∧ exec (.ccInvalidateAll c) s = .next s)
    ∧ exec (.ccOpDone c) s = .next (s.setCluster c { s.cluster c with ccBusy := false }))
  ∧ (∀ (s : State) (g scope : Nat), g < 2016 → scope < 5 →
    let sel := selLine (s.asidOfCore g) (s.core g).syncRange.1 (s.core g).syncRange.2
    let kept := fun (t : State) (op : Nat) => (∀ h, h ≠ g → t.core h = { s.core h with resv := (t.core h).resv })
      ∧ t.core g = { s.core g with resv := (t.core g).resv, cache := (t.core g).cache, cp := { (s.core g).cp with csr := tset (s.core g).cp.csr 0x802 (syncWord scope op) } }
    (exec (.release g scope) s = .next (s.setCore g { s.core g with cp := { (s.core g).cp with
        csr := tset (s.core g).cp.csr 0x802 (syncWord scope 4) } }))
    ∧ (∃ t, exec (.flush g scope) s = .next t ∧ kept t 1
      ∧ (1 ≤ scope → (t.core g).cache = (s.core g).cache.map (fun l => if sel l then l.clean else l))
      ∧ (2 ≤ scope → ∀ l ∈ (t.cluster (clusterOf g)).cache, sel l = true → l.dirtySecs = []))
    ∧ (∀ op i, (op = 2 ∧ i = .flushInv g scope) ∨ (op = 3 ∧ i = .acquire g scope) →
      ∃ t, exec i s = .next t ∧ kept t op
        ∧ (1 ≤ scope → ∀ l ∈ (t.core g).cache, sel l = false) ∧ (2 ≤ scope → ∀ l ∈ (t.cluster (clusterOf g)).cache, sel l = false)))

/-- R267, R268: a write of BARRIER sends an arrival, or is illegal while the last has not departed; BARRIER_WAIT reads the
departure or waits for it. At a router a valid arrival counts; at EXPECT it clears COUNT and flips PHASE, going up or, at the ROOT, departing;
an invalid one is logged and counts nothing. A departure at a stop ends the waits of its cores for that ID. -/
def Obligations.Barriers : Prop :=
  ∀ (s : State) (g id rd : Nat), g < 2016 → id < 256 →
    ((s.core g).cp.inReset = false → (s.core g).cp.stall = .none →
      ((s.core g).departed = true →
        exec (.barrierCsrWrite g id) s = .next (s.setCore g { s.core g with
          departed := false, barId := id, barSent := (s.core g).barSent ++ [id]
          cp := { (s.core g).cp with pc := (s.core g).cp.pc + 4, instret := (s.core g).cp.instret + 1 } })
        ∧ ∃ t, exec (.barrierWaitRead g rd) s = .next t ∧ t = s.setCore g { s.core g with cp := (t.core g).cp }
            ∧ (t.core g).cp.pc = (s.core g).cp.pc + 4 ∧ (t.core g).cp.stall = .none
            ∧ (rd ≠ 0 → (t.core g).xr rd = (2 ^ 63 + (s.core g).barId) % 2 ^ 64))
      ∧ ((s.core g).departed = false →
        exec (.barrierCsrWrite g id) s = .next (s.setCore g ((s.core g).trap 2 0 false))
        ∧ ((s.core g).wakes = false → exec (.barrierWaitRead g rd) s = .next (s.setCore g { s.core g with
            cp := { (s.core g).cp with stall := .barrier rd } }))))
    ∧ ((s.core g).cp.stall = .barrier rd → (s.core g).departed = true →
      ∃ t, exec (.barrierWaitWake g) s = .next t ∧ t = s.setCore g { s.core g with cp := (t.core g).cp }
        ∧ (t.core g).cp.pc = (s.core g).cp.pc + 4 ∧ (t.core g).cp.stall = .none)
    ∧ (∀ d r port, postExists d r = true → s.stopCore d r port = none → port < 32 →
      let e := s.barEnt d r id
      (e.getLsbD 63 = true → e.getLsbD (16 + port) = true → bf e 15 8 + 1 < bf e 7 0 →
        exec (.barrierArrive d r port id) s = .next (s.setBar d r id (setBf e 15 8 (bf e 15 8 + 1))))
      ∧ (e.getLsbD 63 = true → e.getLsbD (16 + port) = true → bf e 7 0 ≤ bf e 15 8 + 1 → e.getLsbD 62 = false →
        exec (.barrierArrive d r port id) s = .next ((s.setBar d r id (setBf (setBf e 15 8 0) 61 61 (1 - bf e 61 61))).emit
          (.barUp d r (bf e 60 56) id)))
      ∧ (e.getLsbD 63 = true → e.getLsbD (16 + port) = true → bf e 7 0 ≤ bf e 15 8 + 1 → e.getLsbD 62 = true →
        exec (.barrierArrive d r port id) s = .next ((s.setBar d r id (setBf (setBf e 15 8 0) 61 61 (1 - bf e 61 61))).depart d r id))
      ∧ (e.getLsbD 63 = false ∨ e.getLsbD (16 + port) = false →
        ∃ t, exec (.barrierArrive d r port id) s = .next t ∧ t = { s with log := t.log }))
    ∧ (∀ d r port, postExists d r = true → s.stopCore d r port = some g → port < 8 → (s.barEnt d r id).getLsbD (16 + port) = true →
      (s.core g).barId = id →
      ∃ t, exec (.barrierDepart d r id) s = .next t ∧ (t.core g).departed = true ∧ { t with cores := s.cores, out := s.out } = s
        ∧ ∀ h, ((t.core h) = { s.core h with departed := true } ∧ (s.core h).barId = id) ∨ t.core h = s.core h)

/-! ## Device memory (chapters 05, 06) -/

/-- An element of n bytes at a physical address lies in one sector of a stack that serves, and the granary holds that sector
valid, whole and free of poison: (stack, stack data address, the sector's bytes). -/
def granHit (s : State) (addr n k a : Nat) (bs : Bytes) : Prop :=
  place s.dev.spreadS addr = .dev k a ∧ (s.stack k).serves = true ∧ a % 32 + n ≤ 32 ∧ bs.length = 32
    ∧ ∃ l, (s.stack k).lineOf (a / 32) = some l ∧ (l.sec (a / 32 % 4)).valid = true ∧ (l.sec (a / 32 % 4)).poison = false
      ∧ (l.sec (a / 32 % 4)).data = bs

/-- What an operation on such an element leaves: the sector's bytes with the element replaced, dirty in the granary; the other
sectors of the stack and every other stack as they were; no reservation on the sector. -/
def granPut (s t : State) (k a n new : Nat) (bs : Bytes) : Prop :=
  (t.stack k).peekSec (a / 32) = putBytes bs (a % 32) (le n new)
    ∧ (∃ l, (t.stack k).lineOf (a / 32) = some l ∧ (l.sec (a / 32 % 4)).dirty = true)
    ∧ (∀ sn, sn ≠ a / 32 → (t.stack k).peekSec sn = (s.stack k).peekSec sn) ∧ (∀ j, j ≠ k → t.stack j = s.stack j)
    ∧ t.stack k = { s.stack k with lines := (t.stack k).lines }
    ∧ (∀ g, (t.core g).resv ≠ some (k, a / 32) ∧ t.core g = { s.core g with resv := (t.core g).resv })
    ∧ { t with cores := s.cores, hbm := s.hbm, out := s.out } = s

/-- R157, R158, R160, R162: a memory-side operation on an element that the granary holds replaces the element by the
operation's result, leaves the sector dirty, clears every reservation on it, and answers the old value (ADD: only the status). LR
answers the element and reserves its sector for the core; SC on a sector the core has reserved writes the element and answers 0, on any
other it answers 1 and writes nothing; the reservation is gone in either case. -/
def Obligations.MemorySideOperations : Prop :=
  (∀ (s : State) (iss : Issuer) (addr val k a : Nat) (bs : Bytes),
    (∀ (wide : Bool) (i : Instr) (f : Nat → Nat), granHit s addr (wbytes wide) k a bs →
      (i, f) ∈ [(Instr.fetchAdd iss addr wide val, fun o : Nat => o + val), (.swap iss addr wide val, fun _ => val),
        (.memopAnd iss addr wide val, fun o => o &&& val), (.memopOr iss addr wide val, fun o => o ||| val),
        (.memopXor iss addr wide val, fun o => o ^^^ val),
        (.memopMin iss addr wide val, fun o => if sx (8 * wbytes wide) o ≤ sx (8 * wbytes wide) val then o else val),
        (.memopMax iss addr wide val, fun o => if sx (8 * wbytes wide) o ≤ sx (8 * wbytes wide) val then val else o),
        (.memopMinu iss addr wide val, fun o => min o (val % 2 ^ (8 * wbytes wide))),
        (.memopMaxu iss addr wide val, fun o => max o (val % 2 ^ (8 * wbytes wide)))] →
      ∃ t, exec i s = .next t ∧ granPut s t k a (wbytes wide) (f (rd bs (a % 32) (wbytes wide)) % 2 ^ (8 * wbytes wide)) bs
        ∧ t.out = .memAnswer iss.unit 0 (rd bs (a % 32) (wbytes wide)) :: s.out)
    ∧ (∀ fmt n f, addFmt fmt = some (n, f) → granHit s addr n k a bs →
      ∃ t, exec (.memopAdd iss addr fmt val) s = .next t ∧ granPut s t k a n (f (rd bs (a % 32) n) (val % 2 ^ (8 * n))) bs
        ∧ t.out = .memAnswer iss.unit 0 0 :: s.out))
  ∧ (∀ (s : State) (g : Nat) (iss : Issuer) (addr val k a : Nat) (wide : Bool) (bs : Bytes), g < 2016 → granHit s addr (wbytes wide) k a bs →
    (∃ t, exec (.lr g iss addr wide) s = .next t ∧ (t.core g).resv = some (k, a / 32)
      ∧ t.out = .memAnswer iss.unit 0 (rd bs (a % 32) (wbytes wide)) :: s.out
      ∧ (∀ sn, (t.stack k).peekSec sn = (s.stack k).peekSec sn) ∧ (∀ h, h ≠ g → t.core h = s.core h)
      ∧ t.core g = { s.core g with resv := some (k, a / 32) })
    ∧ ((s.core g).resv = some (k, a / 32) →
      ∃ t, exec (.sc g iss addr wide val) s = .next t ∧ granPut s t k a (wbytes wide) (val % 2 ^ (8 * wbytes wide)) bs
        ∧ (t.core g).resv = none ∧ t.out = .memAnswer iss.unit 0 0 :: s.out)
    ∧ ((s.core g).resv ≠ some (k, a / 32) →
      exec (.sc g iss addr wide val) s = .next { s.setCore g { s.core g with resv := none } with out := .memAnswer iss.unit 0 1 :: s.out }))

/-- R165, R168, R169: a sector written with a tag reads clean with that tag; with one or two bytes of data or check wrong
it is corrected to the data written; read with another tag it is unwritten, or poisoned when written with 0xFF. -/
def Obligations.SectorCodeCorrects : Prop :=
  ∀ (data : Bytes) (tag : Nat), data.length = 32 → tag < 256 →
    rsDecode data (rsCheck data tag) tag = (.clean, data)
    ∧ (∀ i v, i < 32 → v ≠ 0 → rsDecode (data.set i (data.getD i 0 ^^^ v)) (rsCheck data tag) tag = (.corrected 1, data))
    ∧ (∀ i j v w, i < j → j < 32 → v ≠ 0 → w ≠ 0 →
        rsDecode ((data.set i (data.getD i 0 ^^^ v)).set j (data.getD j 0 ^^^ w)) (rsCheck data tag) tag = (.corrected 2, data))
    ∧ (∀ epoch, epoch < 256 → epoch ≠ tag →
        rsDecode data (rsCheck data tag) epoch = (if tag = 0xFF then .poisoned else .unwritten, data))

/-- R145, R146: GRAN_OP on an idle slice is recorded with BUSY and acts on the lines it selects and on no other: 0b001 and
0b110 remove them after writing back, 0b010 and 0b101 without, 0b011 clears their protection, 0b100 leaves no dirty sector; GRAN_OP_DONE
clears BUSY. A GRAN_QUOTA write is ignored when the quotas exceed 128 MiB together; otherwise it is kept and no partition
holds more protected lines than its quota.

R150, R153, R167: a pseudo-channel's held writes are issued together, oldest first, and the others stay; at a bucket's
tick a written setting takes effect and, in REGULATED mode, RATE tokens are gained up to DEPTH. The fill of a trained stack empties it,
sets every block's epoch to 1 and FILL_DONE. -/
def Obligations.GranaryAndControllers : Prop :=
  (∀ (s : State) (k asid part : Nat), k < 12 → asid < 2 ^ 16 → part < 4 →
        (∀ i op a p, (i, op, a, p) ∈ [(Instr.granWritebackInvalidateAsid k asid, 1, asid, 0), (.granInvalidateAsid k asid, 2, asid, 0),
            (.granClearProtectionAsid k asid, 3, asid, 0), (.granWritebackAll k, 4, 0, 0), (.granInvalidateAll k, 5, 0, 0),
            (.granWritebackInvalidatePart k part, 6, 0, part)] →
          ((s.stack k).gBusy = true → exec i s = .next s)
          ∧ ((s.stack k).gBusy = false → ∃ t, exec i s = .next t ∧ t = s.setStack k (t.stack k)
            ∧ (t.stack k).gBusy = true ∧ (t.stack k).gOp.toNat = op ∧ (t.stack k).gAsid.toNat = a ∧ (t.stack k).gPart.toNat = p
            ∧ (t.stack k).lines = (if op = 3 then (s.stack k).lines.map (fun l => if l.asid == asid then { l with prot := none } else l)
                else if op = 4 then (s.stack k).lines.map Line.clean
                else (s.stack k).lines.filter (fun l => !(if op = 6 then l.prot == some part else if op = 5 then true else l.asid == asid)))
            ∧ (op = 2 ∨ op = 3 ∨ op = 5 → (t.stack k).held = (s.stack k).held)))
        ∧ exec (.granOpDone k) s = .next (s.setStack k { s.stack k with gBusy := false })
        ∧ ∀ v : W64, let q := fun p => bf v (8 * p + 7) (8 * p)
          (q 0 + q 1 + q 2 + q 3 > 128 → exec (.granQuotaWrite k v) s = .next s)
          ∧ (q 0 + q 1 + q 2 + q 3 ≤ 128 → ∃ t, exec (.granQuotaWrite k v) s = .next t
            ∧ t = s.setStack k { s.stack k with quota := BitVec.ofNat 64 (v.toNat % 2 ^ 32), lines := (t.stack k).lines }
            ∧ (t.stack k).lines.map (fun l => { l with prot := none }) = (s.stack k).lines.map (fun l => { l with prot := none })
            ∧ (((s.stack k).lines.map (·.tag)).Nodup → ∀ p, p < 4 → (t.stack k).keepUsed p ≤ q p * 8192)))
    ∧ (∀ (s : State) (k pc : Nat), k < 12 →
          (∃ t, exec (.writeBatchIssue k pc) s = .next t ∧ t = s.setStack k (t.stack k)
            ∧ (t.stack k).held = (s.stack k).held.filter (fun h => !(secPc h.sector == pc))
            ∧ t.stack k = ((s.stack k).held.filter (fun h => secPc h.sector == pc)).foldl (fun st h => st.burstWrite h.sector h.data h.poison)
                { s.stack k with held := (s.stack k).held.filter (fun h => !(secPc h.sector == pc)) })
          ∧ (∃ t, exec (.bucketTick k) s = .next t ∧ t = s.setStack k { s.stack k with buckets := (t.stack k).buckets }
            ∧ ∀ (c : Nat) (b b' : Bucket) (r : W64), c < 5 → tget {} (s.stack k).buckets c = b → tget {} (t.stack k).buckets c = b' →
                r = b.new.getD b.reg → b'.reg = r ∧ b'.new = none ∧ b'.tokens = (if s.dev.priority then b.tokens
                  else min (max 64 (bf r 47 32)) (b.tokens + min 76800 (bf r 16 0))))
          ∧ ((s.stack k).trained = true → (s.stack k).fillDone = false → (s.stack k).lost = false →
            ∃ t, exec (.fillDone k) s = .next t ∧ t = s.setStack k (t.stack k) ∧ (t.stack k).raw = [] ∧ (t.stack k).lines = []
              ∧ (t.stack k).held = [] ∧ (t.stack k).fillDone = true ∧ ∀ sn, sn < 1879048192 → (t.stack k).epochOf sn = 1))

/-- R177, R179, R181, R183: an install that breaks no rule makes its entry valid with SECTOR and SPARE_ROW; one that does is
refused with REMAP_ERR and changes no entry; a remove clears the entry; the operation's end clears BUSY and OP. A retraining that fails
three times in succession loses the stack with LOSS_CAUSE 0x02; a good one clears the count. The gleaner of an enabled, serving stack
reads the sector at POSITION and moves on, skipping one that has a write waiting; a clean sector changes nothing else in memory, a
corrected one is counted in FIXED; past the last sector a lap ends. OVERDUE, once, is set and logged. -/
def Obligations.RemapRetrainGlean : Prop :=
  (∀ (s : State) (k index sector row channel : Nat), k < 12 →
    let st := s.stack k
    let e : RemapEnt := tget {} st.remap index
    let r0 : Retrain := tget {} st.retrain channel
    let refused := (e.valid = true ∧ e.sector ≠ sector) ∨ ∃ x ∈ st.remap, x.1 ≠ index ∧ x.2.valid = true
      ∧ (x.2.sector = sector ∨ (secPc x.2.sector = secPc sector ∧ x.2.spareRow = row))
    (st.remapBusy = false → ¬ refused →
      ∃ t, exec (.remapInstall k index sector (some row)) s = .next t ∧ (t.stack k).remapBusy = true
        ∧ (tget {} (t.stack k).remap index : RemapEnt).valid = true ∧ (tget {} (t.stack k).remap index : RemapEnt).sector = sector
        ∧ (tget {} (t.stack k).remap index : RemapEnt).spareRow = row
        ∧ (∀ j, j ≠ index → (tget {} (t.stack k).remap j : RemapEnt) = tget {} st.remap j)
        ∧ (t.stack k).remapErr = st.remapErr ∧ ∀ j, j ≠ k → t.stack j = s.stack j)
    ∧ (st.remapBusy = false → refused →
      exec (.remapInstall k index sector (some row)) s = .next (s.setStack k { st with
        remapErr := true, remapBusy := true, remapReg := remapOpWord 1 index row sector }))
    ∧ (st.remapBusy = false → st.remap.Pairwise (fun x y => x.1 < y.1) →
      (∀ x ∈ st.remap, x.1 ≠ index → x.2.valid = true → x.2.sector ≠ e.sector) →
      ∃ t, exec (.remapRemove k index) s = .next t ∧ (tget {} (t.stack k).remap index : RemapEnt) = {} ∧ (t.stack k).remapBusy = true
        ∧ ∀ j, j ≠ index → (tget {} (t.stack k).remap j : RemapEnt) = tget {} st.remap j)
    ∧ exec (.remapOpDone k) s = .next (s.setStack k { st with remapBusy := false, remapReg := setBf st.remapReg 63 61 0 })
    ∧ exec (.channelRetrain k channel) s = .next (s.setStack k { st with
        retrain := tset st.retrain channel { r0 with busy := true } })
    ∧ (∀ ok, r0.busy = true →
      ∃ t, exec (.channelRetrainDone k channel ok) s = .next t ∧ t = s.setStack k (t.stack k)
        ∧ tget {} (t.stack k).retrain channel
            = ({ busy := false, fails := if ok then 0 else r0.fails + 1 } : Retrain)
        ∧ ((t.stack k).lost = true ↔ st.lost = true ∨ (ok = false ∧ 2 ≤ r0.fails))
        ∧ (ok = false → 2 ≤ r0.fails → st.lost = false → (t.stack k).lossCause = 2)))
  ∧ (∀ (s : State) (k : Nat), k < 12 →
    ((s.stack k).glean.ctl.getLsbD 31 = true → (s.stack k).serves = true → (s.stack k).glean.pos + 1 < 1879048192 →
      ∃ t, exec (.gleanerRead k) s = .next t ∧ (t.stack k).glean.pos = (s.stack k).glean.pos + 1
        ∧ (t.stack k).glean.laps = (s.stack k).glean.laps ∧ (∀ j, j ≠ k → t.stack j = s.stack j)
        ∧ (((s.stack k).held.any (fun h => h.sector == (s.stack k).glean.pos) = true ∨
            (((s.stack k).burstRead (s.stack k).glean.pos).1 = .clean)) → (t.stack k).raw = (s.stack k).raw)
        ∧ (∀ n, (s.stack k).held.any (fun h => h.sector == (s.stack k).glean.pos) = false →
            ((s.stack k).burstRead (s.stack k).glean.pos).1 = .corrected n →
            (t.stack k).glean.curFixed = satAdd (s.stack k).glean.curFixed 1))
    ∧ ((s.stack k).glean.ctl.getLsbD 31 = true → (s.stack k).serves = true → (s.stack k).glean.pos + 1 = 1879048192 →
      ∃ t, exec (.gleanerRead k) s = .next t ∧ (t.stack k).glean.pos = 0 ∧ (t.stack k).glean.laps = (s.stack k).glean.laps + 1
        ∧ (t.stack k).glean.overdue = false)
    ∧ ((s.stack k).glean.overdue = false →
      ∃ t, exec (.gleanOverdue k) s = .next t ∧ t = { s.setStack k { s.stack k with glean := { (s.stack k).glean with overdue := true } } with log := t.log }))

/-! ## Address translation (chapter 09) -/

/-- R225, R226, R231, R232, R233, R235, R236: a walk reads the ASID table's entry and the three tables' entries in turn. With valid, well-formed table
entries and a good leaf that passes the filter, the translation enters the shared TLB and the client's; an L2 entry with VALID clear
faults NOT_MAPPED or OFFLOADED: the access takes a wait slot and the fault message leaves for the collector. -/
def Obligations.PageWalk : Prop :=
  ∀ (s : State) (d : Nat) (client : W32) (asid va acc ns a e0 e1 e2 : Nat) (s0 s1 s2 s3 s4 : State) (iss : Issuer) (x : XlateState), d < 16 →
    va < 2 ^ 52 → (s.xl d).asidReg.getLsbD 0 = true → iss = { unit := client, asid := asid, cls := 4 } →
    s0 = s.setXl d { s.xl d with count := cnt (cnt (s.xl d).count 1 1) 2 ns } →
    s0.tableRead iss (bf (s.xl d).asidReg 51 16 * 65536 + asid * 8) = (some a, s1) →
    s1.tableRead iss (nf a 51 16 * 65536 + nf va 51 42 * 8) = (some e0, s2) →
    s2.tableRead iss (nf e0 51 16 * 65536 + nf va 41 29 * 8) = (some e1, s3) →
    s3.tableRead iss (nf e1 51 16 * 65536 + nf va 28 16 * 8) = (some e2, s4) →
    nbit a 0 = true → nbit e0 0 = true → nbit e0 1 = false → tableGood e0 = true → nbit e1 0 = true → nbit e1 1 = false → tableGood e1 = true →
    x = s4.xl d →
    (∀ e, nbit e2 0 = true → nbit e2 1 = true → leafGood e2 false = true → nbit e2 10 = false →
      (nf e2 3 2 ≠ 0 ∨ XlateState.passes (s.xl d) s4.dev.spreadS (nf a 2 1) (nf e2 51 16 * 65536) 65536 = true) →
      e = { asid := asid, base := va / 65536 * 65536, log2 := 16, leaf := BitVec.ofNat 64 e2 } →
      exec (.pageWalkComplete d client asid va acc ns) s = .next (s4.setXl d { x with
        tlb := tlbPut 8192 e x.tlb, ctlb := tset x.ctlb client.toNat (tlbPut 32 e (x.ctlbOf client)) })
      ∧ e.covers asid va = true ∧ (nf e2 3 2 = 0 → e2 < 2 ^ 64 → e.target va = .dev (nf e2 51 16 * 65536 + va % 65536) (nf e2 9 8)))
    ∧ (∀ w : WaitSlot, nbit e2 0 = false → w = { client := client, asid := asid, va := va, cause := if nbit e2 11 then 2 else 1, acc := acc } →
      x.slots.length < 64 →
      (∀ y ∈ x.slots ++ x.overflow, ¬ (y.client = client ∧ y.asid = asid ∧ y.va / 65536 = va / 65536)) →
      exec (.pageWalkComplete d client asid va acc ns) s = .next { s4.setXl d { x with slots := x.slots ++ [w], count := cnt x.count 3 1 } with
        bag := { s4.bag with msgs := s4.bag.msgs ++
          [{ page := va / 65536 * 65536, asid := asid, cause := w.cause, acc := acc, die := d, client := client, time := s4.time }] } })

/-- R240, R241: a replay or cancel releases the wait slots of the ASID and page and no other; a control processor that
waited goes on, or under a cancel takes its page fault; under a cancel a transfer engine's descriptor with a part on the page stops with
STATUS 0x02. An invalidation drops the overlapping entries of the shared TLB and waits for every client; a client's acknowledgement leaves no
overlapping entry in its TLB nor line in its core and cluster cache. -/
def Obligations.ReplayCancelInvalidate : Prop :=
  ∀ (s : State) (d asid page va len : Nat), d < 16 →
    (∀ cancel i, (i = .translateReplay d asid page ∧ cancel = false) ∨ (i = .translateCancel d asid page ∧ cancel = true) →
      (s.xl d).overflow = [] → (∀ w ∈ (s.xl d).slots, ∃ h, h < 2016 ∧ w.client = uidCore h) →
      ∃ t, exec i s = .next t ∧ { t with xlate := s.xlate, cores := s.cores } = s
        ∧ (t.xl d).slots = (s.xl d).slots.filter (fun w => !(w.asid == asid && w.va / 65536 == page / 65536))
        ∧ (∀ g, t.core g = { s.core g with cp := { (s.core g).cp with stall := (t.core g).cp.stall } })
        ∧ ∀ g v acc, g < 2016 → (s.core g).cp.stall = .fault v acc →
          (t.core g).cp.stall = (if (∃ w ∈ (s.xl d).slots, w.client = uidCore g ∧ w.asid = asid ∧ w.va / 65536 = page / 65536) ∧ v / 65536 = page / 65536
            then (if cancel then .cancelled v acc else .none) else .fault v acc))
    ∧ (∀ c r w, c < 252 → (s.xl d).overflow = [] → (s.xl d).slots = [w] → w.client = uid 0x07 c → w.asid = asid → w.va / 65536 = page / 65536 →
      (s.cluster c).dma.running = [r] → r.status = none → r.asid = asid → dFlag r.desc 3 = false → dFlag r.desc 5 = false →
      (∃ p ∈ r.todo, (dDst r.desc p.1 + p.2.1) / 65536 = page / 65536 ∧ 0 < p.2.2) →
      ∃ t, exec (.translateCancel d asid page) s = .next t ∧ (t.cluster c).dma.running = [{ r with status := some 2 }] ∧ (t.xl d).slots = [])
    ∧ exec (.translateInvalidate d asid va len) s = .next (s.setXl d { s.xl d with
        tlb := (s.xl d).tlb.filter (fun e => !e.overlaps asid va len), wcache := (s.xl d).wcache.filter (fun e => e.asid != asid)
        invals := (s.xl d).invals ++ [{ asid := asid, va := va, len := len, clients := unitClients d, sent := s.time }] })
    ∧ ∀ g c i rest, g < 2016 → (s.xl d).invals = i :: rest → i.clients = uidCore g :: c :: [] → c ≠ uidCore g →
      ∃ t, exec (.translateAck d (uidCore g)) s = .next t ∧ (t.xl d).invals.head? = some { i with clients := [c] }
        ∧ (∀ e ∈ (t.xl d).ctlbOf (uidCore g), e.overlaps i.asid i.va i.len = false)
        ∧ (∀ l ∈ (t.core g).cache, overLine i.asid i.va i.len l = false)
        ∧ (∀ l ∈ (t.cluster (g / 8)).cache, overLine i.asid i.va i.len l = false)
        ∧ tget 0 (t.xl d).count 4 = tget 0 (s.xl d).count 4 + 1

/-! ## Package networks (chapter 10) -/

/-- R251, R253, R254, R261, R262: a request whose tag is free is outstanding at its interface. Where its route holds, a READ
of device memory is answered with DATA that carries the bytes read and the code, a WRITE with an ACK once written, a MEMOP with an ACK
(and, but for ADD, the old value); a MARK write of a whole block lands in a free block, sets its FULL bit and is acknowledged. Without a
route the request is answered with 0x06 and logged; with a control parity error it has no effect, is logged, and is answered with 0x06 where
SRC passed parity. Damaged data arrive as poison. -/
def Obligations.NetworkRequests : Prop :=
  ∀ (s s1 s2 : State) (i d r fmt n k a old : Nat) (f : Nat → Nat) (p : Packet) (st : MemSt) (bs : PBytes), (s.ifRouter i).isSome = true →
    (∀ q ∈ (s.nif i).reqs, q.tag ≠ p.tag) → (∀ q ∈ (s.nif i).retired, q.1 ≠ p.tag) →
    s1 = s.setNif i { s.nif i with reqs := (s.nif i).reqs ++ [{ tag := p.tag, typ := p.typ, time := s.time }]
                                   stat := cnt (cnt (s.nif i).stat 0 p.data.length) 2 1 } →
    (∀ ack : Packet, ack = { typ := 9, tag := p.tag, group := p.group, addr := p.addr } →
      (s1.routed i p (s1.destDie p false) = true → place s.dev.spreadS p.addr.toNat = .dev k a →
        (1 ≤ p.code.toNat → p.code.toNat ≤ 16 → s1.devRead (s1.pktIss i p) p.addr.toNat (32 * p.code.toNat) p.hint.toNat = (bs, st, s2) →
          exec (.packetRead i p false .good d r) s = .next (s2.respond i { ack with
            typ := 8, code := BitVec.ofNat 8 st.code, poison := bs.any (·.2) || st.code == 3, data := bs.map (·.1) }))
        ∧ (∀ par, par = .good ∨ par = .data → p.data.length ≤ 512 →
          s1.devWriteM (s1.pktIss i p) p.addr.toNat (mark (p.poison || par == .data) p.data) p.mask p.hint.toNat = (st, s2) →
          exec (.packetWrite i p false par d r) s = .next (s2.respond i { ack with code := BitVec.ofNat 8 st.code, poison := st.code == 3 }))
        ∧ (memopFn p.code.toNat fmt (unle p.data) = some (n, f) → s1.memop (s1.pktIss i p) p.addr.toNat n f = (old, st, s2) →
          exec (.packetMemop i p fmt .good d r) s = .next (s2.respond i { ack with
            code := BitVec.ofNat 8 st.code, poison := st.code == 3, data := if p.code = 0 ∨ st ≠ .ok then [] else le n old })))
      ∧ (∀ g b, s1.routed i p (s1.destDie p true) = true → g = lfCore p.addr.toNat → b = lfAddr p.addr.toNat / 512 → g < 2016 →
        s.guestCore g = false → lfAddr p.addr.toNat % 512 = 0 → lfAddr p.addr.toNat < clHopEnd → p.data.length = 512 →
        p.mask % 2 ^ 512 + 1 = 2 ^ 512 → (s.core g).stopped = false → (s.core g).scrub = false → b ∉ (s.core g).full →
        ∃ t : State, exec (.packetMarkWrite i p .good d r) s = .next (t.respond i ack) ∧ { t with cores := s.cores } = s1
          ∧ (∀ h, h ≠ g → t.core h = s.core h) ∧ (∀ x, x ∈ (t.core g).full ↔ x = b ∨ x ∈ (s.core g).full)
          ∧ (t.core g).rdm (b * 512) 512 = p.data ∧ CoreState.memKept (b * 512) 512 (s.core g) (t.core g)
          ∧ t.core g = { s.core g with full := (t.core g).full, mem := (t.core g).mem, poison := (t.core g).poison })
      ∧ ∀ j typ par, (j, typ) ∈ [(Instr.packetRead i p false par d r, (8 : BitVec 4)), (.packetWrite i p false par d r, 9),
          (.packetMemop i p fmt par d r, 9)] →
        (s1.routed i p (s1.destDie p false) = false → exec j s = .next ((s1.respond i { ack with typ := typ, code := 6 }).logAt 0x0301 (ifUnit i)
          p.addr.toNat (le 2 p.src.toNat ++ le 2 p.group.toNat)))
        ∧ (s1.routed i p (s1.destDie p false) = true →
          (par = .ctl → exec j s = .next (s1.logAt 0x0302 (ifUnit i) 0 (le 4 (uidRouter d r).toNat)))
          ∧ (par = .ctlSrc → exec j s = .next ((s1.logAt 0x0302 (ifUnit i) 0 (le 4 (uidRouter d r).toNat)).respond i { ack with typ := typ, code := 6 }))))

/-- R251, R261, R262, R270, R477: a response that reaches its interface ends the request of its tag and reports the
transfer status of its code with its data; it counts bytes and packets in. A response whose tag is retired is absorbed and frees the tag. A
request that stays unanswered for 2 ms after a control parity error ends with code 0x06, which is status 0x01.

R259, R260: a circular at a router whose entry is not valid is answered with 0x06 and logged. One that an entry copies
takes a tracker that counts its outputs, or waits when all 256 are taken. A CIRC_ACK takes its output off the tracker and keeps the more
severe code; the last one frees the tracker, and one CIRC_ACK with that code goes back. A circular write that a core has held for more than
1 ms is logged with GROUP and SRC, and its millisecond starts again. -/
def Obligations.ResponsesAndCirculars : Prop :=
  (∀ (s : State) (i : Nat) (p : Packet) (q : OutReq) (rest : List Packet) (qs : List OutReq) (e : Instr), (s.ifRouter i).isSome = true →
        (i < 252 → s.guestSite (i / 21) = false) →
        ((e = .packetData i ∧ p.typ = 8 ∧ (s.nif i).inbox = p :: rest) ∨ (e = .packetAck i ∧ p.typ = 9 ∧ (s.nif i).inbox = p :: rest)
          ∨ (e = .requestTimeout i p.tag ∧ p = { typ := 9, tag := p.tag, code := 6 } ∧ (s.nif i).inbox = rest)) →
        ((s.nif i).reqs = q :: qs → q.tag = p.tag →
          ∃ t, exec e s = .next t ∧ (t.nif i).reqs = qs ∧ (t.nif i).inbox = rest
            ∧ t.out = .netDone i p.tag (codeStatus p.code.toNat) p.data :: s.out
            ∧ tget 0 (t.nif i).stat 1 = tget 0 (s.nif i).stat 1 + BitVec.ofNat 64 p.data.length ∧ tget 0 (t.nif i).stat 3 = tget 0 (s.nif i).stat 3 + 1
            ∧ (t.nif i) = { s.nif i with reqs := qs, inbox := rest, stat := (t.nif i).stat }
            ∧ { t with netIf := s.netIf, out := s.out } = s ∧ ∀ j, j ≠ i → t.nif j = s.nif j)
        ∧ ((∀ y ∈ (s.nif i).reqs, y.tag ≠ p.tag) → (∃ y ∈ (s.nif i).retired, y.1 = p.tag) →
          ∃ t, exec e s = .next t ∧ (t.nif i).absorbed = (s.nif i).absorbed + 1 ∧ (t.nif i).inbox = rest ∧ (∀ y ∈ (t.nif i).retired, y.1 ≠ p.tag)
            ∧ t = s.setNif i (t.nif i)))
    ∧ ((∀ (s : State) (d r : Nat) (p : Packet), routerExists d r = true → p.src.toNat ≠ d * 4096 + r → (s.router d r).stuck = [] →
          ((tget 0 (s.router d r).circ p.group.toNat).getLsbD 63 = false →
            exec (.packetCircWrite d r p .good) s = .next ((s.emit (.circAck d r p.group.toNat 6 p.src p.tag)).logAt 0x0301 (uidRouter d r) p.addr.toNat
              (le 2 p.src.toNat ++ le 2 p.group.toNat)))
          ∧ (∀ o x y, tget 0 (s.router d r).circ p.group.toNat = (1#64 <<< 63) ||| (1#64 <<< o) → o < 5 → meshNbr d r o = some (x, y) →
            (4 ≤ x → s.guestSite (x - 4) = false) → (s.router d r).waiting = [] → (s.router d r).trackers.length < 256 →
            exec (.packetCircWrite d r p .good) s = .next ((s.emit (.circCopy d r o p)).setRouter d r { s.router d r with
              trackers := (s.router d r).trackers ++ [{ group := p.group.toNat, src := p.src, tag := p.tag, left := [o], code := 0 }] }))
          ∧ ((tget 0 (s.router d r).circ p.group.toNat).getLsbD 63 = true → (s.router d r).trackers.length = 256 →
            exec (.packetCircWrite d r p .good) s = .next (s.setRouter d r { s.router d r with waiting := (s.router d r).waiting ++ [p] }))
          ∧ (∀ o t ts left, (s.router d r).trackers = t :: ts → t.group = p.group.toNat → t.src = p.src → t.tag = p.tag → t.left = o :: left →
            (left ≠ [] → exec (.packetCircAck d r o p) s = .next (s.setRouter d r { s.router d r with
              trackers := { t with left := left, code := max t.code p.code.toNat } :: ts }))
            ∧ (left = [] → (s.router d r).waiting = [] → exec (.packetCircAck d r o p) s = .next
                ((s.setRouter d r { s.router d r with trackers := ts }).emit (.circAck d r p.group.toNat (max t.code p.code.toNat) p.src p.tag)))))
        ∧ ∀ (s : State) (g : Nat) (h : HeldMark) (hs : List HeldMark), g < 2016 → (s.core g).heldMarks = h :: hs → h.circ = true → h.since + 1000000 < s.time →
          exec (.circularHeld g) s = .next ((s.setCore g { s.core g with heldMarks := { h with since := s.time } :: hs }).logAt 0x0303 (uidCore g) 0
            (le 2 h.group ++ le 2 h.src.toNat)))

/-- R266, R469: an INTERRUPT stands at the sorting-office core it names and a CONTROL message at its unit, with at most
three payload words; a message of a reserved TYPE is discarded with an entry. A broadcast starts with its size, takes its counts while it is
open, and its end releases every core of a populated site in machine mode at the boot block and touches nothing else of a core. -/
def Obligations.PostMessagesAndBroadcast : Prop :=
  ∀ (s : State) (hdr payload : W64) (ps : List W64) (n : Nat),
    (bf hdr 63 60 = 3 → bf hdr 59 52 = 0x0D → bf hdr 51 36 < 32 →
      exec (.postInterrupt hdr payload) s = .next { s with mail := s.mail ++ [{ hdr := hdr, payload := [payload] }] })
    ∧ (bf hdr 63 60 = 4 → exec (.postControl hdr ps) s = .next { s with mail := s.mail ++ [{ hdr := hdr, payload := ps.take 3 }] })
    ∧ (8 ≤ bf hdr 63 60 → ∃ u e, exec (.postControl hdr ps) s = .next (s.logAt 0x0304 u 0 e))
    ∧ exec (.broadcastStart n) s = .next { s with bcast := { active := true, bytes := n, count := 0 } }
    ∧ exec (.broadcastCount n) s = .next (if s.bcast.active then { s with bcast := { s.bcast with count := n } } else s)
    ∧ (s.bcast.active = true → ∃ t, exec .broadcastEnd s = .next t ∧ { t with cores := s.cores } = { s with bcast := { s.bcast with active := false } }
      ∧ ∀ g, t.core g = if g < 2016 ∧ s.guestCore g = false ∧ (s.site (siteOfCore g)).mode ≠ .down then
          { s.core g with cp := { (s.core g).cp with inReset := false, pc := 0xFFFFFFF0B0000, mach := true, stall := .none } } else s.core g)

/-! ## Chiplet sites and bridges (chapter 11) -/

/-- Site n alone differs, beside the device's GENERATION, the log and what leaves the device. -/
def siteKept (n : Nat) (s t : State) : Prop :=
  { t with sites := s.sites, dev := s.dev, log := s.log, out := s.out } = s ∧ t.dev = { s.dev with generation := t.dev.generation }
    ∧ ∀ m, m ≠ n → t.site m = s.site m

/-- R58, R275, R280–R285: a site that waits for its block accepts a good one and sends a 64-byte grant block with its number, attachments,
P_MIN, voltages and CRC; GRANT_OK leads to training, training to LINK_UP, LINK_UP to UP and unfenced, each with nothing else of
the site changed. A bad block, a missing one, no GRANT_OK, a bundle with more than 8 faulty wires, an array narrower than 14 rows and a wrong
or missing firmware digest each make the site down with its cause. A down site is fenced, has no rails, no attachments and no valid
route; in operation its partition takes the error. -/
def Obligations.SiteComesUpOrGoesDown : Prop :=
  ∀ (s : State) (n : Nat) (x : SiteState) (b d : Bytes) (w : Tbl (List Nat)), n < 12 → x = s.site n →
    (x.wait = .block → (cbGood (s.guestSite n) b = true → cbMaker (s.guestSite n) b = true →
        ∃ t g, exec (.capabilityBlockRead n b) s = .next t ∧ siteKept n s t ∧ t.out = .site n (.grant g) :: s.out
          ∧ t.site n = { x with block := slice b 0 256, wait := .grantOk, version := 1, attachEn := BitVec.ofNat 24 (cbAttach b), pGrant := cbPmin b, grant := g }
          ∧ g.length = 64 ∧ rd g 0 4 = 0x3147534D ∧ rdb g 5 = n ∧ rd g 8 4 = cbAttach b ∧ rd g 12 2 = n * 168 ∧ rd g 18 2 = cbPmin b
          ∧ rd g 20 2 = x.vcomp % 65536 ∧ rd g 22 2 = x.vsram % 65536 ∧ rd g 60 4 = crc32c (g.take 60))
      ∧ (cbGood (s.guestSite n) b = false → exec (.capabilityBlockRead n b) s = .next ((s.setSite n { x with block := slice b 0 256 }).siteDown n 2))
      ∧ exec (.tBootTimeout n) s = .next (s.siteDown n 1))
    ∧ (x.wait = .grantOk → (∃ t, exec (.grantOk n) s = .next t ∧ siteKept n s t ∧ t.out = s.out ∧ t.site n = { x with mode := .training, wait := .wires })
      ∧ exec (.grantOkTimeout n) s = .next (s.siteDown n 3))
    ∧ (x.wait = .wires → exec (.siteTrainingDone n w) s = .next (if ∃ e ∈ w, 8 < e.2.length then s.siteDown n 4
        else s.setSite n { x with wait := .linkUp, spares := w.filter (fun e => decide (e.1 < 128)), frames := [] }))
    ∧ (x.wait = .linkUp →
      (s.guestSite n = true ∨ s.narrowArray n = none → ∃ t, exec (.siteLinkUp n) s = .next t ∧ siteKept n s t ∧ t.out = .site n .linkUp :: s.out
        ∧ t.site n = { x with mode := .up, wait := .none, fence := false, again := false, reqs := [], answers := [], samples := [], ovr := false, throttled := false })
      ∧ (∀ a, s.guestSite n = false → s.narrowArray n = some a → x.mode ≠ .down →
          ∃ t, exec (.siteLinkUp n) s = .next t ∧ (t.site n).mode = .down ∧ (t.site n).cause = 9 ∧ (t.site n).array = a))
    ∧ (s.guestSite n = true → x.mode = .up → slice x.block 64 32 ≠ zeros 32 →
      exec (.fwLoaded n) s = .next ((s.setSite n { x with fwWait := true, digest := [] }).emit (.site n .fwLoaded)))
    ∧ (x.fwWait = true → exec (.guestDigestTimeout n) s = .next (s.siteDown n 5)
      ∧ ∀ u, u = s.setSite n { x with fwWait := false, digest := slice d 0 32 } →
        exec (.guestDigestReport n d) s = .next (if d = slice (tget [] s.dev.image.digests (16 + n)) 0 32 ∧ d = slice x.block 64 32 then u else u.siteDown n 5))
    ∧ ∀ c t, x.mode ≠ .down → t = s.siteDown n c → (t.site n).mode = .down ∧ (t.site n).cause = BitVec.ofNat 8 c ∧ (t.site n).fence = true
      ∧ (t.site n).attachEn = 0 ∧ (t.site n).vcomp = 0 ∧ (t.site n).vsram = 0 ∧ (t.site n).wait = .none
      ∧ (∀ i k, k / 4 = 4 + n → (tget 0 (t.nif i).alt k).getLsbD 63 = false)
      ∧ (s.dev.mode = .ready → s.dev.layout = 1 → (s.part 0).phase = .none → (0x0401, s.time) ∈ (t.part 0).reports)

/-- R291, R295, R480: a site reset of an UP site sends RESET_REQ and turns to RESETTING; at QUIESCED reset is asserted, the
site is fenced, its interfaces' tags are retired and a Varoft die's cores hold their reset values; then the site starts again on the boot
rails, or stays. Writing SITE_CTL.RESET of a site that is not UP has no effect. A request held for 2 ms is answered with 0x01 and
counted; more than 16 within 1 s, or credits held back, put the die through the handshake and then down with cause 0x07. A guest site
that has not come back in time is down with the cause of the step it had reached (log 61). -/
def Obligations.SiteResets : Prop :=
  ∀ (s : State) (n : Nat) (x : SiteState), n < 12 → x = s.site n →
    (x.mode = .up →
      (∀ e again, (e = .siteResetReq n again ∨ e = .siteCtlReset n ∧ again = true) → ∃ t, exec e s = .next t ∧ siteKept n s t
        ∧ t.out = .site n .resetReq :: s.out ∧ t.site n = { x with mode := .resetting, wait := .none, again := again, fwWait := false })
      ∧ (∃ t, exec (.siteCreditTimeout n) s = .next t ∧ siteKept n s t ∧ t.out = .site n .resetReq :: s.out
        ∧ t.site n = { x with mode := .resetting, wait := .none, again := false, fwWait := false, cause := 7 }))
    ∧ (x.mode ≠ .up → exec (.siteCtlReset n) s = .next s)
    ∧ (x.mode = .resetting → x.fence = false → x.reqs = [] → ∃ t, exec (.quiesced n) s = .next t
      ∧ (t.site n).fence = true ∧ (∀ m, m ≠ n → t.site m = s.site m) ∧ t.hbm = s.hbm
      ∧ (∀ i, i / 21 = n → (t.nif i).reqs = [] ∧ ∀ q ∈ (s.nif i).reqs, (q.tag, s.time) ∈ (t.nif i).retired) ∧ (∀ i, i / 21 ≠ n → (t.nif i).reqs = (s.nif i).reqs)
      ∧ (∀ g, t.core g = if s.guestSite n = false ∧ g / 168 = n then {} else s.core g)
      ∧ (x.cause = 0 → x.again = true → (t.site n).mode = .negotiating ∧ (t.site n).wait = .block ∧ (t.site n).vcomp = 700 ∧ (t.site n).vsram = 800
          ∧ (t.site n).attachEn = 0 ∧ t.out = .site n .pwrOk :: .site n .resetRelease :: .site n .resetAssert :: s.out)
      ∧ (x.cause = 0 → x.again = false → t.site n = { x with fence := true, frames := [] } ∧ t.out = .site n .resetAssert :: s.out)
      ∧ (x.cause ≠ 0 → (t.site n).mode = .down ∧ (t.site n).cause = x.cause))
    ∧ (∀ q qs i, x.reqs = q :: qs → q.iface = some i → ∃ t, exec (.siteRequestTimeout n q.att q.tag) s = .next t ∧ (t.site n).reqs = qs
      ∧ (t.nif i).inbox = (s.nif i).inbox ++ [{ typ := if q.typ = 0 then 8 else 9, tag := q.tag, code := 1 }]
      ∧ tget 0 (t.site n).err 4 = tget 0 x.err 4 + 1
      ∧ (x.mode = .up → (x.late.filter (fun u => decide (s.time - u < 1000000000))).length < 16 → (t.site n).mode = .up
          ∧ t.site n = { x with reqs := qs, err := (t.site n).err, late := x.late.filter (fun u => decide (s.time - u < 1000000000)) ++ [s.time] })
      ∧ (x.mode = .up → 16 ≤ (x.late.filter (fun u => decide (s.time - u < 1000000000))).length → (t.site n).mode = .resetting ∧ (t.site n).cause = 7
          ∧ (t.site n).again = false))
    ∧ (s.guestSite n = true → (s.part (s.partOfSite n)).phase ≠ .none → x.mode ≠ .up →
      exec (.guestSiteReturnTimeout n) s = .next (s.siteDown n (match x.wait with | .block => 1 | .grantOk => 3 | .wires => 4 | .linkUp => 4 | .none => 7)))

/-- R276–R278, R282, R288, R290, R292, R298: a good frame in order advances the sequence, an acknowledgement frees the replay
buffer, a frame acknowledged as bad is replayed with those after it in order and counted; the fifth failure of a frame in a row retrains the
bundle, and a bundle that then needs more than 8 spares fails the site; on a bridge it disables the module (log 62). A packet of a guest
die that the table passes does what the same packet of its interface does, with SRC and CLASS filled in; one that it refuses is counted,
logged and answered with 0x02; a response ends its open request. P_GRANT is clamped and sent; a die more than 10% over its grant
for 1 ms is throttled, then lowered to VCOMP_MIN, then down with cause 0x06. -/
def Obligations.SiteTraffic : Prop :=
  ∀ (s : State) (n : Nat) (x : SiteState), n < 12 → x = s.site n →
    (∀ b (f : FrameLink) seq ack rest, x.mode = .up → (∀ e ∈ x.frames, e.2.retrain = false) → b < 64 → f = tget {} x.frames b → f.replay = ack :: rest → f.replay.length ≤ 64 →
      (∃ t, exec (.siteFrame n b f.rxSeq true ack true) s = .next t ∧ t.out = .frame (uidSite n) b f.txSeq f.rxSeq true :: s.out ∧ t.log = s.log
        ∧ t.site n = { x with err := (t.site n).err, frames := tset x.frames b { f with rxSeq := f.rxSeq + 1, fails := 0, txSeq := f.txSeq + 1, replay := rest ++ [f.txSeq] } })
      ∧ (f.fails < 4 → ∃ t, exec (.siteFrame n b seq false ack false) s = .next t
        ∧ t.out = f.replay.reverse.map (fun q => .frame (uidSite n) b q seq false) ++ s.out ∧ t.log = s.log
        ∧ tget 0 (t.site n).err 0 = tget 0 x.err 0 + BitVec.ofNat 64 (f.replay.length + 1)
        ∧ t.site n = { x with err := (t.site n).err, frames := tset x.frames b { f with fails := f.fails + 1 } })
      ∧ (4 ≤ f.fails → ∃ t, exec (.siteFrame n b seq false ack true) s = .next t ∧ (tget {} (t.site n).frames b : FrameLink).retrain = true
        ∧ tget 0 (t.site n).err 1 = tget 0 x.err 1 + 1))
    ∧ (∀ b (f : FrameLink) (w : List (List Nat)), f = tget {} x.frames b → f.retrain = true → exec (.bundleRetrainDone n b w) s = .next (if ∃ e ∈ w, 8 < e.length then s.siteDown n 8
        else s.setSite n { x with frames := tset x.frames b { f with retrain := false }
                                  spares := tset (tset x.spares (2 * b) (w.getD 0 [])) (2 * b + 1) (w.getD 1 []) }))
    ∧ (∀ r m (f : FrameLink) ack rest, r < 4 → m < 16 → (s.bridge r).trained = true → (s.bridge r).disabled.getLsbD m = false → f = tget {} (s.bridge r).frames m →
      f.replay = ack :: rest → f.replay.length ≤ 64 →
      (∀ h : FrameLink, h = { f with rxSeq := f.rxSeq + 1, fails := 0, txSeq := f.txSeq + 1, replay := rest ++ [f.txSeq] } →
        exec (.bridgeFrame r m f.rxSeq true ack true) s = .next
          ((s.setBridge r { s.bridge r with frames := tset (s.bridge r).frames m h }).emit (.frame (uid 0x10 r) m f.txSeq f.rxSeq true)))
      ∧ (4 ≤ f.fails → ∃ t, exec (.bridgeFrame r m f.rxSeq false ack true) s = .next t ∧ (t.bridge r).disabled = (s.bridge r).disabled ||| (1#16 <<< m)
        ∧ ∀ j, j ≠ r → t.bridge j = s.bridge j))
    ∧ (∀ a vc fmt p q loc par d r i u, s.guestSite n = true → a < 21 → x.mode = .up → x.attachEn.getLsbD a = true → i = n * 21 + a →
      q = { p with src := BitVec.ofNat 16 ((4 + n) * 4096 + a), srcPort := 0, cls := BitVec.ofNat 3 (s.partOfSite n) } →
      u = ((s.siteErr n 2 1).logAt 0x0402 (uidSite n) p.addr.toNat [BitVec.ofNat 8 p.typ.toNat]) →
      (s.ingressPass n a vc q loc = true →
        (∀ e, (e, p.typ) ∈ [(Instr.packetRead i q loc par d r, (0 : BitVec 4)), (.packetWrite i q loc par d r, 1), (.packetMemop i q fmt par d r, 2),
            (.packetMarkWrite i q par d r, 3)] →
          ∃ t, exec (.siteIngress n a vc fmt p loc par d r) s = .next t ∧ exec e s = .next t)
        ∧ (p.typ = 4 → (s.netIssue i q).1 = true → exec (.siteIngress n a vc fmt p loc .good d r) s =
            .next ((s.netIssue i q).2.circArrive (siteRouter n a).1 (siteRouter n a).2 q)))
      ∧ (p.typ.toNat < 8 → s.ingressPass n a vc q loc = false → exec (.siteIngress n a vc fmt p loc par d r) s = .next (u.emit (.dieResponse n a
          { typ := if p.typ = 0 then 8 else if p.typ = 4 then 0xA else 9, tag := p.tag, code := 2, group := p.group })))
      ∧ (p.typ = 8 → (∀ o ∈ x.reqs, ¬ (o.att = a ∧ o.tag = p.tag)) → exec (.siteIngress n a vc fmt p loc par d r) s = .next u)
      ∧ (∀ o os j, p.typ = 8 → vc = 1 → x.reqs = o :: os → o.att = a → o.tag = p.tag → o.typ = 0 → o.iface = some j →
          exec (.siteIngress n a vc fmt p loc par d r) s = .next ((s.setSite n { x with reqs := os }).respond j
            { typ := 8, tag := p.tag, code := p.code, poison := p.poison, data := p.data })))
    ∧ (∀ v e w, x.block ≠ [] → ((e = .sitePowerGrantWrite n v ∧ w = v)
          ∨ (e = .guestGrantRequest n v ∧ s.guestSite n = true ∧ x.mode = .up ∧ w = min v ((s.pd n).share / 8))) →
      ∃ t g, exec e s = .next t ∧ t.out = .site n (.grant g) :: s.out ∧ { t with sites := s.sites, pwr := s.pwr, out := s.out } = s
        ∧ (∀ m, m ≠ n → t.site m = s.site m)
        ∧ t.site n = { x with pGrant := max (cbPmin x.block) (min w (cbPmax x.block)), grant := g } ∧ rd g 18 2 = (t.site n).pGrant % 65536)
    ∧ (∀ v l, x.mode = .up → s.guestSite n = true → l = (v :: x.samples).take 16 →
      (l.length < 16 ∨ l.sum / l.length * 10 ≤ x.pGrant * 11 → exec (.sitePowerCheck n v) s =
        .next (s.setSite n { x with samples := l, pNow := l.sum / l.length, ovr := false, throttled := false }))
      ∧ (l.length = 16 → x.pGrant * 11 < l.sum / 16 * 10 →
        (x.ovr = false → ∃ t, exec (.sitePowerCheck n v) s = .next t ∧ t.out = .site n (.throttle x.pGrant) :: s.out ∧ tget 0 (t.site n).err 5 = tget 0 x.err 5 + 1
          ∧ t.site n = { x with samples := l, pNow := l.sum / 16, ovr := true, throttled := true, overSince := s.time, err := (t.site n).err })
        ∧ (x.ovr = true → s.time - x.overSince < 1000000 → exec (.sitePowerCheck n v) s = .next (s.setSite n { x with samples := l, pNow := l.sum / 16 }))
        ∧ (x.ovr = true → 1000000 ≤ s.time - x.overSince → s.time - x.overSince < 10000000 →
            exec (.sitePowerCheck n v) s = .next (s.setSite n { x with samples := l, pNow := l.sum / 16, vcomp := rd x.block 108 2 }))
        ∧ (x.ovr = true → 10000000 ≤ s.time - x.overSince →
            exec (.sitePowerCheck n v) s = .next ((s.setSite n { x with samples := l, pNow := l.sum / 16 }).siteDown n 6))))

/-! ## Zelov links (chapter 12) -/

/-- Port l alone differs, beside the tables that firmware rewrites, the log and what leaves the device. -/
def portKept (l : Nat) (s t : State) : Prop :=
  { t with links := s.links, log := s.log, out := s.out } = s ∧ (∀ o, o ≠ l → t.port o = s.port o) ∧ t.links.device = s.links.device

/-- R303–R309, R315–R317: a port that sees signal sends HELLO; a HELLO with good lanes at both ends brings it UP at the
largest width they allow, with SEQ at 0; its own device number makes it DOWN. A flit in order is accepted and acknowledged; one out of
order or damaged sets NAK; a NAK sends the replay buffer again in order; an ACK frees it. A loss leads to RETRAINING with the replay buffer
kept, and after 10 ms to DOWN: every request of it ends with 0x05, and a partner without an UP port left is fenced. PORT_DOWN takes the named
port down, FAREWELL fences or takes the port down, a POST entry reaches post router 3 of the port's die. -/
def Obligations.PortsTrainAndFall : Prop :=
  ∀ (s : State) (l : Nat) (p : PortState), l < 16 → p = s.port l →
    ((p.mode = .training ∨ p.mode = .retraining) → p.signal = false →
      exec (.signalDetect l) s = .next ((s.setPort l { p with signal := true }).emit (.hello l s.links.device p.group (~~~p.unused) s.links.ownInc)))
    ∧ (p.mode = .training → exec (.portRetry l) s = .next (s.setPort l { p with signal := false }))
    ∧ (p.mode = .down → ∃ t, exec (.portRetry l) s = .next t ∧ portKept l s t ∧ t.port l = { p with mode := .training, signal := false })
    ∧ (∀ dev port grp mine theirs inc n, p.mode = .training → p.signal = true → dev < 256 → port < 256 →
      n = ((List.range 8).filter (fun i => (mine &&& theirs &&& ~~~p.unused).getLsbD i)).length →
      (dev ≠ s.links.device → n ≠ 0 → ∃ t, exec (.hello l dev port grp mine theirs inc) s = .next t ∧ portKept l s t ∧ (t.port l).mode = .up
        ∧ (t.port l).width = (if n = 8 then 8 else if 4 ≤ n then 4 else if 2 ≤ n then 2 else 1) ∧ (t.port l).lanes = mine &&& theirs &&& ~~~p.unused
        ∧ (t.port l).partner = dev ∧ (t.port l).partnerPort = port ∧ (t.port l).inc = inc ∧ (t.port l).rxSeq = 0 ∧ (t.port l).reqs = p.reqs
        ∧ ∀ f fs, (t.port l).replay = f :: fs → f.seq = 0)
      ∧ (dev = s.links.device → dev ≠ 0xFF → exec (.hello l dev port grp mine theirs inc) s = .next (s.portDown l 3)))
    ∧ (p.mode = .up → p.txQ = [] → p.txEx = [] →
      (p.replay = [] →
        (∀ e ack, e.length = 40 → 1 ≤ rdb e 0 → rdb e 0 ≤ 3 → exec (.linkFlit l (flitOf 1 p.rxSeq ack false (e ++ zeros 208)) false) s =
          .next ((s.setPort l { p with rxSeq := p.rxSeq + 1, nak := false, rxEx := p.rxEx ++ [e] }).emit (.linkFlit l (flitOf 2 0 p.rxSeq false (zeros 248)))))
        ∧ (∀ r ack, r.length = 8 → rdb r 0 = 9 → p.rxBytes = [] → ∃ t, exec (.linkFlit l (flitOf 0 p.rxSeq ack false (r ++ zeros 240)) false) s = .next t
          ∧ t.port l = { p with rxSeq := p.rxSeq + 1, nak := false, rxQ := p.rxQ ++ [{ hdr := r }] } ∧ portKept l s t)
        ∧ (∀ seq ack body kind, kind < 2 → seq ≠ p.rxSeq → exec (.linkFlit l (flitOf kind seq ack false body) false) s =
          .next ((s.setPort l { p with nak := true }).emit (.linkFlit l (flitOf 2 0 (p.rxSeq - 1) true (zeros 248))))))
      ∧ (∀ flit, exec (.linkFlit l flit true) s = .next ((s.setPort l { p with nak := true, fecUnfixed := satAdd p.fecUnfixed 1 }).emit
          (.linkFlit l (flitOf 2 0 (p.rxSeq - 1) true (zeros 248)))))
      ∧ (∀ f fs, p.replay = f :: fs → p.replay.length ≤ 1024 →
        exec (.linkFlit l (flitOf 2 0 f.seq false (zeros 248)) false) s = .next (s.setPort l { p with replay := fs })
        ∧ ∃ t, exec (.linkFlit l (flitOf 2 0 (f.seq - 1) true (zeros 248)) false) s = .next t ∧ t.port l = { p with replays := satAdd p.replays 1 }
          ∧ t.out = p.replay.reverse.map (fun g => .linkFlit l (flitOf (b2n g.express) g.seq (p.rxSeq - 1) p.nak g.body)) ++ s.out))
    ∧ (p.mode = .up → ∃ t, exec (.linkLoss l) s = .next t ∧ (t.port l).mode = .retraining ∧ (t.port l).replay = p.replay
      ∧ (t.port l).retrains = satAdd p.retrains 1 ∧ { t with links := s.links, log := s.log, out := s.out } = s)
    ∧ (p.mode = .retraining → exec (.retrainTimeout l) s = .next (s.portDown l 4))
    ∧ (∀ c t, p.mode = .up ∨ p.mode = .retraining → t = s.portDown l c → (t.port l).mode = .down ∧ (t.port l).cause = BitVec.ofNat 8 c ∧ (t.port l).width = 0
      ∧ (t.port l).reqs = [] ∧ (∀ r ∈ p.reqs, ∀ i tag, r.fwd = none → r.pkt = some (i, tag) →
          ({ typ := if r.typ = 1 then 8 else 9, tag := BitVec.ofNat 12 tag, code := 5 } : Packet) ∈ (t.nif i).inbox)
      ∧ (p.partner < 255 → (∀ o, o ≠ l → (s.port o).mode = .up → (s.port o).partner ≠ p.partner) → p.partner ∈ t.links.fenced))
    ∧ ∀ e es u, p.rxEx = e :: es → u = s.setPort l { p with rxEx := es } →
      (rdb e 0 = 3 → rdb e 2 = s.links.device → exec (.portDownReceived l) s = .next (u.portDown (rdb e 8 % 16) 5))
      ∧ (rdb e 0 = 2 → 1 ≤ rdb e 8 → rdb e 8 ≤ 4 → exec (.farewellReceived l) s = .next (u.fence (rdb e 1)))
      ∧ (rdb e 0 = 2 → rdb e 8 = 5 → exec (.farewellReceived l) s = .next (u.portDown l 6))
      ∧ (rdb e 0 = 1 → nf (rd e 8 8) 63 60 = 1 → exec (.expressPost l) s = .next (u.arrive (l / 4) 3 (Config.postPort l) (nf (rd e 8 8) 7 0)))
      ∧ (rdb e 0 = 1 → nf (rd e 8 8) 63 60 = 2 → exec (.expressPost l) s = .next (u.depart (l / 4) 3 (nf (rd e 8 8) 7 0)))

/-- R247, R302, R312–R314, R317: the oldest record of its kind is served and its credit goes back. An access for this device that the window
permits is translated, performed and answered with DATA or an ACK and its code; one that the window refuses, from a fenced device, or for another
device without a forwarding entry is refused with 0x05 and counted. A CIRC_WRITE for a group not opened is refused; else it reaches the
targets and one CIRC_ACK answers. An answer ends the request of its tag and goes to the interface of its packet. A CREDIT record returns its
units to its queue. -/
def Obligations.RemoteTraffic : Prop :=
  ∀ (s s1 s2 s3 : State) (l tag src len hint va asid typ : Nat) (p : PortState) (r : LinkRec) (rs : List LinkRec) (q : RemoteReq) (qs : List RemoteReq), l < 16 →
    p = s.port l → p.rxQ = r :: rs → rdb r.hdr 0 = typ → s1 = (s.takeRec l typ).2 → tag = rd r.hdr 2 2 → src = rdb r.hdr 4 → hint = nf (rdb r.hdr 1) 1 0 →
    (typ ≠ 0x0C → s1 = (s.setPort l { p with rxQ := rs }).sendRec l { hdr := recOf 8 [(0, 1, 0x0C), (1, 1, r.cls * 3 + r.hops), (2, 2, 1)] })
    ∧ (∀ need w, w = tget {} s.windows (rdb r.hdr 6) → (src ∈ s.links.fenced ∨ s.links.farewell = true ∨ w.flags.getLsbD 0 = false ∨ w.flags.getLsbD need = false
        ∨ w.size < nf (rd r.hdr 16 8) 43 0 + len) → (s1.windowCheck src (rdb r.hdr 6) (nf (rd r.hdr 16 8) 43 0) len need).1 = 5)
    ∧ (rdb r.hdr 5 = s.links.device →
      (∀ tg bs st, typ = 1 → len = rd r.hdr 8 2 → s1.windowCheck src (rdb r.hdr 6) (nf (rd r.hdr 16 8) 43 0) len 1 = (0, va, asid) →
        s1.remoteXlate l asid va len kRead = (some [(tg, 0, len)], s2) → s2.tgtRead (remoteIss l asid) tg len (some hint) = (bs, st, s3) →
        exec (.remoteRead l) s = .next (s3.sendData l st.code tag src 0 bs))
      ∧ (∀ tg st, typ = 2 → len = r.data.length → s1.windowCheck src (rdb r.hdr 6) (nf (rd r.hdr 16 8) 43 0) len 2 = (0, va, asid) →
        s1.remoteXlate l asid va len kWrite = (some [(tg, 0, len)], s2) →
        s2.tgtWrite (remoteIss l asid) tg (mark (nbit (rdb r.hdr 1) 2) r.data) (some hint) = (st, s3) →
        exec (.remoteWrite l) s = .next (s3.sendAck l st.code tag src))
      ∧ (∀ f phys h st old, typ = 3 → memopFn (rdb r.hdr 7) (rdb r.hdr 10) (unle r.data) = some (len, f) →
        s1.windowCheck src (rdb r.hdr 6) (nf (rd r.hdr 16 8) 43 0) len 3 = (0, va, asid) →
        s1.remoteXlate l asid va len kMemop = (some [(.dev phys h, 0, len)], s2) → s2.memop2 (remoteIss l asid) phys (phys / 32 * 32 + 32) len f = (old, st, s3) →
        exec (.remoteMemop l) s = .next (s3.sendAck l st.code tag src))
      ∧ (∀ c x y, typ = 1 → c ≠ 0 → s1.windowCheck src (rdb r.hdr 6) (nf (rd r.hdr 16 8) 43 0) (rd r.hdr 8 2) 1 = (c, x, y) →
        exec (.remoteRead l) s = .next ((s1.refuse l).sendData l c tag src 0 []))
      ∧ (∀ c x y, typ = 2 → c ≠ 0 → s1.windowCheck src (rdb r.hdr 6) (nf (rd r.hdr 16 8) 43 0) r.data.length 2 = (c, x, y) →
        exec (.remoteWrite l) s = .next ((s1.refuse l).sendAck l c tag src)))
    ∧ (rdb r.hdr 5 ≠ s.links.device → tfind s.links.fwd (rdb r.hdr 5) = none →
      (typ = 1 → exec (.remoteRead l) s = .next ((s1.refuse l).sendData l 5 tag src 0 []))
      ∧ (typ = 2 → exec (.remoteWrite l) s = .next ((s1.refuse l).sendAck l 5 tag src))
      ∧ (typ = 3 → exec (.remoteMemop l) s = .next ((s1.refuse l).sendAck l 5 tag src)))
    ∧ (typ = 4 → ∀ grp (ack : Nat → LinkRec), grp = rd r.hdr 12 2 → (∀ c, ack c = { hdr := recHdr 0x0A 0 tag s.links.device src 0 c 0 0 grp 0 }) →
      ((s.remoteShut src = true ∨ (src, grp) ∉ s.links.opened) → exec (.remoteCircWrite l) s = .next ((s1.refuse l).sendRec l (ack 5)))
      ∧ (∀ g c, s.remoteShut src = false → (src, grp) ∈ s.links.opened →
        s1.circTargets grp 64 (routerOfPort l).1 (routerOfPort l).2 = ([.core g], false) → r.data.length ≠ 512 →
        s1.localWrite g (lfAddr (rd r.hdr 16 8)) (mark (nbit (rdb r.hdr 1) 2) r.data) = (c, s2) →
        exec (.remoteCircWrite l) s = .next (s2.sendRec l (ack c))))
    ∧ (p.reqs = q :: qs → q.tag = tag → q.fwd = none →
      (∀ e, (e = .remoteData l ∧ typ = 8 ∧ q.typ = 1) ∨ (e = .remoteAck l ∧ typ = 9 ∧ q.typ ≠ 1) → ∀ i k, q.pkt = some (i, k) →
        ∃ t, exec e s = .next t ∧ (t.port l).reqs = qs ∧ (t.nif i).inbox = (s.nif i).inbox ++ [{
            typ := if typ = 8 then 8 else 9, tag := BitVec.ofNat 12 k, poison := typ == 8 && nbit (rdb r.hdr 1) 2
            code := BitVec.ofNat 8 (if typ = 8 then rdb r.hdr 7 else rdb r.hdr 1), data := if typ = 8 then r.data else [] }]
          ∧ (∀ j, j ≠ i → t.nif j = s.nif j) ∧ { t with links := s.links, netIf := s.netIf, out := s.out } = s)
      ∧ (typ = 0x0A → q.typ = 4 → q.pkt = none → rdb r.hdr 7 = 0 → exec (.remoteCircAck l) s = .next (s1.setPort l { s1.port l with reqs := qs })))
    ∧ (typ = 0x0C → p.txQ = [] → p.txEx = [] → exec (.credit l) s = .next (s.setPort l { p with
        rxQ := rs, credits := tset p.credits (rdb r.hdr 1) (tget 0 p.credits (rdb r.hdr 1) + rd r.hdr 2 2) }))

/-! ## Host interface (chapter 13) -/

/-- R326–R329: what the answer to a letter of a host function does. Without a tray it goes to SLOT_STATE alone; with a tray
whose next entry is free the entry leaves with the letter's SEQ and COOKIE, then its stamp, the next count follows, and the slot is FREE
with LENGTH zero and the answer in SLOT_STATE. A letter fails the first of R328's checks that it breaks. -/
def Obligations.AnswersAndFranking : Prop :=
  (∀ (s u : State) (p f k st : Nat) (b body : Bytes) (x : HostFunc), x = s.fn p f → s.letterAt (.host p f k) = some b → st < 65536 → k < 64 →
    u = s.answer (.host p f k) st body [] → x.held = [] →
    (x.tray = none ∨ ∃ t, x.tray = some t ∧ 0 < t.ahead) →
    tfind (u.fn p f).taken k = none ∧ tget (0, 0) (u.fn p f).last k = (st, rd b 10 2) ∧ unle (mread (u.fn p f).lb (4096 * k) 2) = 0
      ∧ (∀ q ∈ u.letters, q.src ≠ .host p f k) ∧ (∀ q ∈ s.letters, q.src ≠ .host p f k → q ∈ u.letters)
      ∧ (u.fn p f).rejected = (if st = 0x0102 ∨ st = 0x0103 then satAdd x.rejected 1 else x.rejected)
      ∧ (∀ a b, ¬ (a * 32 + b = p * 32 + f) → u.fn a b = s.fn a b)
      ∧ (x.tray = none → u.out = s.out)
      ∧ ∀ t, x.tray = some t → ∃ e pre, u.out = pre ++ .trayStamp p f t.next t.count :: .trayWrite p f t.next e :: s.out ∧ pre.length ≤ 1
          ∧ e.length = 56 ∧ rdb e 0 = 1 ∧ rd e 2 2 = st ∧ rdb e 4 = k ∧ rd e 6 2 = rd b 10 2 ∧ rd e 8 8 = rd b 16 8
          ∧ (u.fn p f).tray = some { t with next := (t.next + 1) % t.n, count := if t.count + 1 = 0 then 1 else t.count + 1, ahead := t.ahead - 1
                                            used := t.used ++ [none] })
  ∧ ∀ (s : State) (p f k : Nat) (b : Bytes) (n : Nat), n = rd b 0 2 →
    (n < 40 ∨ 4096 < n ∨ n % 8 ≠ 0 → s.frankCheck (.host p f k) b = some (0x0102, 0))
    ∧ (40 ≤ n → n ≤ 4096 → n % 8 = 0 →
      (rd b (n - 8) 2 ≠ rd b 10 2 ∨ rd b (n - 4) 4 ≠ crc32c (b.take (n - 4)) → s.frankCheck (.host p f k) b = some (0x0103, 0))
      ∧ (rd b (n - 8) 2 = rd b 10 2 → rd b (n - 4) 4 = crc32c (b.take (n - 4)) →
        (opRow (rd b 2 2) = none → s.frankCheck (.host p f k) b = some (0x0100, 0))
        ∧ ∀ row, opRow (rd b 2 2) = some row →
          (rd b 6 1 ≠ f + 32 * p + (if f = 0 then 0 else 64) ∨ (if f = 0 then row.o else row.f) = false → s.frankCheck (.host p f k) b = some (0x0200, 0))
          ∧ (rd b 6 1 = f + 32 * p + (if f = 0 then 0 else 64) → (if f = 0 then row.o else row.f) = true → resvBad row b = none →
            s.frankCheck (.host p f k) b = (if (s.fn p f).tray = none ∧ rd b 2 2 ≠ 0x0105 then some (0x0200, 0) else none))))

/-- R13, R324, R327–R329, R333–R335, R340: a write to a TAKEN slot is discarded and counted; one that covers byte T − 1 takes the letter, and
the letter enters the order or is answered at once; any other is kept. A fifth letter on the management path is answered BUSY. A
stamp read as zero makes an entry free, one not zero at the next entry makes the tray full. At the end of the moderation interval vector 0 is
signalled, or its pending bit set while masked. Register writes of a good size and alignment change the register's writable bits. -/
def Obligations.HostLetterbox : Prop :=
  ∀ (s : State) (p f : Nat) (x : HostFunc), p < 2 → f < 32 → x = s.fn p f →
    (∀ k o d t, k < 64 → d ≠ [] → d.length ≤ 512 → o + d.length ≤ 4096 → s.serves = true → (s.hport p).up = true →
      t = min 4096 (unle (mread x.lb (4096 * k) 2)) →
      (tfind x.taken k ≠ none → exec (.letterboxWrite p f (4096 * k + o) d) s = .next (s.setFn p f { x with discarded := satAdd x.discarded 1 }))
      ∧ (tfind x.taken k = none →
        (t = 0 ∨ t ≤ o ∨ o + d.length < t → exec (.letterboxWrite p f (4096 * k + o) d) s = .next (s.setFn p f { x with lb := mwrite x.lb (4096 * k + o) d }))
        ∧ (t ≠ 0 → o < t → t ≤ o + d.length → ∀ (lb : List Host.Cell) (b : Bytes) (u : State), lb = mwrite x.lb (4096 * k + o) d → b = mread lb (4096 * k) t →
          u = { s.setFn p f { x with lb := lb, taken := tset x.taken k b } with letters := s.letters ++ [{ src := .host p f k }] } → rd b 2 2 ≠ 0x0404 →
          exec (.letterboxWrite p f (4096 * k + o) d) s = .next (match u.frankCheck (.host p f k) b with
            | some (st, de) => u.answer (.host p f k) st (le 4 de) []
            | none => u))))
    ∧ (∀ (m : Bytes) (k : Nat) (u : State), s.dev.mode ≠ .off → 2 ≤ s.board.stage →
      (k < 4 → tfind s.mgmt.taken k = none → (∀ j, j < k → tfind s.mgmt.taken j ≠ none) → rd m 2 2 ≠ 0x0404 →
        u = ({ s with mgmt := { s.mgmt with taken := tset s.mgmt.taken k m }, letters := s.letters ++ [{ src := .mgmt k }] } : State) →
        exec (.mctpLetter m) s = .next (match u.frankCheck (.mgmt k) m with
          | some (st, de) => u.answer (.mgmt k) st (le 4 de) []
          | none => u))
      ∧ ((∀ j, j < 4 → tfind s.mgmt.taken j ≠ none) → ∃ e t, exec (.mctpLetter m) s = .next t ∧ t.out = .mgmtReply e [] :: s.out ∧ rd e 2 2 = 0x0300
          ∧ t = { s with out := t.out, mgmt := { s.mgmt with count := t.mgmt.count } }))
    ∧ (∀ t, x.tray = some t → x.held = [] →
      (∀ e, (e = .trayStampRead p f [true] ∨ e = .trayFullReread p f [true] ∧ t.full = true) → 0 < t.virgin →
        exec e s = .next (s.setFn p f { x with tray := some { t with virgin := t.virgin - 1, ahead := t.ahead + 1, full := false } }))
      ∧ (t.ahead = 0 → exec (.trayStampRead p f [false]) s = .next (s.setFn p f { x with tray := some { t with full := true } }))
      ∧ (t.full = false → ∀ l, exec (.trayFullReread p f l) s = .next s))
    ∧ (x.msiPend = true → exec (.msixModerationExpire p f) s = .next (
        if (tget (1 <<< 32 : W64) x.msix 1).getLsbD 32 = true
        then s.setFn p f { x with msiPend := false, lastMsi := some s.time, pba := x.pba ||| 1 }
        else (s.setFn p f { x with msiPend := false, lastMsi := some s.time }).emit (.msix p f 0)))
    ∧ (x.msiPend = false → exec (.msixModerationExpire p f) s = .next s)
    ∧ (∀ v : W64, s.serves = true → (s.hport p).up = true →
      exec (.registerWrite (.bar p f 0x40 4) v) s = .next (s.setFn p f { x with moderate := v.setWidth 16 })
      ∧ ∀ off size, (size ≠ 4 ∧ size ≠ 8) ∨ off % size ≠ 0 → exec (.registerWrite (.bar p f off size) v) s = .next s)
    ∧ (∀ (i k : Nat) (v : W64), i < 392 → (s.ifRouter i).isSome = true → k < 64 →
      exec (.registerWrite (.hub (0xF050000000 + 4096 * i + 8 * k) 8) v) s =
        .next (s.setNif i { s.nif i with alt := tset (s.nif i).alt k ((tget 0 (s.nif i).alt k &&& 0x4000000000000000) ||| (v &&& 0xBFFFFFFFFFFFFFFF)) }))
    ∧ ∀ phys size v, phys % size ≠ 0 ∨ size ∉ [1, 2, 4, 8] → exec (.registerWrite (.hub phys size) v) s = .next s

/-- R321, R338, R360, R506: a port reset puts every function of the port at its reset values, discards its letters, ends its requests
without a reply and closes its sessions; contexts, models, translation and memory survive, and the link is down after PERST, a hot reset or a
link-down. A VF's FLR does so for that function alone. A released port trains at the rate and width it then reports. A session
without SESSION_KEY after its time is closed: its buffers are withdrawn and its ID is free. -/
def Obligations.PortResets : Prop :=
  ∀ (s : State) (p : Nat), p < 2 →
    (∀ (c : PortCause) (g : Nat → Prop) e, ((∀ f, g f ↔ f < 32) ∧ e = .portReset p c) ∨ (∃ f, 0 < f ∧ f < 32 ∧ (∀ h, g h ↔ h = f) ∧ e = .vfFlr p f ∧ c = .flr) →
      ∃ t, exec e s = .next t ∧ (∀ f, g f → t.fn p f = ({} : HostFunc)) ∧ (∀ q ∈ t.serve.reqs, ¬ (q.2.p = p ∧ g q.2.f))
        ∧ (∀ q ∈ t.serve.sessions, ¬ (q.2.p = p ∧ g q.2.f)) ∧ (∀ q ∈ t.letters, ∀ f k, g f → q.src ≠ .host p f k)
        ∧ t.ctxs = s.ctxs ∧ t.serve.models = s.serve.models ∧ t.xlate = s.xlate ∧ t.hbm = s.hbm ∧ t.cores = s.cores ∧ t.windows = s.windows
        ∧ (∀ q, q ≠ p → s.hport q = t.hport q) ∧ t.hport p = (if c = .perst ∨ c = .hot ∨ c = .linkDown then ({} : HostPort) else s.hport p))
    ∧ exec (.perstRelease p) s = .next { s with board := { s.board with perstN := tset s.board.perstN p true } }
    ∧ (∀ r w fl, tget false s.board.perstN p = true → 5 ≤ s.board.stage → 1 ≤ r → r ≤ 7 → w ∈ [1, 2, 4, 8, 16] →
      exec (.pcieLinkUp p r w fl) s = .next { s with hostPorts := tset s.hostPorts p { up := true, rate := r, width := w, flit := fl } })
    ∧ ∀ i q, tfind s.serve.sessions i = some q → (q.okm ≠ [] → exec (.sessionKeyTimeout i) s = .next s)
      ∧ (q.okm = [] → ∃ t, exec (.sessionKeyTimeout i) s = .next t ∧ tfind t.serve.sessions i = none ∧ (∀ b ∈ (t.fn q.p q.f).bufs, b.2.session ≠ i)
        ∧ (∀ j, j ≠ i → tfind t.serve.sessions j = tfind s.serve.sessions j) ∧ t.hbm = s.hbm ∧ t.ctxs = s.ctxs)

/-! ## Cufogo letters (chapter 14) -/

/-- A letter of an opcode stands at a source, its turn has come and it passes every check of R346. -/
def letterRuns (s : State) (src : LSrc) (op : Nat) (sem : Sem) (b : Bytes) : Prop :=
  (match src with | .host p f k => p < 2 ∧ f < 32 ∧ k < 64 | .mgmt k => k < 4) ∧ s.letterAt src = some b ∧ opOf b = op ∧ s.turn src b = true
    ∧ ∃ row, opRow op = some row ∧ s.check op row sem src b = none

/-- R330, R336, R354, R362, R363, R366–R368: TRAY_SET gives the function a tray of a legal size and place whose first entry is the answer; a buffer
is added at a free index within R336's limits, or withdrawn, which ends the requests that still need it; a request submitted is answered
ACCEPTED with its number while fewer than 1,024 of its function and 16,384 in all are alive; a cancel ends its request with CANCELLED
before the DONE, or says that it had ended; a session closed is gone. A letter whose check fails is answered with that status and DETAIL and has
no other effect; one whose turn has not come waits. -/
def Obligations.HostLetters : Prop :=
  ∀ (s : State) (b : Bytes) (p f k : Nat) (src : LSrc) (x : HostFunc), src = .host p f k → x = s.fn p f →
    (letterRuns s src 0x0105 semTraySet b → ∀ t : Tray, t = { bus := rd b 32 8, n := rd b 40 4, virgin := rd b 40 4, resBus := rd b 48 8, resLen := rd b 56 4 } →
      t.bus % 4096 = 0 ∧ t.bus + 64 * t.n ≤ 2 ^ 43 ∧ (∃ i, 6 ≤ i ∧ i ≤ 16 ∧ t.n = 2 ^ i) ∧ exec (.traySet src) s = .next ((s.unqueue src).setFn p f { x with
        tray := some t, held := { entry := letterEntry b k 0 [], slot := some k, noIntr := nbit (rd b 4 2) 0 } :: x.held }))
    ∧ (letterRuns s src 0x0406 semBounceAdd b → rdb b 33 < 64 ∧ tfind x.bufs (rdb b 33) = none ∧ rd b 40 8 % 4096 = 0 ∧ rd b 40 8 + rd b 48 8 ≤ 2 ^ 43
      ∧ rd b 48 8 % 4096 = 0 ∧ 0 < rd b 48 8 ∧ rd b 48 8 ≤ 2 ^ 30 ∧ exec (.bounceSetAdd src) s = .next ((s.setFn p f { x with
        bufs := tset x.bufs (rdb b 33) { bus := rd b 40 8, len := rd b 48 8, session := sessOf b } }).done src []))
    ∧ (letterRuns s src 0x0406 semBounceWithdraw b → rdb b 32 = 2 → ∃ (u : State) (y : BounceBuf), tfind x.bufs (rdb b 33) = some y ∧ y.session = sessOf b
      ∧ exec (.bounceSetWithdraw src) s = .next (u.done src []) ∧ tfind (u.fn p f).bufs (rdb b 33) = none
      ∧ (∀ j, j ≠ rdb b 33 → tfind (u.fn p f).bufs j = tfind x.bufs j)
      ∧ (∀ id r, u.req id = some r → r.p = p → r.f = f → r.sess = y.session → r.needs y = true → r.phase = .ended))
    ∧ (letterRuns s src 0x0404 semSubmit b →
      (s.liveReqs.filter (fun e => e.2.p == p && e.2.f == f)).length < 1024 ∧ s.liveReqs.length < 16384 ∧ (s.sess (sessOf b)).ctx = ctxOf b
      ∧ ∃ (u : State) (r : ReqState), exec (.requestSubmit src) s = .next (u.answer src 0x0001 (le 4 s.serve.nextReq) []) ∧ u.serve.nextReq = s.serve.nextReq + 1
        ∧ u.req s.serve.nextReq = some r ∧ r.phase = .pulling ∧ r.p = p ∧ r.f = f ∧ r.ctx = ctxOf b ∧ r.sess = sessOf b ∧ r.seq = rd b 10 2 ∧ r.cookie = rd b 16 8
        ∧ r.promptBus = rd b 32 8 ∧ r.promptLen = rd b 40 4 ∧ r.maxOut = rd b 44 4 ∧ r.outBus = rd b 48 8 ∧ r.outLen = rd b 56 4 ∧ r.perReply = rd b 60 2
        ∧ (∀ j, j ≠ s.serve.nextReq → u.req j = s.req j) ∧ { u with serve := s.serve } = s)
    ∧ (letterRuns s src 0x0405 semCancel b → ∀ r, s.req (rd b 32 4) = some r → r.sess = sessOf b
      ∧ (r.phase = .ended → exec (.requestCancel src) s = .next (s.done src [1]))
      ∧ (r.phase ≠ .ended → exec (.requestCancel src) s = .next ((s.endReq (rd b 32 4) 0x0402).done src [0])))
    ∧ (letterRuns s src 0x0403 semSessionClose b → exec (.sessionClose src) s = .next ((s.closeSess (sessOf b)).done src []))
    ∧ ∀ i op sem, (i, op, sem) ∈ [(Instr.traySet src, 0x0105, semTraySet), (.sessionClose src, 0x0403, semSessionClose), (.requestSubmit src, 0x0404, semSubmit),
        (.requestCancel src, 0x0405, semCancel), (.partitionSet src, 0x0201, semPartitionSet), (.contextCreate src, 0x0202, semContextCreate),
        (.contextSchedule src, 0x0204, semSchedule), (.mapRange src, 0x0502, semMapRange), (.windowSet src, 0x0505, semWindow)] →
      p < 2 → f < 32 → k < 64 → s.letterAt src = some b → opOf b = op →
      (s.turn src b = false → exec i s = .next s)
      ∧ ∀ row st d, opRow op = some row → s.turn src b = true → s.check op row sem src b = some (st, d) → exec i s = .next (s.answer src st (le 4 d) [])

/-- R135, R136, R168, R237, R242, R245–R247, R355–R357, R369, R427: PARTITION_SET and SPREAD_SET run only while no context and no model exist and put the layout, the
shares and the filters they give into every unit; a change of S empties the granary and ends the epoch of every block that changes its role.
A context is created with a free ID and ASID (log 69), scheduled, and destroyed: then its ID, its windows and its tables are free. A page is mapped
by writing its leaf, then its waiting accesses go on; unmapping first clears the leaves and sends the invalidations, and ends after the
last acknowledgement. A fill writes its pattern; FAULT_BAG_SET, WINDOW_SET and MIGRATE_HINTS set what they name. -/
def Obligations.SpaceAndContextLetters : Prop :=
  ∀ (s : State) (src : LSrc) (b : Bytes) (c asid : Nat), c = ctxOf b → asid = (s.ctx c).asid →
    (letterRuns s src 0x0201 semPartitionSet b → s.ctxs = [] ∧ s.serve.models = [] ∧ rdb b 32 ∈ [1, 2, 4] ∧ ∃ u : State, exec (.partitionSet src) s = .next (u.done src [])
      ∧ u.dev = { s.dev with layout := rdb b 32, generation := s.dev.generation + 1 } ∧ u.hbm = s.hbm ∧ u.cores = s.cores
      ∧ ∀ d p, d < 16 → (d < 12 → s.guestSite d = false) → p < 4 → tget 0 (u.xl d).filter p = u.filterWord p)
    ∧ (letterRuns s src 0x0507 semSpread b → s.ctxs = [] ∧ s.serve.models = [] ∧ rdb b 32 ≤ 55 ∧ ∃ u : State, exec (.spreadSet src) s = .next (u.done src [])
      ∧ u.dev.spreadS = rdb b 32 ∧ (∀ p, p < 4 → tget (0, 0) u.dev.shares p = (rd b (40 + 4 * p) 2, rd b (42 + 4 * p) 2))
      ∧ (rdb b 32 ≠ s.dev.spreadS → ∀ k i, k < 12 → i < 56 → tget 0 (u.stack k).epochs i
          = tget 0 (s.stack k).epochs i + (if (56 - s.dev.spreadS ≤ i ∧ i < 56 - rdb b 32) ∨ (56 - rdb b 32 ≤ i ∧ i < 56 - s.dev.spreadS) then 1 else 0))
      ∧ (rdb b 32 = s.dev.spreadS → u.hbm = s.hbm)
      ∧ ∀ d p, d < 16 → (d < 12 → s.guestSite d = false) → p < 4 → tget 0 (u.xl d).filter p = u.filterWord p)
    ∧ (letterRuns s src 0x0202 semContextCreate b → ∀ n t u, s.freeCtx = some n → s.ptNew (n + 1) 0 0 = some (t, u) →
      s.ctxLive n = false ∧ (s.model (rd b 32 4)).loaded = true ∧ ∃ v : State, exec (.contextCreate src) s = .next (v.done src (le 2 n ++ le 2 (n + 1)))
        ∧ tfind v.ctxs n = some (ctxOfLetter (n + 1) b) ∧ ∀ j, j ≠ n → tfind v.ctxs j = tfind s.ctxs j)
    ∧ (letterRuns s src 0x0204 semSchedule b → rdb b 32 ≤ 1 ∧ exec (.contextSchedule src) s =
        .next (State.done { s with ctxs := tset s.ctxs c { s.ctx c with suspended := rdb b 32 == 1, weight := rd b 34 2 } } src []))
    ∧ (letterRuns s src 0x0203 semDestroy b → s.isBusy src = false → (s.current c = true → s.mayScrub (s.ctx c).part c = true) →
      (∀ k ∈ s.slicesOf c, (s.stack k).gBusy = false) → exec (.contextDestroy src) s = .next ((s.destroyStart c).busyLetter src))
    ∧ (letterRuns s src 0x0502 semMapRange b → (∀ u : State, s.mapRange b = some u → exec (.mapRange src) s = .next (u.done src []))
      ∧ (s.mapRange b = none → exec (.mapRange src) s = .next (s.answerErr src 0x0301 0))
      ∧ ∀ t u, rdb b 59 = 0 → rdb b 56 = 1 → rd b 40 8 = 65536 → s.ptGet asid 2 (rd b 32 8) = some (t, u) →
        exec (.mapRange src) s = .next (((u.fwPut (t.entry (rd b 32 8)) (hostPhys (rdb b 60) (rd b 48 8) + rdb b 61 * 2 ^ 59 + rdb b 58 * 256 + rdb b 57 * 16 + 7)).releaseRange
          asid (rd b 32 8) 65536 false).done src []))
    ∧ (letterRuns s src 0x0503 semUnmapRange b → s.isBusy src = false →
      exec (.unmapRange src) s = .next ((s.unmapStart (s.ctx c).part asid (rd b 32 8) (rd b 40 8)).busyLetter src))
    ∧ (∀ p f k, src = .host p f k → p < 2 → f < 32 → k < 64 → s.letterAt src = some b → s.isBusy src = true →
      (opOf b = 0x0503 → (s.unmapWaits asid (rd b 32 8) (rd b 40 8) = true → exec (.unmapRange src) s = .next s)
        ∧ (s.unmapWaits asid (rd b 32 8) (rd b 40 8) = false → exec (.unmapRange src) s =
            .next ((s.unmapEnd (s.ctx c).part asid (rd b 32 8) (rd b 40 8)).done src [])))
      ∧ (opOf b = 0x0203 → (s.destroyDone c = false → exec (.contextDestroy src) s = .next s)
        ∧ (s.destroyDone c = true → ∃ u : State, exec (.contextDestroy src) s = .next (u.done src []) ∧ tfind u.ctxs c = none
          ∧ (∀ w ∈ u.windows, w.2.asid ≠ asid) ∧ (∀ t ∈ u.serve.tables, t.asid ≠ asid) ∧ (∀ j, j ≠ c → tfind u.ctxs j = tfind s.ctxs j))))
    ∧ (letterRuns s src 0x0501 semMemFill b → c = 0xFFFF → rd b 32 8 % 32 = 0 ∧ s.fillAllowed (rd b 32 8) (rd b 40 8) = true
      ∧ ∃ cl : Client, cl.iss.asid = 0 ∧ exec (.memFill src) s = .next (((List.range (rd b 40 8 / 32)).foldl
          (fun s i => (s.devWrite cl.iss (rd b 32 8 + 32 * i) (mark false ((List.replicate 4 (le 8 (rd b 48 8))).flatten)) (rdb b 56)).2) s).done src []))
    ∧ (letterRuns s src 0x0504 semFaultBag b → s.ctxs = [] ∧ exec (.faultBagSet src) s =
        .next (State.done { s with bag := { s.bag with size := rd b 32 4, forward := nbit (rdb b 36) 0 } } src []))
    ∧ (letterRuns s src 0x0505 semWindow b → exec (.windowSet src) s = .next (State.done { s with windows := tset s.windows (rdb b 32) {
        flags := BitVec.ofNat 8 (rdb b 40), from_ := rdb b 41, asid := rd b 42 2, base := rd b 48 8, size := rd b 56 8 } } src []))
    ∧ (letterRuns s src 0x0506 semMigrate b → exec (.migrateHints src) s = .next (State.done { s with acc := { s.acc with
        threshold := rd b 32 4, decay := 1000 * rd b 36 4, asids := ((List.range 64).filter (fun j => nbit (rd b 40 8) j)).map s.asidOf } } src []))

/-- The fields (offset, size, value) that a record holds at an offset, each little-endian. -/
def recHas (b : Bytes) (o : Nat) (l : List (Nat × Nat × Nat)) : Prop := ∀ x ∈ l, rd b (o + x.1) x.2.1 = x.2.2 % 2 ^ (8 * x.2.1)

/-- R298, R319, R342–R344, R351–R353, R373, R391–R398, R408, R421, R423, R460, R461, R494, R496: a report whose checks pass is answered with its whole
result, written to the result region from RESULT_OFF before the stamp on the host path, or with the bytes asked for inline on the
management path; its fields hold what the tables of these rules give. LOG_READ starts at the later of START and the oldest entry.
HISTOGRAM_READ with CLEAR ends the window. CAPACITY_STATEMENT leaves its mix as the context's declared mix. A MEASURE waits for the gauges. A report or
a receipt to sign joins the queue of signatures, of which one is in progress at a time. -/
def Obligations.ReportLetters : Prop :=
  ∀ (s : State) (src : LSrc) (b : Bytes), s.letterAt src = some b →
    (∀ (own res : Bytes) (p f k : Nat) (t : Tray), src = .host p f k → (s.fn p f).tray = some t → res ≠ [] → s.result src own res =
      (s.emit (.hostWrite f (hostPhys p (t.resBus + rd b 32 8)) res)).answer src 0 (le 4 res.length ++ le 4 res.length ++ own) [])
    ∧ (∀ (own res d : Bytes) (k : Nat), src = .mgmt k → d = (res.drop (rd b 32 8)).take (rd b 40 4) →
      s.result src own res = s.answer src 0 (le 4 d.length ++ le 4 res.length ++ own) d)
    ∧ (∀ (i : Instr) (op n : Nat) (sem : Sem) (own res : Bytes) (free : Bool), (i, op, sem, own, res, free, n) ∈ [
        (Instr.identify src, 0x0101, Sem.readFree (fun s _ => s.identity), [], s.identity, true, 1280),
        (.capsGet src, 0x0102, Sem.read (fun s _ => s.capTable), [], s.capTable, false, 8320),
        (.statsRead src, 0x0604, Sem.read (fun s b => s.stats b) (fun _ _ => []) (fun _ _ b => firstBad [(!statsKnown (rd b 48 4), 48)])
          (fun s _ b => if statsKnown (rd b 48 4) ∧ s.statsVacant (rd b 48 4) then some 48 else none), [], s.stats b, false, (s.stats b).length),
        (.certChainGet src, 0x0703, Sem.read (fun s _ => s.certChain), [], s.certChain, false, s.certChain.length),
        (.bistResult src, 0x0902, Sem.read (fun s _ => s.bistReport), [], s.bistReport, false, s.bistReport.length),
        (.thermalRead src, 0x0A02, Sem.readFree (fun s _ => s.thermal), [], s.thermal, true, 3936),
        (.linkStatus src, 0x0B01, Sem.read (fun s _ => ((List.range 16).map s.linkRec).flatten), [], ((List.range 16).map s.linkRec).flatten, false, 1024),
        (.siteStatus src, 0x0B03, Sem.read (fun s _ => ((List.range 12).map s.siteRec).flatten), [], ((List.range 12).map s.siteRec).flatten, false, 768),
        (.nvRecordRead src, 0x0104, Sem.read (fun s b => s.nvSlots b) (fun s _ => [BitVec.ofNat 8 s.nvNewest])
          (fun _ _ b => firstBad [(decide (rdb b 48 > 63), 48), (decide (rdb b 49 < 1 ∨ rdb b 49 > 64), 49)]), [BitVec.ofNat 8 s.nvNewest], s.nvSlots b, false,
          (s.nvSlots b).length)] →
      letterRuns s src op sem b → res.length = n ∧ exec i s = .next (if free then (s.result src own res).tookFree else s.result src own res))
    ∧ recHas s.identity 0 [(0, 4, Config.mfrId.toNat), (20, 4, s.fuse.package.toNat), (24, 4, s.fuse.population.toNat), (28, 4, s.links.ownInc.toNat),
        (33, 1, s.dev.unfitCause.toNat), (34, 1, s.dev.layout), (35, 1, s.links.device), (37, 1, b2n s.dev.priority), (38, 2, s.dev.spreadS), (40, 4, s.flash.fusedSv)]
    ∧ (s.serves = true → recHas s.identity 0 [(32, 1, s.stateCode)])
    ∧ (∀ n, n < 12 → recHas s.identity (128 + 96 * n) [(9, 1, (s.site n).mode.code)]
      ∧ ((s.site n).block = [] → recHas s.identity (128 + 96 * n) [(0, 8, 0), (8, 1, 0), (16, 80, 0)])
      ∧ ((s.site n).block ≠ [] → recHas s.identity (128 + 96 * n) [(0, 8, rd (s.site n).block 8 8), (16, 16, rd (s.site n).block 16 16),
          (32, 32, rd (s.site n).block 32 32), (64, 32, rd (s.site n).block 192 32)]))
    ∧ recHas s.capTable 0 [(0, 4, 1), (4, 4, 8320), (8, 4, s.fuse.population.toNat), (24, 4, 2250000), (42, 1, s.dev.layout), (48, 8, 672 * 2 ^ 30),
        (56, 2, s.dev.spreadS), (58, 1, b2n s.dev.priority), (79, 1, s.links.device), (100, 2, s.pwr.cap), (116, 4, 16384), (120, 4, s.flash.fusedSv)]
    ∧ (∀ a, a < 8064 → recHas s.capTable (256 + a) [(0, 1, if s.vacantSite (a / 672) then 0 else s.width (a / 4) (a % 4))])
    ∧ (∀ l, l < 16 → recHas s.capTable (80 + l) [(0, 1, (s.port l).width)])
    ∧ (∀ c n, (c, n) ∈ [(0x01, 6), (0x02, 13), (0x03, 23), (0x08, 22), (0x0D, 22), (0x0E, 22), (0x0F, 22), (0x09, 18), (0x0A, 6), (0x0B, 25), (0x0C, 24)] →
      rd b 48 4 / 2 ^ 24 = c → (s.stats b).length = 16 + 8 * n ∧ recHas (s.stats b) 0 [(0, 4, rd b 48 4), (4, 4, n), (8, 8, s.time)])
    ∧ recHas s.certChain 0 [(0, 4, 4), (8, 1, if s.sec.debug = .vendor then 2 else 1)]
    ∧ (s.sec.bistResult = [] → s.bistReport.length = 576 ∧ recHas s.bistReport 0 [(0, 4, 1), (4, 4, 576), (9, 1, 0)])
    ∧ (s.sec.bistResult.length = 576 → s.bistReport = s.sec.bistResult)
    ∧ recHas s.thermal 0 [(0, 4, 1), (4, 4, 484), (8, 8, s.pwr.rounds), (16, 8, s.pwr.roundTime), (24, 4, s.inputMw), (28, 2, s.pwr.cap)]
    ∧ (∀ c, c < 484 → recHas s.thermal (64 + 8 * c) [(0, 2, c), (2, 1, chKind c),
        (3, 1, b2n (s.pwr.suspect.contains c) + 2 * b2n (s.chan c).isNone + 4 * b2n (s.pwr.suspect.contains c && (nbMedian s.pwr.readings s.pwr.suspect c).isSome)
          + 8 * b2n (s.pwr.clamped.contains c))]
      ∧ ∀ v, s.chan c = some v → recHas s.thermal (64 + 8 * c) [(4, 4, ((if chKind c = 0 then milliC v else v) % 2 ^ 32).toNat)])
    ∧ (∀ l, l < 16 → recHas (((List.range 16).map s.linkRec).flatten) (64 * l) [(0, 4, 0x0E000000 + l), (4, 1, (s.port l).mode.code), (5, 1, (s.port l).width),
        (6, 1, (s.port l).lanes.toNat), (7, 1, (s.port l).group), (8, 1, (s.port l).partner), (9, 1, (s.port l).partnerPort), (10, 1, (s.port l).cause.toNat),
        (11, 1, b2n (s.links.fenced.contains (s.port l).partner) + 2 * b2n s.links.below + 4 * b2n (s.port l).pdSent), (12, 4, (s.port l).inc.toNat),
        (16, 8, (s.port l).fecFixed.toNat), (24, 4, (s.port l).fecUnfixed.toNat), (28, 4, (s.port l).replays.toNat), (32, 4, (s.port l).retrains.toNat),
        (36, 4, (s.port l).ser.toNat), (40, 8, (s.port l).bytesOut.toNat), (48, 8, (s.port l).bytesIn.toNat), (56, 4, (s.port l).refused.toNat),
        (60, 2, (s.port l).expressMax.toNat), (62, 2, 0)])
    ∧ (∀ n, n < 12 → recHas (((List.range 12).map s.siteRec).flatten) (64 * n) [(0, 4, 0x02000000 + n), (4, 1, (s.site n).mode.code), (5, 1, (s.site n).version),
        (6, 2, rd (s.site n).block 8 2), (8, 2, rd (s.site n).block 10 2), (10, 1, if s.guestSite n then 0xFF else tget 21 s.dev.deadPos n),
        (11, 1, (s.site n).cause.toNat), (15, 1, 0), (16, 4, min 0xFFFFFFFF (tget 0 (s.site n).err 0).toNat), (20, 2, (s.site n).pGrant), (22, 2, (s.site n).pNow),
        (24, 2, (s.site n).temp), (26, 2, (s.site n).array), (28, 4, min 0xFFFFFFFF (tget 0 (s.site n).err 2).toNat)])
    ∧ (letterRuns s src 0x0103 semLogRead b → ∀ (st oldest : Nat) (l : List LogEntry), st = rd b 48 8 →
      oldest = (match s.log.ring with | e :: _ => e.seq | [] => s.log.nextSeq) → l = (s.log.ring.filter (fun e => decide (max st oldest ≤ e.seq))).take (rd b 56 4) →
      exec (.logRead src) s = .next (s.result src (le 8 (max st oldest) ++ le 8 (max st oldest
          + (match src with | .host _ _ _ => l.take (rd b 40 4 / 64) | .mgmt _ => l).length) ++ le 4 (if st ≠ 0 ∧ st < oldest then oldest - st else 0))
        ((match src with | .host _ _ _ => l.take (rd b 40 4 / 64) | .mgmt _ => l).flatMap LogEntry.bytes)))
    ∧ (letterRuns s src 0x0A05 semMargin b → (nbit (rdb b 48) 0 = false → s.margins.length = 608 ∧ exec (.marginReport src) s = .next (s.result src [] s.margins)
          ∧ recHas s.margins 0 [(0, 4, 1), (4, 4, s.flash.poh), (8, 8, s.time), (16, 8, s.pwr.measured), (24, 2, s.pwr.cap)])
      ∧ (nbit (rdb b 48) 0 = true → exec (.marginReport src) s = .next (State.busyLetter { s with pwr := { s.pwr with measuring := true } } src)))
    ∧ (letterRuns s src 0x0602 semHistogram b → ∃ u : State, exec (.histogramRead src) s = .next (u.result src [] (s.histogram (ctxOf b))) ∧ (s.histogram (ctxOf b)).length = 5376
      ∧ recHas (s.histogram (ctxOf b)) 0 [(0, 2, ctxOf b), (4, 4, rd (s.mctx (ctxOf b)).contract 16 4), (8, 8, s.time)] ∧ { u with serve := s.serve } = s
      ∧ (∀ j, j ≠ ctxOf b → u.mctx j = s.mctx j) ∧ (nbit (rdb b 48) 0 = true → (u.mctx (ctxOf b)).cur = { start := s.time } ∧ (u.mctx (ctxOf b)).last.stop = s.time))
    ∧ (letterRuns s src 0x0605 semCapacity b → s.ctxLive (ctxOf b) = true → exec (.capacityStatement src) s =
        .next (State.result (s.setMctx (ctxOf b) { s.mctx (ctxOf b) with mix := mixOf b }) src [] (s.statement b)))
    ∧ (letterRuns s src 0x0605 semCapacity b → (s.ctxLive (ctxOf b) = false → exec (.capacityStatement src) s = .next (s.result src [] (s.statement b)))
      ∧ (s.statement b).length = 128 ∧ recHas (s.statement b) 0 [(0, 4, 1), (4, 4, rd b 48 4), (8, 2, ctxOf b), (10, 1, (s.model (rd b 48 4)).part), (11, 1, s.dev.layout),
          (56, 4, s.aclkSus (s.model (rd b 48 4)).part), (62, 1, s.topRefresh (s.model (rd b 48 4)).part), (80, 8, s.time)])
    ∧ (letterRuns s src 0x0701 semAttest b → exec (.attestGet src) s = .next (s.queueSig { src := src, kind := .attest }))
    ∧ (letterRuns s src 0x0603 semReceipt b → ∃ u : State, exec (.receiptGet src) s =
        .next (u.queueSig { src := src, kind := .receipt (ctxOf b), snap := State.receipt (s.busyTouch (ctxOf b)) (ctxOf b) (slice b 48 32) })
      ∧ { u with serve := s.serve } = s ∧ (u.mctx (ctxOf b)).nextRcpt = (s.mctx (ctxOf b)).nextRcpt + 1 ∧ (u.mctx (ctxOf b)).changed = false
      ∧ (u.mctx (ctxOf b)).rcpt = { start := s.time } ∧ ∀ j, j ≠ ctxOf b → u.mctx j = s.mctx j)
    ∧ (∀ j : SigJob, j.src = src → j.kind = .attest → s.sec.sig = none → s.sec.sigQ = [] → s.sec.unlock = none → s.sec.activate = none → s.board.resetDue = false →
      s.queueSig j = (let u := s.busyLetter src; { u with sec := { u.sec with sig := some { j with snap := s.report (slice b 48 32) none } } }))
    ∧ (∀ j : SigJob, j.src = src → s.sec.sig.isSome = true → s.queueSig j = (let u := s.busyLetter src; { u with sec := { u.sec with sigQ := u.sec.sigQ ++ [j] } }))
    ∧ recHas (s.report (slice b 48 32) none) 0 [(0, 4, 1), (4, 4, 21032), (8, 8, s.dev.generation), (16, 8, s.time), (24, 4, s.fuse.package.toNat),
        (28, 4, s.fuse.population.toNat), (32, 4, s.links.ownInc.toNat), (36, 1, s.stateCode), (39, 1, s.dev.layout), (40, 4, s.flash.fusedSv), (44, 4, 2 * b2n s.dev.bist),
        (48, 32, rd b 48 32)]
/-- R148, R182, R310, R320, R370, R371, R387, R456, R462, R463, R473, R495–R497: a POWER_CAP_SET holds its sender's cap, and a cap in effect falls at
once; a user offset is clamped and counted and replaces its channel's; the calibration page is written; FLIP_MASK_SET writes the three
registers; BANDWIDTH_MODE_SET sets SLOTS and, with RATES, the buckets at once and MODE in the saved settings alone; a write of the saved
settings replaces the older copy and keeps its other sections, and then its letters are answered; LINK_RETRAIN configures first and retrains each named
port; CONTRACT_SET ends the window; BIST_RUN is accepted, and its end restores the device and keeps the result. -/
def Obligations.ManageLetters : Prop :=
  ∀ (s : State) (src : LSrc) (b : Bytes) (c : Nat), c = ctxOf b → s.letterAt src = some b →
    (letterRuns s src 0x0A01 semPowerCap b → ∃ u : State, exec (.powerCapSet src) s = .next (u.done src [])
      ∧ u.pwr.capMg = (if isHost src then s.pwr.capMg else rd b 32 2) ∧ u.pwr.capOp = (if isHost src then rd b 32 2 else s.pwr.capOp)
      ∧ u.pwr.cap = min s.pwr.cap (min u.pwr.capOp u.pwr.capMg) ∧ (s.pwr.cap ≤ min u.pwr.capOp u.pwr.capMg → { u with pwr := s.pwr } = s)
      ∧ u.hbm = s.hbm ∧ u.cores = s.cores ∧ u.ctxs = s.ctxs ∧ u.flash = s.flash ∧ u.dev = s.dev)
    ∧ (letterRuns s src 0x0A03 semCalSet b → rd b 32 2 = 1 → ∀ (ch : Nat) (off lim v : Int) (cl : Bool), ch = rd b 40 2 → off = (BitVec.ofNat 16 (rd b 42 2)).toInt →
      lim = (if ch < 302 then 48 else if ch < 374 then 0 else if ch < 435 then 100 else 200) → v = max (-lim) (min lim off) →
      cl = (decide (302 ≤ ch ∧ ch < 374) || v != off) → ch < 484 ∧ exec (.calUserSet src) s = .next (State.done { s with pwr := { s.pwr with
        user := if v = 0 then tdel s.pwr.user ch else tset s.pwr.user ch v
        clamped := if cl then sins ch s.pwr.clamped else srem ch s.pwr.clamped } } src (le 2 (b2n cl))))
    ∧ (letterRuns s src 0x0A03 semCalSet b → ∃ (u : State) (n : Nat), exec (.calUserSet src) s = .next (u.done src (le 2 n)) ∧ n ≤ rd b 32 2
      ∧ { u with pwr := { u.pwr with user := s.pwr.user, clamped := s.pwr.clamped } } = s
      ∧ ∀ ch, (∀ i, i < rd b 32 2 → rd b (40 + 4 * i) 2 ≠ ch) → tfind u.pwr.user ch = tfind s.pwr.user ch)
    ∧ (letterRuns s src 0x0A04 semCalSave b → exec (.calUserSave src) s =
        .next (State.done { s with flash := { s.flash with calPage := some s.pwr.user, calBad := false } } src []))
    ∧ (letterRuns s src 0x0903 semFlip b → rdb b 32 < 12 ∧ exec (.flipMaskSet src) s = .next (State.done (s.setStack (rdb b 32) { s.stack (rdb b 32) with
        flipCtl := pack 64 [(63, b2n (nbit (rdb b 33) 1)), (62, b2n (nbit (rdb b 33) 0)), (0, rd b 36 4)]
        flipData := BitVec.ofNat 256 (rd b 40 32), flipCheck := BitVec.ofNat 32 (rd b 72 4) }) src []))
    ∧ (letterRuns s src 0x0A06 semBandwidth b → ∃ u : State, exec (.bandwidthModeSet src) s = .next (u.busyLetter src) ∧ u.dev.priority = s.dev.priority
      ∧ 1 ∈ u.dev.saveSecs ∧ { u with dev := s.dev, hbm := s.hbm } = s ∧ ∀ k, k < 12 → (u.stack k).prio = setBf (s.stack k).prio 4 0 (rdb b 33)
        ∧ (nbit (rdb b 34) 0 = false → (u.stack k).buckets = (s.stack k).buckets)
        ∧ (nbit (rdb b 34) 0 = true → ∀ i, i < 5 → tget ({} : Bucket) (u.stack k).buckets i = { tget ({} : Bucket) (s.stack k).buckets i with
            new := some (pack 64 [(32, rd b (44 + 8 * i) 2), (17, rdb b (46 + 8 * i)), (0, rd b (40 + 8 * i) 4)]) }))
    ∧ (letterRuns s src 0x0803 semSettingsSave b → ∃ u : State, exec (.settingsSave src) s = .next (u.busyLetter src)
      ∧ { u with dev := { u.dev with saveSecs := s.dev.saveSecs } } = s
      ∧ ∀ t, t ∈ u.dev.saveSecs ↔ t ∈ s.dev.saveSecs ∨ t ∈ [1, 2, 3, 4, 5] ∨ (nbit (rdb b 32) 0 = true ∧ t ∈ [6, 7, 8, 9]))
    ∧ (s.dev.mode = .off ∨ s.dev.saveSecs = [] → exec .settingsWrite s = .next s)
    ∧ (s.dev.mode ≠ .off → s.dev.saveSecs ≠ [] → ∃ t, exec .settingsWrite s = .next t ∧ t.dev = { s.dev with saveSecs := [] } ∧ t.hbm = s.hbm
      ∧ (∀ q ∈ t.letters, q.src ∉ s.busyOf 0x0803 ∧ q.src ∉ s.busyOf 0x0A06)
      ∧ ∃ (d : Nat) (x : SavedCopy), d = (match s.validCopy with | some i => 1 - i | none => 0) ∧ t.flash = { s.flash with copies := tset s.flash.copies d x } ∧ x.valid = true
        ∧ x.seq = max (tget ({} : SavedCopy) s.flash.copies 0).seq (tget ({} : SavedCopy) s.flash.copies 1).seq + 1
        ∧ x.package = s.fuse.package ∧ x.population = s.fuse.population
        ∧ (∀ n, n ∉ s.dev.saveSecs → tfind x.sections n = s.savedSection n) ∧ (∀ n, n ∈ s.dev.saveSecs → (tfind x.sections n).isSome = true)
        ∧ (1 ∈ s.dev.saveSecs → s.busyOf 0x0A06 = [] → tfind x.sections 1 = some s.configBytes))
    ∧ (letterRuns s src 0x0B02 semLinkRetrain b → s.isBusy src = false →
      (rd b 32 2 = 0 → nbit (rdb b 34) 0 = true → ∃ u : State, exec (.linkRetrain src) s = .next (u.done src []) ∧ u.links.device = rdb b 35 ∧ u.links.minPorts = rdb b 36
        ∧ ∀ l, l < 16 → u.port l = { s.port l with group := rdb b (40 + l), unused := BitVec.ofNat 8 (rdb b (56 + l)) })
      ∧ ∀ l, l < 16 → rd b 32 2 = 2 ^ l → nbit (rdb b 34) 0 = false → ∃ u : State, exec (.linkRetrain src) s = .next (if u.retrained b then u.done src [] else u.busyLetter src)
        ∧ (u.port l).mode = (if (s.port l).unused = 0xFF then .disabled else .training) ∧ (u.port l).signal = false)
    ∧ (∀ p f k, src = .host p f k → p < 2 → f < 32 → k < 64 → opOf b = 0x0B02 → s.isBusy src = true →
      exec (.linkRetrain src) s = .next (if s.retrained b then s.done src [] else s))
    ∧ (letterRuns s src 0x0601 semContractSet b → ∃ u : State, exec (.contractSet src) s = .next (u.done src []) ∧ (u.mctx c).contract = slice b 32 24
      ∧ (u.mctx c).since = s.time ∧ (u.mctx c).changed = true ∧ (u.mctx c).cur = { start := s.time } ∧ (u.mctx c).last.stop = s.time
      ∧ (∀ j, j ≠ c → u.mctx j = s.mctx j) ∧ u.hbm = s.hbm ∧ u.cores = s.cores ∧ u.ctxs = s.ctxs)
    ∧ (∀ p f k, src = .host p f k → letterRuns s src 0x0901 semBistRun b → s.ctxs = [] ∧ s.serve.models = [] ∧ ∃ u : State, exec (.bistRun src) s = .next (u.answer src 1 [] [])
      ∧ u.dev = { s.dev with generation := s.dev.generation + 1, bist := true } ∧ u.sec = { s.sec with bistStart := s.time }
      ∧ u.works = s.works ++ [{ kind := .bist (rdb b 32), p := p, f := f, letter := b }] ∧ ∀ d, d < 4 → (u.xl (12 + d)).physEn = true)
    ∧ ∀ (sigs : Tbl Nat) (fails : Tbl (Nat × Nat)) (cols : List (Nat × Nat)),
      ((∀ w ∈ s.works, ∀ n, w.kind ≠ .bist n) → exec (.bistRunComplete sigs fails cols) s = .next s)
      ∧ ∀ w n, s.works.find? (fun w => match w.kind with | .bist _ => true | _ => false) = some w → w.kind = .bist n →
        ∃ t, exec (.bistRunComplete sigs fails cols) s = .next t ∧ t.dev.bist = false ∧ t.dev.generation = s.dev.generation + 1 ∧ t.links.ownInc = s.links.ownInc
          ∧ (∀ w ∈ t.works, ∀ n, w.kind ≠ .bist n) ∧ t.sec.bistResult = (s.bistOutcome n sigs fails (if nbit n 1 then s.newColumns cols else [])).1
          ∧ t.sec.bistResult.length = 576 ∧ rdb t.sec.bistResult 8 = n % 256 ∧ rd t.sec.bistResult 24 8 = s.time % 2 ^ 64
          ∧ (rdb t.sec.bistResult 9 = 1 ↔ ∀ d, d < 16 → s.bistTests d = true →
              (nbit n 0 = true → tget 0 sigs d % 2 ^ 64 = s.bistExpected d) ∧ (nbit n 1 = true → (tget (0, 0xFFFFFFFF) fails d).1 = 0))
/-- R359–R361, R371, R377, R410–R412, R414, R415, R417–R426, R465–R467, R487: a session opens with a fresh key pair and its report is queued to be signed; SESSION_KEY gives
it its keys where CONFIRM matches and closes it otherwise; a signature that ends answers its letter; DEBUG_UNLOCK moves between LOCKED and
OPERATOR_DEBUG at once and to VENDOR_DEBUG through the steps of R426; an image verified is staged in the slot that does not run, and
activated once no signature is in progress; the DRBG stops and resumes; a model is loaded, or its ID is free again, and unloaded; a prompt
record that opens and keeps its rules makes its request wait, any other ends it. -/
def Obligations.SecurityCommands : Prop :=
  ∀ (s : State) (src : LSrc) (b : Bytes), s.letterAt src = some b →
    (∀ p f k, src = .host p f k → letterRuns s src 0x0401 semSessionOpen b → ∃ (u : State) (q : SessState),
      exec (.sessionOpen src) s = .next (u.queueSig { src := src, kind := .session s.serve.nextSess (nbit (rd b 80 4) 0) })
      ∧ tfind u.serve.sessions s.serve.nextSess = some q ∧ u.serve = { s.serve with sessions := tset s.serve.sessions s.serve.nextSess q, nextSess := s.serve.nextSess + 1 }
      ∧ q.p = p ∧ q.f = f ∧ q.ctx = ctxOf b ∧ q.opened = s.time ∧ q.okm = [] ∧ q.hr = [] ∧ q.ek.length = 1568 ∧ { u with serve := s.serve, sec := s.sec, fresh := s.fresh } = s)
    ∧ (letterRuns s src 0x0402 semSessionKey b → ∀ (q : SessState) (t okm : Bytes), q = s.sess (sessOf b) → t = sha (q.hr ++ slice b 32 1568) →
      okm = expand (extract t (kemDecaps q.dk (slice b 32 1568))) (ascii "ZLV-H12 session v1" ++ le 4 (sessOf b)) 152 →
      (slice b 1600 32 = hmac (slice okm 64 32) (ascii "client confirm" ++ t) → exec (.sessionKey src) s =
        .next ((s.setSess (sessOf b) { q with okm := okm, dk := [] }).done src (hmac (slice okm 96 32) (ascii "device confirm" ++ t))))
      ∧ (slice b 1600 32 ≠ hmac (slice okm 64 32) (ascii "client confirm" ++ t) → exec (.sessionKey src) s = .next ((s.closeSess (sessOf b)).answerErr src 0x0201 0)))
    ∧ (s.sec.sig = none → exec .signatureComplete s = .next s)
    ∧ (∀ (j : SigJob) (u : State), s.sec.sig = some j → j.mute = false → s.sec.sigQ = [] → s.sec.unlock = none → u = { s with sec := { s.sec with sig := none } } →
      (∀ w, s.sec.activate = some w → exec .signatureComplete s = .next ((u.sigAnswer j).activateNow w))
      ∧ (s.sec.activate = none → exec .signatureComplete s = .next (u.sigAnswer j))
      ∧ (j.kind = .attest → u.sigAnswer j = u.result j.src (slice j.snap 8 8) (j.snap ++ slhSign (if s.sec.debug = .vendor then s.sec.dbg else s.sec.att) j.snap))
      ∧ ∀ id chain, j.kind = .session id chain → (tfind s.serve.sessions id = none → u.sigAnswer j = u.answerErr j.src 0x0401 0)
        ∧ (tfind s.serve.sessions id ≠ none → chain = false → u.sigAnswer j = (u.setSess id { s.sess id with hr := sha j.snap }).result j.src
            (le 4 id ++ le 4 21032 ++ le 4 0) (j.snap ++ slhSign (if s.sec.debug = .vendor then s.sec.dbg else s.sec.att) j.snap)))
    ∧ (∀ tok, letterRuns s src 0x0702 (semUnlock tok) b → s.sec.unlock ≠ some src → s.sec.debugFuse = false ∧ s.sec.debug ≠ .vendor ∧ rdb b 32 ≤ 2
      ∧ (debugTarget (rdb b 32) = s.sec.debug → exec (.debugUnlock src tok) s = .next (s.done src []))
      ∧ (debugTarget (rdb b 32) ≠ s.sec.debug → rdb b 32 < 2 → exec (.debugUnlock src tok) s = .next (State.done { s with
          sec := { s.sec with debug := debugTarget (rdb b 32) }, dev := { s.dev with generation := s.dev.generation + 1 } } src []))
      ∧ (rdb b 32 = 2 → s.unlockGood src b tok = true
        ∧ (s.sec.sig.isSome = true ∨ s.mayDestroyAll = false → exec (.debugUnlock src tok) s = .next (State.busyLetter { s with sec := { s.sec with unlock := some src } } src))
        ∧ (s.sec.sig = none → s.mayDestroyAll = true → ∃ t : State, exec (.debugUnlock src tok) s = .next t ∧ t.sec.debug = .vendor ∧ t.sec.att = [] ∧ t.sec.bind = []
          ∧ t.sec.offload = [] ∧ t.sec.unlock = none ∧ t.serve.sessions = [] ∧ t.serve.models = [] ∧ t.serve.allocs = [] ∧ t.ctxs = []
          ∧ s.dev.generation < t.dev.generation)))
    ∧ (letterRuns s src 0x0801 semFwStage b → s.isStaged = false ∧ s.staging = false
      ∧ exec (.fwStage src) s = .next (State.answer { s with works := s.works ++ [workOf src b .fwStage] } src 1 [] []))
    ∧ (∀ img : FwImage, (s.staging = false → exec (.fwStageComplete img) s = .next s)
      ∧ ∀ w (u : State), s.works.find? (fun w => w.kind == .fwStage) = some w → u = { s with works := s.works.filter (fun w => w.kind != .fwStage) } →
        (img.sigOk = false → exec (.fwStageComplete img) s = .next (u.workDone w 0x0202 []))
        ∧ (img.sigOk = true → img.sv < s.flash.fusedSv → exec (.fwStageComplete img) s = .next (u.workDone w 0x0204 []))
        ∧ (img.sigOk = true → s.flash.fusedSv ≤ img.sv → img.badPart ≠ none → exec (.fwStageComplete img) s = .next (u.workDone w 0x0202 []))
        ∧ (img.sigOk = true → s.flash.fusedSv ≤ img.sv → img.badPart = none → exec (.fwStageComplete img) s = .next (State.workDone { u with
            dev := { s.dev with generation := s.dev.generation + 1 }
            flash := { s.flash with slots := tset s.flash.slots (1 - s.flash.active) img
                                    staged := s.flash.staged ||| BitVec.ofNat 8 (2 ^ (1 - s.flash.active)) } } w 0 [])))
    ∧ (letterRuns s src 0x0802 semFwActivate b → s.ctxs = [] ∧ s.isStaged = true
      ∧ (s.sec.sig.isSome = true → exec (.fwActivate src) s = .next (State.busyLetter { s with sec := { s.sec with activate := some src } } src))
      ∧ (s.sec.sig = none → exec (.fwActivate src) s = .next (State.done { s with
          flash := { s.flash with active := 1 - s.flash.active, trial := true, tries := 0, staged := 0 }, board := { s.board with resetDue := true }
          sec := { s.sec with activate := none } } src [])))
    ∧ (s.sec.drbgStop = false → exec .drbgReseed s = .next { s with sec := { s.sec with reseeded := s.time, generates := 0 } })
    ∧ (s.sec.drbgStop = true → exec .drbgReseed s = .next s)
    ∧ exec .entropyHealthFail s = .next { s with sec := { s.sec with drbgStop := true, restartAt := s.time } }
    ∧ exec .entropyTestsPass s = .next { s with sec := { s.sec with drbgStop := false } }
    ∧ (s.sec.drbgStop = false → exec .entropyRestartTimeout s = .next s)
    ∧ (s.sec.drbgStop = true → ∃ (t : State) (d : Bytes), exec .entropyRestartTimeout s = .next t ∧ t = State.logAt { s with fresh := t.fresh } 0x0605 uidRtp 0 d)
    ∧ (∀ p f k, src = .host p f k → letterRuns s src 0x0301 semModelLoad b → s.serve.models.length < 16 ∧ ∃ u : State, exec (.modelLoad src) s = .next (u.answer src 1 (le 4 s.serve.nextModel) [])
      ∧ u = { s with works := s.works ++ [{ kind := .modelLoad s.serve.nextModel, p := p, f := f, letter := b }]
                     serve := { s.serve with models := tset s.serve.models s.serve.nextModel { part := rdb b 48 }, nextModel := s.serve.nextModel + 1 } })
    ∧ (∀ m e, ((∀ w ∈ s.works, w.kind ≠ .modelLoad m) → exec (.modelLoadComplete m e) s = .next s)
      ∧ ∀ w (u : State), s.works.find? (fun w => w.kind == .modelLoad m) = some w → u = { s with works := s.works.filter (fun w => w.kind != .modelLoad m) } →
        (∀ st, envHeader e (rd w.letter 40 8) = some st → exec (.modelLoadComplete m e) s =
            .next ((u.setServe { s.serve with models := tdel s.serve.models m }).workDone w st []))
        ∧ (envHeader e (rd w.letter 40 8) = none → s.sec.bind = [] →
            Config.slhVerify (rdb e 6) (envPk e) (slice e 0 (envSigned e)) (slice e (envSigned e) (sigBytes (rdb e 6))) = true → slice w.letter 56 32 = zeros 32 →
            exec (.modelLoadComplete m e) s = .next ((u.setServe { s.serve with models := tdel s.serve.models m }).workDone w 0x0203 []))
        ∧ ∃ (st : Nat) (body : Bytes) (v : State), exec (.modelLoadComplete m e) s = .next (v.workDone w st body)
          ∧ (st = 0 → ∃ x, tfind v.serve.models m = some x ∧ x.loaded = true ∧ x.part = (s.model m).part ∧ x.weights = rd e 24 8 ∧ x.owner = sha (envPk e)
              ∧ x.digest = sha (slice e 0 (envSigned e)) ∧ v.dev.generation = s.dev.generation + 1)
          ∧ (st ≠ 0 → tfind v.serve.models m = none ∧ v.serve.allocs = s.serve.allocs ∧ v.dev.generation = s.dev.generation ∧ body = [])
          ∧ (∀ j, j ≠ m → tfind v.serve.models j = tfind s.serve.models j) ∧ v.ctxs = s.ctxs)
    ∧ (letterRuns s src 0x0302 semModelUnload b → (∀ c ∈ s.ctxs, c.2.model ≠ rd b 32 4) ∧ ∃ u : State, exec (.modelUnload src) s = .next (u.done src [])
      ∧ tfind u.serve.models (rd b 32 4) = none ∧ (∀ a ∈ u.serve.allocs, a.model ≠ rd b 32 4) ∧ u.dev.generation = s.dev.generation + 1
      ∧ (∀ j, j ≠ rd b 32 4 → tfind u.serve.models j = tfind s.serve.models j) ∧ u.ctxs = s.ctxs)
    ∧ ∀ (i : Nat) (rec_ : Bytes), (∀ r, s.req i = some r → r.phase ≠ .pulling) → exec (.promptUnseal i rec_) s = .next s

/-- R377, R414, R415, R487: the prompt record of a request that is pulled: twice poisoned it ends the request with ABORTED; one that does
not open under the session's key for the letter's SESSION and PROMPT_LEN, or whose SEQ the window refuses, ends it with BAD_SEAL and leaves the window; an
accepted one moves the window, and the request waits with the record's head and tokens, or ends with ABORTED where the record breaks R376. -/
def Obligations.PromptRecords : Prop :=
  ∀ (s : State) (i : Nat) (b : Bytes) (r : ReqState) (q : SessState), s.req i = some r → r.phase = .pulling → q = s.sess r.sess →
    (b = [] → exec (.promptUnseal i b) s = .next (s.endReq i 0x0401))
    ∧ (b ≠ [] → (q.okm = [] ∨ openRec 1 r.sess (slice q.okm 0 32) (slice q.okm 128 12) (slice b 0 r.promptLen) = none) →
        exec (.promptUnseal i b) s = .next (s.endReq i 0x0201))
    ∧ (∀ seq x pt, b ≠ [] → q.okm ≠ [] → openRec 1 r.sess (slice q.okm 0 32) (slice q.okm 128 12) (slice b 0 r.promptLen) = some (seq, x, pt) →
      ((seq = 2 ^ 64 - 1 ∨ seq ∈ q.win ∨ (∃ h, q.high = some h ∧ seq + 64 ≤ h)) → exec (.promptUnseal i b) s = .next (s.endReq i 0x0201))
      ∧ (¬ (seq = 2 ^ 64 - 1 ∨ seq ∈ q.win ∨ (∃ h, q.high = some h ∧ seq + 64 ≤ h)) →
        ∃ u : State, u = s.setSess r.sess (q.accept seq) ∧ seq ∈ (q.accept seq).win ∧ (∀ h, q.high = some h → (q.accept seq).high = some (max h seq))
          ∧ (u.promptTokens r.ctx pt = none → exec (.promptUnseal i b) s = .next (u.endReq i 0x0401))
          ∧ ∀ toks, u.promptTokens r.ctx pt = some toks → exec (.promptUnseal i b) s =
              .next (u.putReq i { r with phase := .waiting, head := pt.take 224, prompt := toks })))
    ∧ (∀ n m pt, rd b 0 4 ≠ 0x31534C5A ∨ rdb b 4 ≠ 1 ∨ rdb b 5 ≠ 1 ∨ rd b 8 4 ≠ r.sess ∨ rd b 12 4 + 48 ≠ b.length →
        openRec 1 r.sess n m b ≠ some pt)

/-! ## Serving and contracts (chapter 15) -/

/-- R375, R378, R381–R384, R389, R399, R489: a step starts only for the partition's current context where it is next in the round, with at most MAX_BATCH decoding sequences; at its
end each decode row's token is processed and the next sampled, greedily the lowest-numbered of the highest logits; a switch to the context
that is next makes it current, with its ASID and settings in the partition's winnow routers and page sieve units, and one that is not next does
nothing; a step that times out is a PARTITION error. -/
def Obligations.StepsAndSwitches : Prop :=
  ∀ (s : State) (p : Nat), p < 4 →
    (s.schedules p = false → exec (.stepStart p) s = .next s ∧ ∀ c, exec (.contextSwitch p c) s = .next s)
    ∧ (s.schedules p = true → (∃ t, exec (.stepStart p) s = .next t ∧ ∀ r, (t.sched p).run = some r → r.start = s.time ∧ s.current r.ctx = true ∧ r.ctx ∈ s.runnable p
          ∧ (r.rows ≠ [] ∨ r.fill ≠ []) ∧ r.rows.length ≤ (s.ctx r.ctx).maxBatch ∧ r.ctx ∈ (t.sched p).ran
          ∧ ∀ id ∈ r.rows, ∃ q, (id, q) ∈ t.serve.reqs ∧ q.ctx = r.ctx ∧ q.phase = .decoding ∧ q.held = false)
      ∧ ∀ c, ((s.openRound p).nextPick p = some c → s.current c = false → (∀ o, s.currentOf p = some o → s.mayScrub p o = true) →
          ∃ t, exec (.contextSwitch p c) s = .next t ∧ tget 0 t.dev.partAsid p = (s.ctx c).asid ∧ (∀ q, q ≠ p → tget 0 t.dev.partAsid q = tget 0 s.dev.partAsid q)
            ∧ (∀ f ∈ s.diesOf p, (t.win f).ctx = winCtxMask (winnowWord (s.ctx c)) ∧ ∀ i, i < 4 → (t.sv (4 * f + i)).ctx = svCtxMask (sieveWord (s.ctx c)))
            ∧ t.ctxs = s.ctxs ∧ t.serve.reqs = s.serve.reqs)
        ∧ ((s.openRound p).nextPick p ≠ some c ∨ s.current c = true → exec (.contextSwitch p c) s = .next s))
    ∧ ((s.sched p).run = none → (∀ l, exec (.stepEnd p l) s = .next s) ∧ exec (.stepTimeout p) s = .next s)
    ∧ ∀ r, (s.sched p).run = some r →
      (s.sec.drbgStop = false → ∀ logits, ∃ t, exec (.stepEnd p logits) s = .next t ∧ (t.sched p).run = none ∧ t.ctxs = s.ctxs ∧ t.hbm = s.hbm ∧ t.cores = s.cores)
      ∧ (∀ id q logits (l : List W32), s.sec.drbgStop = false → r.rows = [id] → r.fill = [] → s.req id = some q → q.phase = .decoding → q.fin = none → rd q.head 4 4 = 0 →
        tget [] logits id = l → l ≠ [] → ∃ (tok : Nat) (v : Nat → W32) (u : State), tok < l.length
          ∧ (∀ j, v j = (if j ∈ q.prompt ∨ j ∈ q.outp then penalised (BitVec.ofNat 32 (rd q.head 20 4)) (l.getD j 0) else l.getD j 0))
          ∧ (∀ j, j < l.length → logitGt (v j) (v tok) = false) ∧ (∀ j, j < tok → logitGt (v tok) (v j) = true)
          ∧ (∃ f, u.req id = some { q with filled := q.filled + 1, outp := q.outp ++ [tok], fin := f } ∧ (f = none ∨ f = some 0)
            ∧ (tok = rd (s.manifest q.ctx) 36 4 ∨ q.maxOut ≤ q.outp.length + 1 → f = some 0))
          ∧ u.serve.events = s.serve.events ++ [(.token, q.serial, q.ctx)]
          ∧ exec (.stepEnd p logits) s = .next (if (s.sess q.sess).tokSeq ≥ 2 ^ 64 - 1 then u.closeSess q.sess else u.sealReq id))
      ∧ ((s.part p).phase = .none → (∀ e ∈ (s.part p).reports, e.1 ≠ 0x0602) → ∃ t, exec (.stepTimeout p) s = .next t
        ∧ t.part p = { s.part p with reports := (s.part p).reports ++ [(0x0602, s.time)] } ∧ { t with log := s.log, pstate := s.pstate } = s)
      ∧ ((s.part p).phase ≠ .none ∨ (∃ e ∈ (s.part p).reports, e.1 = 0x0602) → exec (.stepTimeout p) s = .next s)

/-- R390–R393: the meter takes the events in their order and stamps each with the timebase: an arrival begins a request, a first token gives the time to
it, a token the gap since the last one less the time held inside it, and an end closes the request; each interval is counted in its bin of both
periods. The evaluation warns once of a rate in a window and ends a window that has reached WINDOW_S. -/
def Obligations.MeterAndContracts : Prop :=
  ∀ (s : State),
    (s.serve.events = [] → exec .meterEvent s = .next s)
    ∧ (∀ k n c rest, s.serve.events = (k, n, c) :: rest → ∃ t, exec .meterEvent s = .next t ∧ t.serve.events = rest
      ∧ { t with serve := s.serve } = s ∧ t.serve.reqs = s.serve.reqs ∧ t.serve.sessions = s.serve.sessions ∧ t.serve.models = s.serve.models
      ∧ (∀ j, j ≠ n → tfind t.serve.mreqs j = tfind s.serve.mreqs j)
      ∧ (k = .arrive → c < 64 → tfind t.serve.mreqs n = some { ctx := c, arrive := s.time }
          ∧ (t.mctx c).cur = (s.mctx c).cur.bump 0 ∧ (t.mctx c).rcpt = (s.mctx c).rcpt.bump 0)
      ∧ ∀ r, tfind s.serve.mreqs n = some r → r.ctx < 64 →
        (k = .first → tfind t.serve.mreqs n = some r ∧ (t.mctx r.ctx).cur = { (s.mctx r.ctx).cur with ttft := histAdd (s.mctx r.ctx).cur.ttft (s.time - r.arrive) })
        ∧ (k = .token → tfind t.serve.mreqs n = some { r with lastTok := some s.time, heldGap := 0 }
          ∧ (∀ t0, r.lastTok = some t0 → (t.mctx r.ctx).cur = { (s.mctx r.ctx).cur with itl := histAdd (s.mctx r.ctx).cur.itl (s.time - t0 - r.heldGap) })
          ∧ (r.lastTok = none → t.serve.meter = s.serve.meter))
        ∧ (k = .hold → tfind t.serve.mreqs n = some { r with holdAt := some s.time } ∧ t.serve.meter = s.serve.meter)
        ∧ (k = .unhold → ∀ t0, r.holdAt = some t0 → tfind t.serve.mreqs n = some { r with holdAt := none, heldGap := r.heldGap + (s.time - t0) }
          ∧ (t.mctx r.ctx).cur = { (s.mctx r.ctx).cur with heldNs := (s.mctx r.ctx).cur.heldNs + (s.time - t0) })
        ∧ (∀ st re, k = .end_ st re → tfind t.serve.mreqs n = none
          ∧ (st ≠ 0x0401 → st ≠ 0x0402 → (t.mctx r.ctx).cur = (if re then (s.mctx r.ctx).cur.bump 1 else (s.mctx r.ctx).cur))))
    ∧ (∃ t, exec .contractEvaluation s = .next t ∧ t.ctxs = s.ctxs ∧ t.hbm = s.hbm ∧ t.cores = s.cores ∧ t.serve.reqs = s.serve.reqs
      ∧ ∀ c, (t.mctx c).contract = (s.mctx c).contract ∧ (t.mctx c).rcpt.start = (s.mctx c).rcpt.start)
    ∧ ∀ c x ct m, s.ctxs = [(c, x)] → c < 64 → ct = (s.mctx c).contract → m = (s.busyTouch c).mctx c → ct ≠ [] → ctTtft ct = 0 → ctItl ct = 0 →
      ∃ t, exec .contractEvaluation s = .next t
        ∧ (ctRate ct = 0 → m.cur.start + rd ct 16 4 * 1000000000 ≤ s.time → (t.mctx c).cur = { start := s.time } ∧ (t.mctx c).last = { m.cur with stop := s.time })
        ∧ (ctRate ct = 0 → s.time < m.cur.start + rd ct 16 4 * 1000000000 → t = s.busyTouch c)
        ∧ (ctRate ct ≠ 0 → 1000000000 ≤ m.cur.busy → m.cur.tokens * 100 * 1000000000 ≤ ctRate ct * (100 + rd ct 20 2) * m.cur.busy → 1 ∉ m.warned →
            s.time < m.cur.start + rd ct 16 4 * 1000000000 → ((s.fn 0 0).tray.isSome = true ∨ (s.fn 1 0).tray.isSome = true) → 1 ∈ (t.mctx c).warned)
        ∧ (ctRate ct ≠ 0 → m.cur.busy < 1000000000 → s.time < m.cur.start + rd ct 16 4 * 1000000000 → t = s.busyTouch c)

/-- R391: bin 0 counts intervals below E_0, bin i those from E_(i−1) up to but excluding E_i, and bin 159 those of E_158 or more; the edges are
round(16,000 × 2^(i ÷ 8)) ns: twice an edge lies within 1 of 32,000 × 2^(i ÷ 8), eighth powers compared. -/
def Obligations.HistogramBins : Prop :=
  (∀ t, binOf t < 160 ∧ (∀ i, i < 159 → i < binOf t → binEdge i ≤ t) ∧ (binOf t < 159 → t < binEdge (binOf t)))
  ∧ ∀ i, i < 159 → (2 * binEdge i - 1) ^ 8 ≤ 32000 ^ 8 * 2 ^ i ∧ 32000 ^ 8 * 2 ^ i < (2 * binEdge i + 1) ^ 8

/-- R237, R238: a fault message opens a batch, merges into the entry of its ASID and page (DIES, COUNT and ACCESS), or
adds one; a batch with room in the ring closes: it is written to the ring with the next number and the sorting office is interrupted.
R244: at a port's decay its access counters halve.

R239, R240, R372: the oldest batch of the ring leaves it; with forwarding off, its host-backed entries are cancelled in every unit they name and an access-counter
notice asks for nothing; any other page that translates is replayed in the units of its entry and one that does not is cancelled; a batch that was
forwarded leaves its host-backed entries to the operator. -/
def Obligations.FaultBagAndBatches : Prop :=
  (∀ (s : State),
        (∀ m rest, s.bag.msgs = m :: rest → m.cause ≠ 0x10 → m.die < 16 →
          (s.bag.openB = none → exec .faultMessage s = .next { s with bag := { s.bag with msgs := rest, openB := some [faultEntOf m] } })
          ∧ (∀ e es, s.bag.openB = some (e :: es) → e.asid = m.asid → e.page = m.page → e.cause ≠ 0x10 →
            exec .faultMessage s = .next { s with bag := { s.bag with msgs := rest, openB := some ({ e with
              dies := e.dies ||| 1 <<< m.die, count := satAdd e.count 1, access := e.access ||| m.acc } :: es) } })
          ∧ (∀ es, s.bag.openB = some es → es.length + 1 < 64 →
            (∀ e ∈ es, ¬ (e.asid = m.asid ∧ e.page = m.page ∧ e.cause ≠ 0x10)) →
            exec .faultMessage s = .next { s with bag := { s.bag with msgs := rest, openB := some (es ++ [faultEntOf m]) } }))
        ∧ (∀ es, s.bag.openB = some es → s.bag.waiting = [] → s.bag.used + es.length + 1 ≤ s.bag.size →
          exec .faultBatchClose s = .next { s with bag := { s.bag with
            openB := none, nextBatch := s.bag.nextBatch + 1, irq := true
            ring := s.bag.ring ++ [{ num := s.bag.nextBatch, closeTime := s.time, entries := es }] } })
        ∧ ∀ p, p < 2 → ∃ t, exec (.accessCounterDecay p) s = .next t ∧ t = { s with acc := { s.acc with ctrs := t.acc.ctrs } }
          ∧ tget [] t.acc.ctrs p = (tget [] s.acc.ctrs p).map (fun c => { c with count := c.count / 2 })
          ∧ ∀ q, q ≠ p → tget [] t.acc.ctrs q = tget [] s.acc.ctrs q)
    ∧ (∀ (s : State),
          (s.bag.ring = [] → exec .faultBatchService s = .next s)
          ∧ ∀ b rest (u : State), s.bag.ring = b :: rest → u = { s with bag := { s.bag with ring := rest, irq := rest != [] } } →
            (∃ t, exec .faultBatchService s = .next t)
            ∧ (s.bag.forward = false → (∀ e ∈ b.entries, e.cause = 0x10 ∨ nbit e.access 4 = true) → exec .faultBatchService s =
                .next (b.entries.foldl (fun s e => if e.cause = 0x10 then s else e.units.foldl (fun s d => s.cancel d e.asid e.page) s) u))
            ∧ (s.bag.forward = true → b.entries = [] → exec .faultBatchService s = .next u)
            ∧ (∀ e, b.entries = [e] → s.bag.forward = false → nbit e.access 4 = false → e.cause ≠ 0x10 → e.cause ≠ xOffloaded → e.cause ≠ xTableError →
              ∀ ok (v : State), u.servable e = (ok, v) → exec .faultBatchService s =
                .next (e.units.foldl (fun s d => if ok then s.replay d e.asid e.page else s.cancel d e.asid e.page) v)))

/-! ## Power, temperature and wear (chapter 17) -/

/-- R441, R445, R446, R454, R456: a round reads the channels and counts itself; a die is in WARNING from 95 °C until below 90 °C, and in THROTTLE from 103 °C, or with two suspect
sensors, until below 98 °C; each stack's decided refresh step waits; every site that is UP has at least its floor. A comparator trip at 115 °C with a neighbour
median of 100 °C is a thermal shutdown; a lone one marks its sensor suspect and its die enters THROTTLE; codes below 103 °C do nothing. -/
def Obligations.RoundsAndComparators : Prop :=
  ∀ (s : State),
    (s.dev.mode = .off ∨ s.board.stage < 5 → ∀ l, exec (.housekeepingRound l) s = .next s)
    ∧ (s.dev.mode ≠ .off → 5 ≤ s.board.stage → ∀ l, ∃ t, exec (.housekeepingRound l) s = .next t ∧ t.pwr.rounds = s.pwr.rounds + 1 ∧ t.pwr.roundTime = s.time
      ∧ t.pwr.cap = min s.pwr.capOp s.pwr.capMg ∧ t.cores = s.cores ∧ (∀ c, c ∈ s.pwr.suspect → c ∈ t.pwr.suspect)
      ∧ (∀ k, k < 12 → (t.stack k).refresh = (s.stack k).refresh)
      ∧ (∀ d x, d < 16 → t.junction d = some x →
          (t.pd d).warn = (if 2544 ≤ x then true else if x < 2464 then false else (s.pd d).warn)
          ∧ (t.pd d).thr = (if 2672 ≤ x ∨ 2 ≤ t.suspects d then true else if x < 2592 then false else (s.pd d).thr))
      ∧ (6 ≤ s.board.stage → ∀ n ∈ s.upSites, s.floorOf n ≤ (t.pd n).share))
    ∧ (s.dev.mode = .off → ∀ l, exec (.comparatorSample l) s = .next s)
    ∧ (∀ codes : Tbl Nat, (∀ c, tget 0 codes c < 2672) → exec (.comparatorSample codes) s = .next s)
    ∧ (∀ (codes : Tbl Nat) d c m, s.dev.mode ≠ .off → d < 16 → s.checked d = true → c ∈ dieSensors d → 2864 ≤ tget 0 codes c →
        nbMedian (codes.map (fun e => (e.1, (e.2 : Int)))) s.pwr.suspect c = some m → 2624 ≤ m →
        ∃ t, exec (.comparatorSample codes) s = .next t ∧ t.board.tripping = true ∧ (s.board.tripping = false → t.dev.mode = .shuttingDown ∧ t.links.farewell = true
          ∧ s.dev.generation < t.dev.generation))
    ∧ ∀ d c v, s.dev.mode ≠ .off → d < 16 → s.checked d = true → c ∈ dieSensors d → 2864 ≤ v → c ∉ s.pwr.suspect → (∃ x ∈ neighbours c, x ∉ s.pwr.suspect) →
        ∃ t, exec (.comparatorSample [(c, v)]) s = .next t ∧ c ∈ t.pwr.suspect ∧ (t.pd d).thr = true ∧ t.board = s.board ∧ t.dev = s.dev

/-- R436, R438, R453, R455–R458, R287, R288, R293, R294: POWER messages set what they carry, a guest die's TJ_LIMIT is a thermal shutdown; the local controller takes the highest ratio
that fits, at most one step up, which waits for VCOMP, or holds the clocks stopped; the gauges' measurement plans each die's voltages; a decided
refresh step takes effect at its boundary; the hours count up; a guest die's other post messages are discarded and counted. -/
def Obligations.PowerMessages : Prop :=
  ∀ (s : State),
    (∀ k, k < 12 → ((s.stack k).refreshNext = none → exec (.refreshStepApply k) s = .next s)
      ∧ ∀ r, (s.stack k).refreshNext = some r → ∃ t, exec (.refreshStepApply k) s = .next t ∧ { t with log := s.log } = s.setStack k { s.stack k with refresh := r, refreshNext := none })
    ∧ (∀ d flit (u : State), d < 16 →
      u = s.setPd d { s.pd d with power := bf flit 63 48, hottest := bf flit 47 36, flags := bf flit 35 32, request := bf flit 31 16, reported := true } →
      (d < 12 → (s.site d).mode ≠ .up → exec (.powerReport d flit) s = .next s)
      ∧ (12 ≤ d ∨ ((s.site d).mode = .up ∧ (s.guestSite d = false ∨ (nbit (bf flit 35 32) 0 = false ∧ bf flit 31 16 = 0))) → exec (.powerReport d flit) s = .next u)
      ∧ (d < 12 → (s.site d).mode = .up → s.guestSite d = true → nbit (bf flit 35 32) 0 = true →
          ∃ t, exec (.powerReport d flit) s = .next t ∧ t.board.tripping = true ∧ (s.board.tripping = false → t.dev.mode = .shuttingDown))
      ∧ (d < 12 → (s.site d).mode = .up → s.guestSite d = true → nbit (bf flit 35 32) 0 = false → bf flit 31 16 ≠ 0 →
          exec (.powerReport d flit) s = .next (u.grantRequest d (bf flit 31 16))))
    ∧ (∀ d first count payload, d < 16 → (d < 12 → (s.site d).mode ≠ .up → exec (.powerTemps d first count payload) s = .next s)
      ∧ (12 ≤ d ∨ (s.site d).mode = .up → ∃ t, exec (.powerTemps d first count payload) s = .next t
        ∧ { t with pwr := { t.pwr with raw := s.pwr.raw } } = s ∧ (∀ c, c ∉ dieSensors d → tfind t.pwr.raw c = tfind s.pwr.raw c)
        ∧ ∀ i c code, i < 15 → i < count → (dieSensors d)[first + i]? = some c → code = bf (payload.getD (i / 5) 0) (12 * (i % 5) + 11) (12 * (i % 5)) →
            tfind t.pwr.raw c = if code = 0xFFF then none else some (code : Int)))
    ∧ (∀ n flit, n < 12 → (s.guestSite n = true → exec (.powerBudget n flit) s = .next s)
      ∧ (s.guestSite n = false → exec (.powerBudget n flit) s = .next (s.setPd n { s.pd n with
          budget := bf flit 63 48, ratioMax := max 8 (min 16 (bf flit 47 43)), noBudget := 0 })))
    ∧ (∀ n, n < 12 → ((s.pd n).kNext = none → exec (.vcompReached n) s = .next s)
      ∧ ∀ k v, (s.pd n).kNext = some k → v = min 800 (Config.vFuse n (16 - k) + guardMv n (s.pd n).slow) →
        exec (.vcompReached n) s = .next (let u := s.setPd n { s.pd n with k := k, kNext := none }
          u.setSite n { s.site n with vcomp := v, vsram := max 750 (v + 50) }))
    ∧ (∀ n power (x : PowerDie) (fit : Nat → Prop), n < 12 → x = s.pd n →
      (∀ r, fit r ↔ 8 ≤ r ∧ r ≤ 16 ∧ r ≤ x.ratioMax ∧ r ≤ 16 - x.k + 1 ∧ 16 - x.k ≤ r + 1 ∧ Config.ratioPower n r ≤ 16 * x.budget - (((power :: x.samples).take 16).take 15).sum) →
      (s.guestSite n = true ∨ (s.site n).mode ≠ .up ∨ s.clocksHeld = true → exec (.localPowerControl n power) s = .next s)
      ∧ (s.guestSite n = false → (s.site n).mode = .up → s.clocksHeld = false → ∃ t, exec (.localPowerControl n power) s = .next t ∧ (t.pd n).samples = (power :: x.samples).take 16
        ∧ t.hbm = s.hbm ∧ t.cores = s.cores ∧ (∀ m, m ≠ n → t.pd m = s.pd m ∧ t.site m = s.site m)
        ∧ (∀ r, fit r → (∀ q, fit q → q ≤ r) → (t.pd n).stopped = false
          ∧ (16 - x.k < r → (t.pd n).k = x.k ∧ (t.pd n).kNext = some (16 - r) ∧ t.site n = s.site n)
          ∧ (r ≤ 16 - x.k → (t.pd n).k = 16 - r ∧ (t.pd n).kNext = none ∧ (t.site n).vsram = max 750 ((t.site n).vcomp + 50)))
        ∧ ((∀ r, ¬ fit r) → (8 < 16 - x.k → (t.pd n).k = x.k + 1) ∧ (16 - x.k ≤ 8 → (t.pd n).stopped = true ∧ (t.pd n).k = x.k))))
    ∧ (s.dev.mode = .off → exec .pohTick s = .next s)
    ∧ (s.dev.mode ≠ .off → exec .pohTick s = .next { s with
        flash := { s.flash with poh := s.flash.poh + 1 }, pwr := { s.pwr with measuring := s.pwr.measuring || (s.flash.poh + 1) % 1000 == 0 } })
    ∧ (s.pwr.measuring = false → ∀ l, exec (.wearMeasureDone l) s = .next s)
    ∧ (s.pwr.measuring = true → ∀ l, ∃ t, exec (.wearMeasureDone l) s = .next t ∧ t.pwr.measuring = false ∧ t.pwr.measured = s.time
      ∧ (∀ q ∈ t.letters, q.src ∉ s.busyOf 0x0A05) ∧ ∀ (d : Nat) (v : Nat → Nat), d < 12 → s.guestSite d = false → (s.site d).mode ≠ .down → (∀ r, v r = Config.vFuse d r + guardMv d (t.pd d).slow) →
        (∀ c ∈ dieGauges d, ∀ x, tfind t.pwr.raw c = some x → x.toNat ≤ (t.pd d).slow) ∧ (t.pd d).plan = v 16
          ∧ (∀ r, (t.pd d).planMax < r → r ≤ 16 → 800 < v r) ∧ ((t.pd d).planMax = 8 ∨ v (t.pd d).planMax ≤ 800))
    ∧ ∀ n hdr pl, n < 12 → (s.guestSite n = false ∨ (s.site n).mode ≠ .up → exec (.guestPostMessage n hdr pl) s = .next s)
      ∧ (s.guestSite n = true → (s.site n).mode = .up →
        (bf hdr 63 60 = 1 → bf hdr 7 0 / (256 / s.dev.layout) = s.partOfSite n →
            exec (.guestPostMessage n hdr pl) s = .next (s.arrive (n / 3) (n % 3) (Config.diePort n) (bf hdr 7 0)))
        ∧ (bf hdr 63 60 = 3 → (postDst hdr).1 = 0x0D → (postDst hdr).2 < 32 → exec (.guestPostMessage n hdr pl) s = .next (s.deliver hdr pl))
        ∧ (bf hdr 63 60 = 5 → bf hdr 11 8 = 1 → exec (.guestPostMessage n hdr pl) s = exec (.powerReport n (pl.getD 0 0)) s)
        ∧ (bf hdr 63 60 = 5 → bf hdr 11 8 = 2 → exec (.guestPostMessage n hdr pl) s = exec (.powerTemps n (bf hdr 7 4) (bf hdr 3 0) pl) s)
        ∧ (bf hdr 63 60 ≠ 1 → bf hdr 63 60 ≠ 3 → bf hdr 63 60 ≠ 5 → exec (.guestPostMessage n hdr pl) s =
            .next ((s.siteErr n 3 1).logAt 0x0304 (uidSite n) 0 [BitVec.ofNat 8 (bf hdr 63 60), BitVec.ofNat 8 (bf hdr 7 0)])))

/-! ## Start, off and resets (chapter 18) -/

/-- May a start begin: input charged, PWR_EN and MOD_RESET_N high, nothing latched, held or failed, and the rails off (R506–R508). -/
def startsAt (u : State) : Prop :=
  u.board.inrush = true ∧ u.board.pwrEn = true ∧ u.board.modResetN = true ∧ u.board.thermtrip = false ∧ u.board.pllHold = false ∧ u.board.failed = false
    ∧ u.dev.mode = .off

/-- R6, R130, R184, R277, R279, R405, R422, R448, R465, R467, R468, R490, R506–R508: a start begins when the last of its conditions comes true, and not before; the
ROM takes the ACTIVE slot's image, else the other slot's with TRIAL clear, else it ends the start; then INCARNATION has risen. Bridges, fuses
and the population code are checked; a sensor at 95 °C holds the start until a recheck without one; a stack trains with its remap entries or is
lost; READY comes with GENERATION 1, and a lost stack makes the device UNFIT; the controller writes one message to its ring, LOG_OVERFLOW first. -/
def Obligations.StartOfDevice : Prop :=
  ∀ (s : State),
    (∀ (i : Instr) (u : State), (i = .inrushComplete ∧ u = { s with board := { s.board with inrush := true } })
      ∨ (i = .modResetNRelease ∧ u = { s with board := { s.board with modResetN := true } })
      ∨ (i = .pllRelockHoldEnd ∧ u = { s with board := { s.board with pllHold := false } })
      ∨ (i = .powerOnStart ∧ s.board.pwrEn = false ∧ u = { s with board := { s.board with pwrEn := true } }) →
      (¬ startsAt u → exec i s = .next u)
      ∧ (startsAt u → ∀ img, tfind s.flash.slots s.flash.active = some img → s.flash.trial = false → img.sigOk = true → s.flash.fusedSv ≤ img.sv → img.badPart = none →
          ∃ t, exec i s = .next t ∧ t.dev.mode = .starting ∧ t.dev.image = img ∧ t.board.pwrGood = true ∧ t.board.stage = 4 ∧ t.board.halted = s.board.halted
            ∧ t.links.ownInc = s.links.ownInc + 1 ∧ t.sec.udsLock = true ∧ t.flash = s.flash ∧ t.fuse = s.fuse ∧ t.board.ready = s.board.ready)
      ∧ (startsAt u → rejects s.flash.fusedSv (tfind s.flash.slots s.flash.active) ≠ none → ∀ img, tfind s.flash.slots (1 - s.flash.active) = some img → img.sigOk = true →
          s.flash.fusedSv ≤ img.sv → img.badPart = none → ∃ t, exec i s = .next t ∧ t.dev.image = img ∧ t.board.stage = 4 ∧ t.flash.active = 1 - s.flash.active
            ∧ t.flash.trial = false ∧ t.flash.nvSeq = s.flash.nvSeq + 1)
      ∧ (startsAt u → rejects s.flash.fusedSv (tfind s.flash.slots s.flash.active) ≠ none → rejects s.flash.fusedSv (tfind s.flash.slots (1 - s.flash.active)) ≠ none →
          ∃ t, exec i s = .next t ∧ t.board.halted = true ∧ t.board.stage = 2 ∧ t.board.ready = s.board.ready ∧ t.flash.nvSeq = s.flash.nvSeq + 2))
    ∧ (s.board.pwrEn = true → exec .powerOnStart s = .next s)
    ∧ (s.dev.mode ≠ .starting ∨ s.board.halted = true ∨ s.board.stage ≠ 4 → ∀ off, exec (.bridgeTrained off) s = .next s)
    ∧ (s.dev.mode = .starting → s.board.halted = false → s.board.stage = 4 → ∀ off, ∃ t, exec (.bridgeTrained off) s = .next t
      ∧ (∀ br, br < 4 → (t.bridge br).trained = true ∧ (t.bridge br).disabled = (s.bridge br).disabled ||| off.getD br 0)
      ∧ ∀ (ok : Prop) (p : W32), p = s.fuse.population →
        (ok ↔ (∀ br, br < 4 → 12 ≤ (t.bridge br).working) ∧ (∀ f, f < 4 → tget f s.fuse.field f = f ∧ tget p.toNat s.fuse.popCopy f = p.toNat)
          ∧ bf p 31 28 = 1 ∧ ones 12 (bf p 27 16) ≤ 4 ∧ (bf p 15 0 = 0 ↔ bf p 27 16 = 0)) →
        (ok → t.board.halted = false ∧ t.board.stage = 5) ∧ (¬ ok → t.board.halted = true ∧ t.board.stage = 4 ∧ t.flash.nvSeq = s.flash.nvSeq + 1))
    ∧ (s.board.hotHold = false → ∀ l, exec (.hotStartRecheck l) s = .next s)
    ∧ (s.board.hotHold = true → s.dev.mode = .starting → s.board.halted = false → s.board.stage = 5 → ∀ l, ∃ t, exec (.hotStartRecheck l) s = .next t
      ∧ t.pwr.rounds = s.pwr.rounds + 1 ∧ (t.board.tripping = false →
        ((∃ c v, c < 288 ∧ t.chan c = some v ∧ 2544 ≤ v) → t.board.hotHold = true ∧ t.board.stage = 5)
        ∧ ((∀ c v, c < 288 → t.chan c = some v → v < 2544) → t.board.hotHold = false ∧ t.board.stage = 6 ∧ t.pwr.measuring = true
            ∧ ∀ n, n < 12 → (t.site n).mode = .negotiating)))
    ∧ (∀ k ok, k < 12 → s.dev.mode ≠ .starting ∨ s.board.halted = true ∨ s.board.stage < 6 ∨ (s.stack k).trained = true ∨ (s.stack k).lost = true →
        exec (.stackTrainingDone k ok) s = .next s)
    ∧ (∀ (k : Nat) (b : Bytes), k < 12 → b = (s.savedSection 5).getD [] → s.dev.mode = .starting → s.board.halted = false → 6 ≤ s.board.stage →
        (s.stack k).trained = false → (s.stack k).lost = false →
      (∃ t, exec (.stackTrainingDone k true) s = .next t ∧ t.stack k = { s.stack k with trained := true, remap := (t.stack k).remap }
        ∧ (∀ j, j ≠ k → t.stack j = s.stack j)
        ∧ ∀ i, i < 32 → tget ({} : RemapEnt) (t.stack k).remap i = if rdb b (256 * k + 8 * i + 7) = 1 then
            { valid := true, sector := rd b (256 * k + 8 * i) 4 % 2 ^ 31, spareRow := rd b (256 * k + 8 * i + 4) 3 % 2 ^ 19, check := 0 } else {})
      ∧ ∃ t, exec (.stackTrainingDone k false) s = .next t ∧ t.stack k = { s.stack k with lost := true, lossCause := 1 } ∧ ∀ j, j ≠ k → t.stack j = s.stack j)
    ∧ (∀ ready : Prop, (ready ↔ s.dev.mode = .starting ∧ s.board.halted = false ∧ s.board.hotHold = false ∧ s.board.pllHold = false ∧ s.board.tripping = false
        ∧ 6 ≤ s.board.stage ∧ s.pwr.measuring = false ∧ (∀ n, n < 12 → (s.site n).mode = .up ∨ (s.site n).mode = .down)
        ∧ ∀ k, k < 12 → (s.stack k).fillDone = true ∨ (s.stack k).lost = true) →
      (¬ ready → exec .readyAssert s = .next s)
      ∧ (ready → ∃ t, exec .readyAssert s = .next t ∧ t.board.ready = true ∧ t.board.stage = 12 ∧ t.flash.trial = false
        ∧ t.flash.fusedSv = (if s.flash.trial then max s.flash.fusedSv s.dev.image.sv else s.flash.fusedSv)
        ∧ ((∀ k, k < 12 → (t.stack k).lost = false) → t.dev.mode = .ready ∧ t.dev.generation = 1)
        ∧ ((∃ k, k < 12 ∧ (t.stack k).lost = true) → t.dev.mode = .unfit ∧ t.dev.unfitCause = 1)))
    ∧ (∀ k, k < 12 → (s.stack k).lost = false ∨ (s.dev.mode ≠ .ready ∧ s.dev.mode ≠ .unfit) → exec (.stackLost k) s = .next s)
    ∧ (∀ k, k < 12 → (s.stack k).lost = true → s.dev.mode = .ready ∨ s.dev.mode = .unfit → ∃ t, exec (.stackLost k) s = .next t
      ∧ t.dev.mode = .unfit ∧ (t.stack k).lines = [] ∧ (t.stack k).held = []
      ∧ (s.dev.mode = .ready → t.dev.unfitCause = 1 ∧ t.serve.stopped = true ∧ t.links.farewell = true ∧ s.dev.generation < t.dev.generation))
    ∧ (s.log.dropped = 0 → s.log.intake = [] → exec .logMessage s = .next s)
    ∧ ∀ (m : LogMsg) (rest : List LogMsg), (0 < s.log.dropped ∧ rest = s.log.intake ∧ m.code = 0x0703 ∧ m.count = s.log.dropped ∧ m.time = s.time ∧ m.unit = uid 1 0)
        ∨ (s.log.dropped = 0 ∧ s.log.intake = m :: rest) →
      ∃ (t : State) (e : LogEntry), exec .logMessage s = .next t ∧ t.log.intake = rest ∧ t.log.dropped = 0 ∧ t.log.nextSeq = s.log.nextSeq + 1
        ∧ t.log.ring = (if s.log.ring.length < 16384 then s.log.ring ++ [e] else (s.log.ring ++ [e]).drop 1) ∧ e.seq = s.log.nextSeq
        ∧ e.msg.code = m.code ∧ e.msg.count = m.count ∧ e.msg.time = m.time ∧ e.msg.unit = m.unit

/-- What every way off leaves: every register, SRAM, key, context and letter at its reset value; fuses, boot flash slots and settings, INCARNATION and the queue of
commands as they were (R427, R464, R482). -/
def offFrom (s t : State) : Prop :=
  t.dev = { State.reset.dev with deadPos := s.dev.deadPos } ∧ t.links = { State.reset.links with ownInc := s.links.ownInc }
    ∧ { t.sec with debugFuse := State.reset.sec.debugFuse, bistResult := State.reset.sec.bistResult } = State.reset.sec ∧ t.sec.debugFuse = s.sec.debugFuse
    ∧ t.fuse = s.fuse ∧ t.flash.slots = s.flash.slots ∧ t.flash.copies = s.flash.copies ∧ t.flash.calPage = s.flash.calPage ∧ t.flash.poh = s.flash.poh
    ∧ t.pending = s.pending ∧ t.board.ready = false ∧ t.board.pwrGood = false ∧ t.board.stage = 0 ∧ t.board.tripping = false ∧ t.board.perstN = s.board.perstN
    ∧ { t with pending := State.reset.pending, fresh := State.reset.fresh, out := State.reset.out, dev := State.reset.dev, links := State.reset.links,
               fuse := State.reset.fuse, flash := State.reset.flash, board := State.reset.board, sec := State.reset.sec } = State.reset

/-- The pins and latches of the board: inrush, PWR_EN, MOD_RESET_N, THERMTRIP_N, the PLL hold, a failed supply. -/
def pins (b : BoardState) : Bool × Bool × Bool × Bool × Bool × Bool := (b.inrush, b.pwrEn, b.modResetN, b.thermtrip, b.pllHold, b.failed)

/-- R434, R439, R447, R464, R482, R501, R505, R507, R508: each way off loses every register and keeps fuses and flash; what it leaves at the pins; a whole reset, where nothing
holds it, goes on into the start at once; a power failure, a thermal shutdown and a lost PLL write one event record first; a latched THERMTRIP_N
ignores PWR_EN and MOD_RESET_N. -/
def Obligations.WaysOff : Prop :=
  ∀ (s : State) (i e h r y o : Bool), pins s.board = (i, e, r, y, h, o) →
    (y = true ∨ e = false → exec .powerDown s = .next { s with board := { s.board with pwrEn := false } }
      ∧ exec (.wholeReset .modReset) s = .next s)
    ∧ (y = false → e = true → (∃ t, exec .powerDown s = .next t ∧ offFrom s t ∧ pins t.board = (i, false, r, false, h, false))
      ∧ ∃ t, exec (.wholeReset .modReset) s = .next t ∧ offFrom s t ∧ pins t.board = (i, true, false, false, h, o))
    ∧ (y = true → exec (.wholeReset .pwrCycle) s = .next s)
    ∧ (y = false → ∃ u, offFrom s u ∧ pins u.board = (i, true, r, false, h, false)
      ∧ exec (.wholeReset .pwrCycle) s = .next (if i && r && !h then u.powerUp else u))
    ∧ (s.board.resetDue = false → exec (.wholeReset .fwActivate) s = .next s)
    ∧ (s.board.resetDue = true → ∃ u, offFrom s u ∧ pins u.board = pins s.board
      ∧ exec (.wholeReset .fwActivate) s = .next (if i && e && r && !y && !h && !o then u.powerUp else u))
    ∧ (h = false → exec (.wholeReset .pll) s = .next s)
    ∧ (h = true → ∃ t, exec (.wholeReset .pll) s = .next t ∧ offFrom s t ∧ pins t.board = pins s.board)
    ∧ (s.dev.mode = .off → ∀ v us c, exec (.powerFail v us c) s = .next s)
    ∧ (s.dev.mode ≠ .off → ∀ v us c, ∃ t, exec (.powerFail v us c) s = .next t ∧ offFrom s t ∧ pins t.board = (i, e, r, y, h, true)
      ∧ t.flash.nvSeq = s.flash.nvSeq + 1 ∧ (c = true → rdb (tget [] t.flash.nv s.flash.nvPos) 5 = 2))
    ∧ (∃ t, exec .undervoltageLockout s = .next t ∧ offFrom s t ∧ pins t.board = (false, e, r, y, h, false) ∧ t.flash = s.flash)
    ∧ (s.board.tripping = false → ∀ c, exec (.thermalRailsOff c) s = .next s)
    ∧ (s.board.tripping = true → ∀ c, ∃ t, exec (.thermalRailsOff c) s = .next t ∧ offFrom s t ∧ pins t.board = (i, e, r, true, h, o)
      ∧ t.flash.nvSeq = s.flash.nvSeq + 1 ∧ (c = true → rdb (tget [] t.flash.nv s.flash.nvPos) 5 = 1))
    ∧ (∃ t, exec .thermtripClear s = .next t ∧ offFrom s t ∧ pins t.board = (false, e, r, false, h, false) ∧ t.flash = s.flash)
    ∧ (∀ unit kind, s.dev.mode = .off ∨ 3 < kind → exec (.pllLockLost unit kind) s = .next s)
    ∧ ∀ unit kind, s.dev.mode ≠ .off → kind ≤ 3 → ∃ t, exec (.pllLockLost unit kind) s = .next t ∧ offFrom s t ∧ pins t.board = (i, e, r, y, true, o)
      ∧ t.flash.nvSeq = s.flash.nvSeq + 1 ∧ rdb (tget [] t.flash.nv s.flash.nvPos) 5 = 7

/-- What the stop of a partition reset leaves (R479 step 1, R489): the partition stopped, its cores, engines and hub units stopped, no work current, GENERATION risen; requests
restart where asked, unless eight errors came within 60 s. -/
def partStopped (s t : State) (p : Nat) (restart : Bool) : Prop :=
  (t.part p).phase = .stopped ∧ (t.part p).stopTime = s.time ∧ (t.part p).reports = [] ∧ (t.part p).restart = (restart && decide ((t.part p).errs.length < 8))
    ∧ (∀ g ∈ s.coresOf p, (t.core g).stopped = true ∧ (t.core g).cp.inReset = true) ∧ (∀ e ∈ s.enginesOf p, (t.eng e).stopped = true ∧ (t.eng e).queues = [])
    ∧ (∀ f ∈ s.diesOf p, (t.win f).stopped = true ∧ ∀ j, j < 4 → (t.sv (4 * f + j)).stopped = true)
    ∧ (t.sched p).run = none ∧ s.dev.generation < t.dev.generation

/-- R241, R358, R401, R422, R475–R479, R484, R489: a unit reset stops its scope; once drained, a core or a cluster boots with its state cleared, an engine holds nothing, and a hub unit
has its reset registers; a retired tag is free again; a client that did not acknowledge an invalidation is counted and reset; PARTITION errors
and PARTITION_RESET stop a partition, its drain clears it, and its end starts its cores. -/
def Obligations.ResetsOfScopes : Prop :=
  ∀ (s : State),
    (∀ p, p < 4 → exec (.unitReset (.partition p)) s = .next s)
    ∧ (∀ g, g < 2016 → s.guestCore g = true ∨ (s.part (s.partOfCore g)).phase ≠ .none → exec (.unitReset (.core g)) s = .next s)
    ∧ (∀ g, g < 2016 → s.guestCore g = false → (s.part (s.partOfCore g)).phase = .none → ∃ t, exec (.unitReset (.core g)) s = .next t
      ∧ (t.core g).stopped = true ∧ (t.core g).cp.inReset = true ∧ (t.core g).vec.queue = [] ∧ (∀ a, ((t.core g).arr a).queue = []) ∧ (s.part (s.partOfCore g)).reports <+: (t.part (s.partOfCore g)).reports)
    ∧ (∀ c, c < 252 → s.guestSite (c / 21) = false → (s.part (s.partOfDie (c / 63))).phase = .none → ∃ t, exec (.unitReset (.cluster c)) s = .next t
      ∧ (t.cluster c).dma.stopped = true ∧ ∀ g ∈ s.coresIn c, (t.core g).stopped = true)
    ∧ (∀ h, h < 32 → (s.part (s.partOfDie (h / 8))).phase = .none → ∃ t, exec (.unitReset (.eng (.hdma h))) s = .next t
      ∧ (t.hdma h).stopped = true ∧ (t.hdma h).queues = [] ∧ (t.hdma h).running = (s.hdma h).running ∧ t.cores = s.cores ∧ t.hbm = s.hbm)
    ∧ (∀ u, u < 16 → (s.part (s.partOfDie (u / 4))).phase = .none → ∃ t, exec (.unitReset (.sieve u)) s = .next t
      ∧ t.sv u = { s.sv u with stopped := true, queue := [] } ∧ t.cores = s.cores ∧ t.hbm = s.hbm)
    ∧ (∀ f, f < 4 → (s.part (s.partOfDie f)).phase = .none → ∃ t, exec (.unitReset (.winnow f)) s = .next t
      ∧ t.win f = { s.win f with stopped := true } ∧ t.cores = s.cores ∧ t.hbm = s.hbm)
    ∧ (∀ g, g < 2016 → s.guestCore g = false → (s.part (s.partOfCore g)).phase = .none →
      ((s.core g).stopped = false ∨ s.clusterStopped (clusterOf g) = true → exec (.drainEnd (.core g)) s = .next s)
      ∧ ((s.core g).stopped = true → s.clusterStopped (clusterOf g) = false → ∃ (t : State) (b : Bytes), exec (.drainEnd (.core g)) s = .next t
          ∧ b.length = min 65536 s.bcast.bytes ∧ (t.core g).stopped = false ∧ (t.core g).arrays = []
          ∧ ((s.xl (siteOfCore g)).invals.any (fun q => q.clients.contains (uidCore g)) = false →
              t.core g = { (({ stopped := true } : CoreState).wrm 0x0B0000 b).release with stopped := false }
              ∧ (∀ h, h ≠ g → t.core h = s.core h) ∧ t.hbm = s.hbm)))
    ∧ (∀ c, c < 252 → s.guestSite (c / 21) = false → (s.part (s.partOfDie (c / 63))).phase = .none → s.clusterStopped c = true →
      ∃ t, exec (.drainEnd (.cluster c)) s = .next t ∧ (t.cluster c).dma.running = [] ∧ (t.cluster c).dma.queues = [] ∧ (t.cluster c).dma.stopped = false
        ∧ ∀ g ∈ s.coresIn c, (t.core g).stopped = false ∧ (t.core g).arrays = [])
    ∧ (∀ h, h < 32 → (s.part (s.partOfDie (h / 8))).phase = .none → ((s.hdma h).stopped = false → exec (.drainEnd (.eng (.hdma h))) s = .next s)
      ∧ ((s.hdma h).stopped = true → ∃ t, exec (.drainEnd (.eng (.hdma h))) s = .next t ∧ t.hdma h = { s.hdma h with queues := [], running := [], stopped := false } ∧ t.hbm = s.hbm))
    ∧ (∀ u, u < 16 → (s.part (s.partOfDie (u / 4))).phase = .none → ((s.sv u).stopped = false → exec (.drainEnd (.sieve u)) s = .next s)
      ∧ ((s.sv u).stopped = true → ∃ t, exec (.drainEnd (.sieve u)) s = .next t ∧ t.sv u = {} ∧ t.cores = s.cores ∧ t.hbm = s.hbm))
    ∧ (∀ f, f < 4 → (s.part (s.partOfDie f)).phase = .none → ((s.win f).stopped = false → exec (.drainEnd (.winnow f)) s = .next s)
      ∧ ((s.win f).stopped = true → ∃ t, exec (.drainEnd (.winnow f)) s = .next t ∧ t.win f = {} ∧ t.cores = s.cores ∧ t.hbm = s.hbm))
    ∧ (∀ i tag, (s.ifRouter i).isSome = true → ∃ t, exec (.tagRetireExpire i tag) s = .next t ∧ t.nif i = { s.nif i with retired := (t.nif i).retired }
      ∧ (∀ q, q ∈ (t.nif i).retired ↔ q ∈ (s.nif i).retired ∧ q.1 ≠ tag) ∧ (∀ j, j ≠ i → t.nif j = s.nif j) ∧ { t with netIf := s.netIf } = s)
    ∧ (∀ d client, d < 16 → (s.xl d).invals.any (fun q => q.clients.contains client) = false → exec (.invalidationTimeout d client) s = .next s)
    ∧ (∀ d g, d < 16 → g < 2016 → (s.xl d).invals.any (fun q => q.clients.contains (uidCore g)) = true → (s.part (s.partOfCore g)).phase = .none →
      ∃ t, exec (.invalidationTimeout d (uidCore g)) s = .next t ∧ (t.xl d).count = cnt (s.xl d).count 5 1 ∧ (t.core g).stopped = true)
    ∧ (∀ p, p < 4 → (s.part p).reports = [] ∨ (s.part p).phase ≠ .none → exec (.partitionFault p) s = .next s)
    ∧ (∀ p, p < 4 → (s.part p).reports ≠ [] → (s.part p).phase = .none → ∃ t, exec (.partitionFault p) s = .next t ∧ partStopped s t p true
      ∧ (t.part p).errs = ((s.part p).errs ++ (s.part p).reports.map (·.2)).filter (fun x => decide (s.time < x + 60000000000)))
    ∧ (∀ (src : LSrc) (b : Bytes), letterRuns s src 0x0205 semPartitionReset b →
      ((s.part (rdb b 32)).phase ≠ .none → exec (.partitionReset src) s = .next s)
      ∧ ((s.part (rdb b 32)).phase = .none → ∃ u : State, exec (.partitionReset src) s = .next (u.busyLetter src) ∧ partStopped s u (rdb b 32) (nbit (rdb b 33) 0)))
    ∧ (∀ p, p < 4 → ((s.part p).phase ≠ .stopped → exec (.drainEnd (.partition p)) s = .next s)
      ∧ ((s.part p).phase = .stopped → ∃ t, exec (.drainEnd (.partition p)) s = .next t ∧ (t.part p).phase = .cleared
        ∧ (∀ g ∈ s.coresOf p, (t.core g).stopped = true ∧ (t.core g).arrays = [])
        ∧ ∀ f ∈ s.diesOf p, t.win f = {} ∧ ∀ j, j < 4 → t.sv (4 * f + j) = {}))
    ∧ ∀ p, p < 4 → ((s.part p).phase ≠ .cleared ∨ s.guestsBack p = false → exec (.partitionResetEnd p) s = .next s)
      ∧ ((s.part p).phase = .cleared → s.guestsBack p = true → ∃ t, exec (.partitionResetEnd p) s = .next t ∧ (t.part p).phase = .none
        ∧ s.dev.generation < t.dev.generation ∧ (∀ g ∈ s.coresOf p, (t.core g).stopped = false) ∧ ∀ e ∈ s.enginesOf p, (t.eng e).stopped = false)

/-! ## The machine as a whole -/

/-- A step runs the command at the front of the queue on the state with the queue's rest; on an empty queue one edge of TBCLK adds 10 ns in a powered
device (R435; the model's choice, log entry 2). -/
def Obligations.FrontCommand : Prop :=
  ∀ (s : State), (∀ i rest, s.pending = i :: rest → step s = exec i { s with pending := rest })
    ∧ (s.pending = [] → s.dev.mode = .off → step s = .next s)
    ∧ (s.pending = [] → s.dev.mode ≠ .off → step s = .next { s with time := s.time + 10 })

/-- R19, R22: a command completes in every state exactly when the unit it names is one of the package; it never refuses, and its only fault names a unit that does not exist. -/
def Obligations.CommandsComplete : Prop :=
  ∀ (i : Instr) (s : State),
    (i.wf = true ↔ ∃ t, exec i s = .next t) ∧ (i.wf = false ↔ ∃ what n, exec i s = .fault (.noSuchUnit what n)) ∧ ∀ r, exec i s ≠ .refused r

/-- R435, R490: every step from every state keeps the timebase a multiple of 10 ns, the intake within 256 messages and every byte memory in canonical form, and takes one command from the queue, adding none. -/
def Obligations.StepKeepsInvariant : Prop := ∀ (s t : State), s.inv → step s = .next t → t.inv ∧ t.pending = s.pending.tail

/-- R435, R464, R482, R490: the invariant holds at reset; the rails are off, nothing waits, runs or is stored, the logbook's next SEQ is 1, no latch is set, and MOD_RESET_N is high. The
fuses are those of the standard build, whose population code is valid (R6; the fuses' other fields: the model's choice, log entry 4). -/
def Obligations.ResetState : Prop :=
  State.reset.inv ∧ State.reset.pending = [] ∧ State.reset.dev.mode = .off ∧ State.reset.dev.generation = 0 ∧ State.reset.time = 0
    ∧ State.reset.log = { nextSeq := 1 } ∧ State.reset.letters = [] ∧ State.reset.ctxs = [] ∧ State.reset.works = [] ∧ State.reset.mail = []
    ∧ pins State.reset.board = (false, false, true, false, false, false) ∧ State.reset.board.ready = false
    ∧ State.reset.fuse.population = 0x10000000 ∧ popOk State.reset.fuse.population = true
    ∧ ∀ g, State.reset.core g = ({} : CoreState) ∧ (State.reset.core g).stopped = false

/-- R508: with THERMTRIP_N latched, PWR_EN and MOD_RESET_N only change their pins; no command but the input's removal clears the latch; then the input must charge again before a
start (R506), and a sensor at 95 °C in that start's first round holds it (R448). -/
def Obligations.ThermtripLatch : Prop :=
  ∀ (s : State), s.board.thermtrip = true →
    exec .powerOnStart s = .next { s with board := { s.board with pwrEn := true } }
    ∧ exec .powerDown s = .next { s with board := { s.board with pwrEn := false } }
    ∧ exec .modResetNRelease s = .next { s with board := { s.board with modResetN := true } }
    ∧ exec (.wholeReset .modReset) s = .next s ∧ exec (.wholeReset .pwrCycle) s = .next s
    ∧ (∀ i t, exec i s = .next t → i ≠ .thermtripClear → t.board.thermtrip = true)
    ∧ (∃ t, exec .thermtripClear s = .next t ∧ t.board.thermtrip = false ∧ t.board.inrush = false ∧ t.dev.mode = .off)
    ∧ (∀ u : State, u.board.inrush = false → u.dev.mode = .off → ∀ i, i = .powerOnStart ∨ i = .modResetNRelease ∨ i = .pllRelockHoldEnd →
        ∃ v, exec i u = .next v ∧ v.dev.mode = .off ∧ v.board.inrush = false)
    ∧ ∀ u : State, u.dev.mode = .starting → u.board.halted = false → u.board.stage = 5 → u.board.hotHold = false → ∀ l, ∃ v, exec (.housekeepingRound l) u = .next v
      ∧ (v.board.tripping = false → ((∃ c x, c < 288 ∧ v.chan c = some x ∧ 2544 ≤ x) ↔ v.board.hotHold = true) ∧ (v.board.hotHold = true → v.board.stage = 5))

/-- R491: of the occurrences of one CODE and UNIT within a millisecond of an entry only that entry is written; the next entry of the pair after it carries in COUNT how many there
were since, itself included; a FATAL or PARTITION message is written each time. -/
def Obligations.LogEntriesPerMillisecond : Prop :=
  ∀ (l : LogState) (m : LogMsg) (t0 t : Nat) (ts : List Nat), m.count = 1 → l.intake.length + ts.length + 2 ≤ 256 → (∀ x ∈ ts, t0 ≤ x ∧ x < t0 + 1000000) →
    (m.cls ≠ 3 → m.cls ≠ 4 → (∀ r ∈ l.rates, ¬ (r.code = m.code ∧ r.unit = m.unit)) → t0 + 1000000 ≤ t →
      (((ts.foldl (fun l x => l.post x m) (l.post t0 m)).post t m).intake = l.intake ++ [{ m with time := t0 }, { m with time := t, count := ts.length + 1 }]
        ∧ ((ts.foldl (fun l x => l.post x m) (l.post t0 m)).post t m).ring = l.ring))
    ∧ (m.cls = 3 ∨ m.cls = 4 → ∃ new : List LogMsg, (ts.foldl (fun l x => l.post x m) l).intake = l.intake ++ new ∧ new.map (·.time) = ts ∧ ∀ e ∈ new, e.code = m.code ∧ e.unit = m.unit)
    ∧ ∀ c u, (c, u) ≠ (m.code, m.unit) → (l.post t0 m).rates.find? (fun r => r.code == c && r.unit == u) = l.rates.find? (fun r => r.code == c && r.unit == u)
end

