-- ==== Sys2Proof/Laws/Tables.lean ====
section
/-! SUPPORT. Lemmas about tables, ascending lists and byte memories. -/
namespace Sys2Proof.Machine

/-! ## Tables -/

variable {α : Type} {d : α}

@[simp] theorem tget_nil (k : Nat) : tget d [] k = d := rfl

/-- What a table holds after one of its entries is set. -/
theorem tget_tset (t : Tbl α) (k j : Nat) (v : α) : tget d (tset t k v) j = if j = k then v else tget d t j := by
  induction t with
  | nil => simp [tset, tget, eq_comm]
  | cons e t ih =>
    obtain ⟨i, a⟩ := e
    simp only [tset]
    split
    · subst i; by_cases hj : k = j
      · simp [tget, hj]
      · simp [tget, hj, Ne.symm hj]
    · split
      · by_cases hj : k = j
        · simp [tget, hj]
        · simp [tget, hj, Ne.symm hj]
      · simp only [tget, ih]
        split <;> split <;> simp_all

@[simp] theorem tget_tset_self (t : Tbl α) (k : Nat) (v : α) : tget d (tset t k v) k = v := by simp [tget_tset]

theorem tget_tset_ne (t : Tbl α) {k j : Nat} (v : α) (h : j ≠ k) : tget d (tset t k v) j = tget d t j := by
  simp [tget_tset, h]

/-- The later of two settings of one entry stands. -/
@[simp] theorem tset_tset (t : Tbl α) (k : Nat) (u v : α) : tset (tset t k u) k v = tset t k v := by
  induction t with
  | nil => simp [tset]
  | cons e t ih =>
    obtain ⟨i, a⟩ := e
    simp only [tset]
    split
    · simp [tset]
    · split
      · simp [tset]
      · rename_i h1 h2; simp [tset, h1, h2, ih]

/-! ## Ascending lists -/

theorem mem_sins (k j : Nat) (l : List Nat) : j ∈ sins k l ↔ j = k ∨ j ∈ l := by
  induction l with
  | nil => simp [sins]
  | cons i t ih =>
    simp only [sins]
    split
    · simp
    · split
      · subst_vars; simp
      · simp only [List.mem_cons, ih]; exact ⟨fun h => by rcases h with h | h | h <;> simp [h], fun h => by rcases h with h | h | h <;> simp [h]⟩

theorem mem_srem (k j : Nat) (l : List Nat) : j ∈ srem k l ↔ j ∈ l ∧ j ≠ k := by simp [srem]

/-! ## Byte memories -/

theorem mget_filter (m : List (Nat × Byte)) (a i : Nat) :
    mget (m.filter (fun e => e.1 != a)) i = if i = a then 0 else mget m i := by
  induction m with
  | nil => simp [mget]
  | cons e t ih =>
    obtain ⟨j, b⟩ := e
    by_cases hj : j = a
    · subst hj
      rw [List.filter_cons_of_neg (by simp), ih]
      by_cases hi : i = j
      · simp [hi]
      · simp [hi, mget, Ne.symm hi]
    · rw [List.filter_cons_of_pos (by simpa using hj)]
      simp only [mget, ih]
      by_cases hi : j = i
      · subst hi; simp [hj]
      · simp [hi]

/-- What a memory holds after one byte is written. -/
theorem mget_mput (m : List (Nat × Byte)) (a i : Nat) (v : Byte) : mget (mput m a v) i = if i = a then v else mget m i := by
  induction m with
  | nil =>
    by_cases hv : v = 0
    · simp [mput, mget, hv]
    · simp only [mput, if_neg hv, mget]
      by_cases hi : i = a
      · simp [hi]
      · simp [hi, Ne.symm hi]
  | cons e t ih =>
    obtain ⟨j, b⟩ := e
    simp only [mput]
    by_cases hj : j = a
    · subst hj
      by_cases hv : v = 0
      · simp only [if_true, hv, mget_filter, mget]
        by_cases hi : i = j
        · simp [hi]
        · simp [hi, Ne.symm hi]
      · simp only [if_true, if_neg hv, mget]
        by_cases hi : i = j
        · simp [hi]
        · simp [hi, Ne.symm hi]
    · by_cases hlt : a < j
      · by_cases hv : v = 0
        · simp only [if_neg hj, if_pos hlt, if_pos hv, mget, mget_filter]
          by_cases hi : j = i
          · subst hi; simp [hj]
          · simp [hi, hv]
        · simp only [if_neg hj, if_pos hlt, if_neg hv, mget]
          by_cases hi : a = i
          · simp [hi]
          · simp [hi, Ne.symm hi]
      · simp only [if_neg hj, if_neg hlt, mget, ih]
        by_cases hi : j = i
        · subst hi; simp [hj]
        · simp [hi]

theorem mwfFrom_le {l l' : Nat} {t : List (Nat × Byte)} (hl : l' ≤ l) (h : mwfFrom l t = true) : mwfFrom l' t = true := by
  cases t with
  | nil => rfl
  | cons e t =>
    simp only [mwfFrom, Bool.and_eq_true, decide_eq_true_eq] at *
    exact ⟨⟨by omega, h.1.2⟩, h.2⟩

theorem mwfFrom_filter (a : Nat) (t : List (Nat × Byte)) : ∀ l, mwfFrom l t = true → mwfFrom l (t.filter (fun e => e.1 != a)) = true := by
  induction t with
  | nil => intro l h; exact h
  | cons e t ih =>
    obtain ⟨j, b⟩ := e
    intro l h
    simp only [mwfFrom, Bool.and_eq_true, decide_eq_true_eq] at h
    by_cases hj : j = a
    · rw [List.filter_cons_of_neg (by simp [hj])]; exact mwfFrom_le (by omega) (ih _ h.2)
    · rw [List.filter_cons_of_pos (by simpa using hj)]
      simp only [mwfFrom, Bool.and_eq_true, decide_eq_true_eq]
      exact ⟨h.1, ih _ h.2⟩

/-- A byte write keeps the canonical form. -/
theorem mput_wf (m : List (Nat × Byte)) (a : Nat) (v : Byte) (h : Memory.wf m = true) : Memory.wf (mput m a v) = true := by
  suffices H : ∀ lo, lo ≤ a → mwfFrom lo m = true → mwfFrom lo (mput m a v) = true from H 0 (Nat.zero_le _) h
  clear h
  induction m with
  | nil =>
    intro lo ha _
    simp only [mput]; split <;> simp_all [mwfFrom]
  | cons e t ih =>
    obtain ⟨j, b⟩ := e
    intro lo ha h
    simp only [mwfFrom, Bool.and_eq_true, decide_eq_true_eq] at h
    simp only [mput]
    by_cases hj : j = a
    · subst hj
      by_cases hv : v = 0
      · simp only [if_true, hv]; exact mwfFrom_filter _ _ _ (mwfFrom_le (by omega) h.2)
      · simp only [if_true, if_neg hv, mwfFrom, Bool.and_eq_true, decide_eq_true_eq]; exact ⟨⟨ha, hv⟩, h.2⟩
    · by_cases hlt : a < j
      · by_cases hv : v = 0
        · simp only [if_neg hj, if_pos hlt, if_pos hv, mwfFrom, Bool.and_eq_true, decide_eq_true_eq]
          exact ⟨h.1, mwfFrom_filter _ _ _ h.2⟩
        · simp only [if_neg hj, if_pos hlt, if_neg hv, mwfFrom, Bool.and_eq_true, decide_eq_true_eq]
          exact ⟨⟨ha, hv⟩, ⟨by omega, h.1.2⟩, h.2⟩
      · simp only [if_neg hj, if_neg hlt, mwfFrom, Bool.and_eq_true, decide_eq_true_eq]
        exact ⟨h.1, ih _ (by omega) h.2⟩

/-- A write of bytes keeps the canonical form. -/
theorem mwrite_wf (bs : Bytes) : ∀ (m : List (Nat × Byte)) (a : Nat), Memory.wf m = true → Memory.wf (mwrite m a bs) = true := by
  induction bs with
  | nil => intro m a h; exact h
  | cons b bs ih => intro m a h; exact ih _ _ (mput_wf m a b h)

/-- What a memory holds after bytes are written. -/
theorem mget_mwrite (bs : Bytes) : ∀ (m : List (Nat × Byte)) (a i : Nat),
    mget (mwrite m a bs) i = if a ≤ i ∧ i < a + bs.length then bs.getD (i - a) 0 else mget m i := by
  induction bs with
  | nil => intro m a i; simp only [mwrite, List.length_nil]; rw [if_neg (by omega)]
  | cons b bs ih =>
    intro m a i
    simp only [mwrite, List.length_cons]
    rw [ih, mget_mput]
    by_cases h1 : i = a
    · subst h1; rw [if_neg (by omega), if_pos rfl, if_pos (by omega)]; simp
    · by_cases h2 : a + 1 ≤ i ∧ i < a + 1 + bs.length
      · rw [if_pos h2, if_pos (by omega)]
        obtain ⟨k, hk⟩ : ∃ k, i - a = k + 1 := ⟨i - a - 1, by omega⟩
        rw [hk, show i - (a + 1) = k by omega]; simp
      · rw [if_neg h2, if_neg h1, if_neg (by omega)]

/-- Reading bytes is reading each. -/
theorem mread_eq (m : List (Nat × Byte)) (n : Nat) : ∀ a, mread m a n = (List.range n).map (fun i => mget m (a + i)) := by
  induction n with
  | zero => intro a; rfl
  | succ n ih =>
    intro a
    simp only [mread, ih, List.range_succ_eq_map, List.map_cons, List.map_map, Nat.add_zero]
    congr 1
    apply List.map_congr_left
    intro i _; simp only [Function.comp]; congr 1; omega

@[simp] theorem mread_length (m : List (Nat × Byte)) (a n : Nat) : (mread m a n).length = n := by simp [mread_eq]

/-- Reading back bytes just written. -/
theorem mread_mwrite (m : List (Nat × Byte)) (a : Nat) (bs : Bytes) : mread (mwrite m a bs) a bs.length = bs := by
  rw [mread_eq]
  apply List.ext_getElem
  · simp
  · intro i h1 h2
    simp only [List.getElem_map, List.getElem_range]
    rw [mget_mwrite, if_pos ⟨by omega, by omega⟩]
    simp [List.getD_eq_getElem?_getD, h2]

end Sys2Proof.Machine
end

