-- ==== Sys2Proof/Laws/State.lean ====
section
/-! SUPPORT. What each update of the state leaves as it was: one lemma per field per update, and what the unit it sets then
reads as. -/
namespace Sys2Proof.Machine

variable (s : State)

/-! ## setCore: cores alone differs -/

@[simp] theorem State.setCore_pending (g : Nat) (c : CoreState) : (s.setCore g c).pending = s.pending := rfl
@[simp] theorem State.setCore_fresh (g : Nat) (c : CoreState) : (s.setCore g c).fresh = s.fresh := rfl
@[simp] theorem State.setCore_out (g : Nat) (c : CoreState) : (s.setCore g c).out = s.out := rfl
@[simp] theorem State.setCore_time (g : Nat) (c : CoreState) : (s.setCore g c).time = s.time := rfl
@[simp] theorem State.setCore_dev (g : Nat) (c : CoreState) : (s.setCore g c).dev = s.dev := rfl
@[simp] theorem State.setCore_clusters (g : Nat) (c : CoreState) : (s.setCore g c).clusters = s.clusters := rfl
@[simp] theorem State.setCore_hbm (g : Nat) (c : CoreState) : (s.setCore g c).hbm = s.hbm := rfl
@[simp] theorem State.setCore_hubDma (g : Nat) (c : CoreState) : (s.setCore g c).hubDma = s.hubDma := rfl
@[simp] theorem State.setCore_netIf (g : Nat) (c : CoreState) : (s.setCore g c).netIf = s.netIf := rfl
@[simp] theorem State.setCore_routers (g : Nat) (c : CoreState) : (s.setCore g c).routers = s.routers := rfl
@[simp] theorem State.setCore_posts (g : Nat) (c : CoreState) : (s.setCore g c).posts = s.posts := rfl
@[simp] theorem State.setCore_sites (g : Nat) (c : CoreState) : (s.setCore g c).sites = s.sites := rfl
@[simp] theorem State.setCore_bridges (g : Nat) (c : CoreState) : (s.setCore g c).bridges = s.bridges := rfl
@[simp] theorem State.setCore_fuse (g : Nat) (c : CoreState) : (s.setCore g c).fuse = s.fuse := rfl
@[simp] theorem State.setCore_pwr (g : Nat) (c : CoreState) : (s.setCore g c).pwr = s.pwr := rfl
@[simp] theorem State.setCore_flash (g : Nat) (c : CoreState) : (s.setCore g c).flash = s.flash := rfl
@[simp] theorem State.setCore_board (g : Nat) (c : CoreState) : (s.setCore g c).board = s.board := rfl
@[simp] theorem State.setCore_mail (g : Nat) (c : CoreState) : (s.setCore g c).mail = s.mail := rfl
@[simp] theorem State.setCore_bcast (g : Nat) (c : CoreState) : (s.setCore g c).bcast = s.bcast := rfl
@[simp] theorem State.setCore_ctxs (g : Nat) (c : CoreState) : (s.setCore g c).ctxs = s.ctxs := rfl
@[simp] theorem State.setCore_pstate (g : Nat) (c : CoreState) : (s.setCore g c).pstate = s.pstate := rfl
@[simp] theorem State.setCore_links (g : Nat) (c : CoreState) : (s.setCore g c).links = s.links := rfl
@[simp] theorem State.setCore_winnow (g : Nat) (c : CoreState) : (s.setCore g c).winnow = s.winnow := rfl
@[simp] theorem State.setCore_sieve (g : Nat) (c : CoreState) : (s.setCore g c).sieve = s.sieve := rfl
@[simp] theorem State.setCore_xlate (g : Nat) (c : CoreState) : (s.setCore g c).xlate = s.xlate := rfl
@[simp] theorem State.setCore_bag (g : Nat) (c : CoreState) : (s.setCore g c).bag = s.bag := rfl
@[simp] theorem State.setCore_acc (g : Nat) (c : CoreState) : (s.setCore g c).acc = s.acc := rfl
@[simp] theorem State.setCore_windows (g : Nat) (c : CoreState) : (s.setCore g c).windows = s.windows := rfl
@[simp] theorem State.setCore_hostFn (g : Nat) (c : CoreState) : (s.setCore g c).hostFn = s.hostFn := rfl
@[simp] theorem State.setCore_hostPorts (g : Nat) (c : CoreState) : (s.setCore g c).hostPorts = s.hostPorts := rfl
@[simp] theorem State.setCore_mgmt (g : Nat) (c : CoreState) : (s.setCore g c).mgmt = s.mgmt := rfl
@[simp] theorem State.setCore_letters (g : Nat) (c : CoreState) : (s.setCore g c).letters = s.letters := rfl
@[simp] theorem State.setCore_works (g : Nat) (c : CoreState) : (s.setCore g c).works = s.works := rfl
@[simp] theorem State.setCore_serve (g : Nat) (c : CoreState) : (s.setCore g c).serve = s.serve := rfl
@[simp] theorem State.setCore_sec (g : Nat) (c : CoreState) : (s.setCore g c).sec = s.sec := rfl
@[simp] theorem State.setCore_log (g : Nat) (c : CoreState) : (s.setCore g c).log = s.log := rfl

/-! ## setArr: cores alone differs -/

@[simp] theorem State.setArr_pending (g a : Nat) (x : ArrayState) : (s.setArr g a x).pending = s.pending := rfl
@[simp] theorem State.setArr_fresh (g a : Nat) (x : ArrayState) : (s.setArr g a x).fresh = s.fresh := rfl
@[simp] theorem State.setArr_out (g a : Nat) (x : ArrayState) : (s.setArr g a x).out = s.out := rfl
@[simp] theorem State.setArr_time (g a : Nat) (x : ArrayState) : (s.setArr g a x).time = s.time := rfl
@[simp] theorem State.setArr_dev (g a : Nat) (x : ArrayState) : (s.setArr g a x).dev = s.dev := rfl
@[simp] theorem State.setArr_clusters (g a : Nat) (x : ArrayState) : (s.setArr g a x).clusters = s.clusters := rfl
@[simp] theorem State.setArr_hbm (g a : Nat) (x : ArrayState) : (s.setArr g a x).hbm = s.hbm := rfl
@[simp] theorem State.setArr_hubDma (g a : Nat) (x : ArrayState) : (s.setArr g a x).hubDma = s.hubDma := rfl
@[simp] theorem State.setArr_netIf (g a : Nat) (x : ArrayState) : (s.setArr g a x).netIf = s.netIf := rfl
@[simp] theorem State.setArr_routers (g a : Nat) (x : ArrayState) : (s.setArr g a x).routers = s.routers := rfl
@[simp] theorem State.setArr_posts (g a : Nat) (x : ArrayState) : (s.setArr g a x).posts = s.posts := rfl
@[simp] theorem State.setArr_sites (g a : Nat) (x : ArrayState) : (s.setArr g a x).sites = s.sites := rfl
@[simp] theorem State.setArr_bridges (g a : Nat) (x : ArrayState) : (s.setArr g a x).bridges = s.bridges := rfl
@[simp] theorem State.setArr_fuse (g a : Nat) (x : ArrayState) : (s.setArr g a x).fuse = s.fuse := rfl
@[simp] theorem State.setArr_pwr (g a : Nat) (x : ArrayState) : (s.setArr g a x).pwr = s.pwr := rfl
@[simp] theorem State.setArr_flash (g a : Nat) (x : ArrayState) : (s.setArr g a x).flash = s.flash := rfl
@[simp] theorem State.setArr_board (g a : Nat) (x : ArrayState) : (s.setArr g a x).board = s.board := rfl
@[simp] theorem State.setArr_mail (g a : Nat) (x : ArrayState) : (s.setArr g a x).mail = s.mail := rfl
@[simp] theorem State.setArr_bcast (g a : Nat) (x : ArrayState) : (s.setArr g a x).bcast = s.bcast := rfl
@[simp] theorem State.setArr_ctxs (g a : Nat) (x : ArrayState) : (s.setArr g a x).ctxs = s.ctxs := rfl
@[simp] theorem State.setArr_pstate (g a : Nat) (x : ArrayState) : (s.setArr g a x).pstate = s.pstate := rfl
@[simp] theorem State.setArr_links (g a : Nat) (x : ArrayState) : (s.setArr g a x).links = s.links := rfl
@[simp] theorem State.setArr_winnow (g a : Nat) (x : ArrayState) : (s.setArr g a x).winnow = s.winnow := rfl
@[simp] theorem State.setArr_sieve (g a : Nat) (x : ArrayState) : (s.setArr g a x).sieve = s.sieve := rfl
@[simp] theorem State.setArr_xlate (g a : Nat) (x : ArrayState) : (s.setArr g a x).xlate = s.xlate := rfl
@[simp] theorem State.setArr_bag (g a : Nat) (x : ArrayState) : (s.setArr g a x).bag = s.bag := rfl
@[simp] theorem State.setArr_acc (g a : Nat) (x : ArrayState) : (s.setArr g a x).acc = s.acc := rfl
@[simp] theorem State.setArr_windows (g a : Nat) (x : ArrayState) : (s.setArr g a x).windows = s.windows := rfl
@[simp] theorem State.setArr_hostFn (g a : Nat) (x : ArrayState) : (s.setArr g a x).hostFn = s.hostFn := rfl
@[simp] theorem State.setArr_hostPorts (g a : Nat) (x : ArrayState) : (s.setArr g a x).hostPorts = s.hostPorts := rfl
@[simp] theorem State.setArr_mgmt (g a : Nat) (x : ArrayState) : (s.setArr g a x).mgmt = s.mgmt := rfl
@[simp] theorem State.setArr_letters (g a : Nat) (x : ArrayState) : (s.setArr g a x).letters = s.letters := rfl
@[simp] theorem State.setArr_works (g a : Nat) (x : ArrayState) : (s.setArr g a x).works = s.works := rfl
@[simp] theorem State.setArr_serve (g a : Nat) (x : ArrayState) : (s.setArr g a x).serve = s.serve := rfl
@[simp] theorem State.setArr_sec (g a : Nat) (x : ArrayState) : (s.setArr g a x).sec = s.sec := rfl
@[simp] theorem State.setArr_log (g a : Nat) (x : ArrayState) : (s.setArr g a x).log = s.log := rfl

/-! ## setCluster: clusters alone differs -/

@[simp] theorem State.setCluster_pending (c : Nat) (x : ClusterState) : (s.setCluster c x).pending = s.pending := rfl
@[simp] theorem State.setCluster_fresh (c : Nat) (x : ClusterState) : (s.setCluster c x).fresh = s.fresh := rfl
@[simp] theorem State.setCluster_out (c : Nat) (x : ClusterState) : (s.setCluster c x).out = s.out := rfl
@[simp] theorem State.setCluster_time (c : Nat) (x : ClusterState) : (s.setCluster c x).time = s.time := rfl
@[simp] theorem State.setCluster_dev (c : Nat) (x : ClusterState) : (s.setCluster c x).dev = s.dev := rfl
@[simp] theorem State.setCluster_cores (c : Nat) (x : ClusterState) : (s.setCluster c x).cores = s.cores := rfl
@[simp] theorem State.setCluster_hbm (c : Nat) (x : ClusterState) : (s.setCluster c x).hbm = s.hbm := rfl
@[simp] theorem State.setCluster_hubDma (c : Nat) (x : ClusterState) : (s.setCluster c x).hubDma = s.hubDma := rfl
@[simp] theorem State.setCluster_netIf (c : Nat) (x : ClusterState) : (s.setCluster c x).netIf = s.netIf := rfl
@[simp] theorem State.setCluster_routers (c : Nat) (x : ClusterState) : (s.setCluster c x).routers = s.routers := rfl
@[simp] theorem State.setCluster_posts (c : Nat) (x : ClusterState) : (s.setCluster c x).posts = s.posts := rfl
@[simp] theorem State.setCluster_sites (c : Nat) (x : ClusterState) : (s.setCluster c x).sites = s.sites := rfl
@[simp] theorem State.setCluster_bridges (c : Nat) (x : ClusterState) : (s.setCluster c x).bridges = s.bridges := rfl
@[simp] theorem State.setCluster_fuse (c : Nat) (x : ClusterState) : (s.setCluster c x).fuse = s.fuse := rfl
@[simp] theorem State.setCluster_pwr (c : Nat) (x : ClusterState) : (s.setCluster c x).pwr = s.pwr := rfl
@[simp] theorem State.setCluster_flash (c : Nat) (x : ClusterState) : (s.setCluster c x).flash = s.flash := rfl
@[simp] theorem State.setCluster_board (c : Nat) (x : ClusterState) : (s.setCluster c x).board = s.board := rfl
@[simp] theorem State.setCluster_mail (c : Nat) (x : ClusterState) : (s.setCluster c x).mail = s.mail := rfl
@[simp] theorem State.setCluster_bcast (c : Nat) (x : ClusterState) : (s.setCluster c x).bcast = s.bcast := rfl
@[simp] theorem State.setCluster_ctxs (c : Nat) (x : ClusterState) : (s.setCluster c x).ctxs = s.ctxs := rfl
@[simp] theorem State.setCluster_pstate (c : Nat) (x : ClusterState) : (s.setCluster c x).pstate = s.pstate := rfl
@[simp] theorem State.setCluster_links (c : Nat) (x : ClusterState) : (s.setCluster c x).links = s.links := rfl
@[simp] theorem State.setCluster_winnow (c : Nat) (x : ClusterState) : (s.setCluster c x).winnow = s.winnow := rfl
@[simp] theorem State.setCluster_sieve (c : Nat) (x : ClusterState) : (s.setCluster c x).sieve = s.sieve := rfl
@[simp] theorem State.setCluster_xlate (c : Nat) (x : ClusterState) : (s.setCluster c x).xlate = s.xlate := rfl
@[simp] theorem State.setCluster_bag (c : Nat) (x : ClusterState) : (s.setCluster c x).bag = s.bag := rfl
@[simp] theorem State.setCluster_acc (c : Nat) (x : ClusterState) : (s.setCluster c x).acc = s.acc := rfl
@[simp] theorem State.setCluster_windows (c : Nat) (x : ClusterState) : (s.setCluster c x).windows = s.windows := rfl
@[simp] theorem State.setCluster_hostFn (c : Nat) (x : ClusterState) : (s.setCluster c x).hostFn = s.hostFn := rfl
@[simp] theorem State.setCluster_hostPorts (c : Nat) (x : ClusterState) : (s.setCluster c x).hostPorts = s.hostPorts := rfl
@[simp] theorem State.setCluster_mgmt (c : Nat) (x : ClusterState) : (s.setCluster c x).mgmt = s.mgmt := rfl
@[simp] theorem State.setCluster_letters (c : Nat) (x : ClusterState) : (s.setCluster c x).letters = s.letters := rfl
@[simp] theorem State.setCluster_works (c : Nat) (x : ClusterState) : (s.setCluster c x).works = s.works := rfl
@[simp] theorem State.setCluster_serve (c : Nat) (x : ClusterState) : (s.setCluster c x).serve = s.serve := rfl
@[simp] theorem State.setCluster_sec (c : Nat) (x : ClusterState) : (s.setCluster c x).sec = s.sec := rfl
@[simp] theorem State.setCluster_log (c : Nat) (x : ClusterState) : (s.setCluster c x).log = s.log := rfl

/-! ## setStack: hbm alone differs -/

@[simp] theorem State.setStack_pending (k : Nat) (x : StackState) : (s.setStack k x).pending = s.pending := rfl
@[simp] theorem State.setStack_fresh (k : Nat) (x : StackState) : (s.setStack k x).fresh = s.fresh := rfl
@[simp] theorem State.setStack_out (k : Nat) (x : StackState) : (s.setStack k x).out = s.out := rfl
@[simp] theorem State.setStack_time (k : Nat) (x : StackState) : (s.setStack k x).time = s.time := rfl
@[simp] theorem State.setStack_dev (k : Nat) (x : StackState) : (s.setStack k x).dev = s.dev := rfl
@[simp] theorem State.setStack_cores (k : Nat) (x : StackState) : (s.setStack k x).cores = s.cores := rfl
@[simp] theorem State.setStack_clusters (k : Nat) (x : StackState) : (s.setStack k x).clusters = s.clusters := rfl
@[simp] theorem State.setStack_hubDma (k : Nat) (x : StackState) : (s.setStack k x).hubDma = s.hubDma := rfl
@[simp] theorem State.setStack_netIf (k : Nat) (x : StackState) : (s.setStack k x).netIf = s.netIf := rfl
@[simp] theorem State.setStack_routers (k : Nat) (x : StackState) : (s.setStack k x).routers = s.routers := rfl
@[simp] theorem State.setStack_posts (k : Nat) (x : StackState) : (s.setStack k x).posts = s.posts := rfl
@[simp] theorem State.setStack_sites (k : Nat) (x : StackState) : (s.setStack k x).sites = s.sites := rfl
@[simp] theorem State.setStack_bridges (k : Nat) (x : StackState) : (s.setStack k x).bridges = s.bridges := rfl
@[simp] theorem State.setStack_fuse (k : Nat) (x : StackState) : (s.setStack k x).fuse = s.fuse := rfl
@[simp] theorem State.setStack_pwr (k : Nat) (x : StackState) : (s.setStack k x).pwr = s.pwr := rfl
@[simp] theorem State.setStack_flash (k : Nat) (x : StackState) : (s.setStack k x).flash = s.flash := rfl
@[simp] theorem State.setStack_board (k : Nat) (x : StackState) : (s.setStack k x).board = s.board := rfl
@[simp] theorem State.setStack_mail (k : Nat) (x : StackState) : (s.setStack k x).mail = s.mail := rfl
@[simp] theorem State.setStack_bcast (k : Nat) (x : StackState) : (s.setStack k x).bcast = s.bcast := rfl
@[simp] theorem State.setStack_ctxs (k : Nat) (x : StackState) : (s.setStack k x).ctxs = s.ctxs := rfl
@[simp] theorem State.setStack_pstate (k : Nat) (x : StackState) : (s.setStack k x).pstate = s.pstate := rfl
@[simp] theorem State.setStack_links (k : Nat) (x : StackState) : (s.setStack k x).links = s.links := rfl
@[simp] theorem State.setStack_winnow (k : Nat) (x : StackState) : (s.setStack k x).winnow = s.winnow := rfl
@[simp] theorem State.setStack_sieve (k : Nat) (x : StackState) : (s.setStack k x).sieve = s.sieve := rfl
@[simp] theorem State.setStack_xlate (k : Nat) (x : StackState) : (s.setStack k x).xlate = s.xlate := rfl
@[simp] theorem State.setStack_bag (k : Nat) (x : StackState) : (s.setStack k x).bag = s.bag := rfl
@[simp] theorem State.setStack_acc (k : Nat) (x : StackState) : (s.setStack k x).acc = s.acc := rfl
@[simp] theorem State.setStack_windows (k : Nat) (x : StackState) : (s.setStack k x).windows = s.windows := rfl
@[simp] theorem State.setStack_hostFn (k : Nat) (x : StackState) : (s.setStack k x).hostFn = s.hostFn := rfl
@[simp] theorem State.setStack_hostPorts (k : Nat) (x : StackState) : (s.setStack k x).hostPorts = s.hostPorts := rfl
@[simp] theorem State.setStack_mgmt (k : Nat) (x : StackState) : (s.setStack k x).mgmt = s.mgmt := rfl
@[simp] theorem State.setStack_letters (k : Nat) (x : StackState) : (s.setStack k x).letters = s.letters := rfl
@[simp] theorem State.setStack_works (k : Nat) (x : StackState) : (s.setStack k x).works = s.works := rfl
@[simp] theorem State.setStack_serve (k : Nat) (x : StackState) : (s.setStack k x).serve = s.serve := rfl
@[simp] theorem State.setStack_sec (k : Nat) (x : StackState) : (s.setStack k x).sec = s.sec := rfl
@[simp] theorem State.setStack_log (k : Nat) (x : StackState) : (s.setStack k x).log = s.log := rfl

/-! ## setHdma: hubDma alone differs -/

@[simp] theorem State.setHdma_pending (e : Nat) (x : DmaState) : (s.setHdma e x).pending = s.pending := rfl
@[simp] theorem State.setHdma_fresh (e : Nat) (x : DmaState) : (s.setHdma e x).fresh = s.fresh := rfl
@[simp] theorem State.setHdma_out (e : Nat) (x : DmaState) : (s.setHdma e x).out = s.out := rfl
@[simp] theorem State.setHdma_time (e : Nat) (x : DmaState) : (s.setHdma e x).time = s.time := rfl
@[simp] theorem State.setHdma_dev (e : Nat) (x : DmaState) : (s.setHdma e x).dev = s.dev := rfl
@[simp] theorem State.setHdma_cores (e : Nat) (x : DmaState) : (s.setHdma e x).cores = s.cores := rfl
@[simp] theorem State.setHdma_clusters (e : Nat) (x : DmaState) : (s.setHdma e x).clusters = s.clusters := rfl
@[simp] theorem State.setHdma_hbm (e : Nat) (x : DmaState) : (s.setHdma e x).hbm = s.hbm := rfl
@[simp] theorem State.setHdma_netIf (e : Nat) (x : DmaState) : (s.setHdma e x).netIf = s.netIf := rfl
@[simp] theorem State.setHdma_routers (e : Nat) (x : DmaState) : (s.setHdma e x).routers = s.routers := rfl
@[simp] theorem State.setHdma_posts (e : Nat) (x : DmaState) : (s.setHdma e x).posts = s.posts := rfl
@[simp] theorem State.setHdma_sites (e : Nat) (x : DmaState) : (s.setHdma e x).sites = s.sites := rfl
@[simp] theorem State.setHdma_bridges (e : Nat) (x : DmaState) : (s.setHdma e x).bridges = s.bridges := rfl
@[simp] theorem State.setHdma_fuse (e : Nat) (x : DmaState) : (s.setHdma e x).fuse = s.fuse := rfl
@[simp] theorem State.setHdma_pwr (e : Nat) (x : DmaState) : (s.setHdma e x).pwr = s.pwr := rfl
@[simp] theorem State.setHdma_flash (e : Nat) (x : DmaState) : (s.setHdma e x).flash = s.flash := rfl
@[simp] theorem State.setHdma_board (e : Nat) (x : DmaState) : (s.setHdma e x).board = s.board := rfl
@[simp] theorem State.setHdma_mail (e : Nat) (x : DmaState) : (s.setHdma e x).mail = s.mail := rfl
@[simp] theorem State.setHdma_bcast (e : Nat) (x : DmaState) : (s.setHdma e x).bcast = s.bcast := rfl
@[simp] theorem State.setHdma_ctxs (e : Nat) (x : DmaState) : (s.setHdma e x).ctxs = s.ctxs := rfl
@[simp] theorem State.setHdma_pstate (e : Nat) (x : DmaState) : (s.setHdma e x).pstate = s.pstate := rfl
@[simp] theorem State.setHdma_links (e : Nat) (x : DmaState) : (s.setHdma e x).links = s.links := rfl
@[simp] theorem State.setHdma_winnow (e : Nat) (x : DmaState) : (s.setHdma e x).winnow = s.winnow := rfl
@[simp] theorem State.setHdma_sieve (e : Nat) (x : DmaState) : (s.setHdma e x).sieve = s.sieve := rfl
@[simp] theorem State.setHdma_xlate (e : Nat) (x : DmaState) : (s.setHdma e x).xlate = s.xlate := rfl
@[simp] theorem State.setHdma_bag (e : Nat) (x : DmaState) : (s.setHdma e x).bag = s.bag := rfl
@[simp] theorem State.setHdma_acc (e : Nat) (x : DmaState) : (s.setHdma e x).acc = s.acc := rfl
@[simp] theorem State.setHdma_windows (e : Nat) (x : DmaState) : (s.setHdma e x).windows = s.windows := rfl
@[simp] theorem State.setHdma_hostFn (e : Nat) (x : DmaState) : (s.setHdma e x).hostFn = s.hostFn := rfl
@[simp] theorem State.setHdma_hostPorts (e : Nat) (x : DmaState) : (s.setHdma e x).hostPorts = s.hostPorts := rfl
@[simp] theorem State.setHdma_mgmt (e : Nat) (x : DmaState) : (s.setHdma e x).mgmt = s.mgmt := rfl
@[simp] theorem State.setHdma_letters (e : Nat) (x : DmaState) : (s.setHdma e x).letters = s.letters := rfl
@[simp] theorem State.setHdma_works (e : Nat) (x : DmaState) : (s.setHdma e x).works = s.works := rfl
@[simp] theorem State.setHdma_serve (e : Nat) (x : DmaState) : (s.setHdma e x).serve = s.serve := rfl
@[simp] theorem State.setHdma_sec (e : Nat) (x : DmaState) : (s.setHdma e x).sec = s.sec := rfl
@[simp] theorem State.setHdma_log (e : Nat) (x : DmaState) : (s.setHdma e x).log = s.log := rfl

/-! ## setNif: netIf alone differs -/

@[simp] theorem State.setNif_pending (i : Nat) (x : NetIf) : (s.setNif i x).pending = s.pending := rfl
@[simp] theorem State.setNif_fresh (i : Nat) (x : NetIf) : (s.setNif i x).fresh = s.fresh := rfl
@[simp] theorem State.setNif_out (i : Nat) (x : NetIf) : (s.setNif i x).out = s.out := rfl
@[simp] theorem State.setNif_time (i : Nat) (x : NetIf) : (s.setNif i x).time = s.time := rfl
@[simp] theorem State.setNif_dev (i : Nat) (x : NetIf) : (s.setNif i x).dev = s.dev := rfl
@[simp] theorem State.setNif_cores (i : Nat) (x : NetIf) : (s.setNif i x).cores = s.cores := rfl
@[simp] theorem State.setNif_clusters (i : Nat) (x : NetIf) : (s.setNif i x).clusters = s.clusters := rfl
@[simp] theorem State.setNif_hbm (i : Nat) (x : NetIf) : (s.setNif i x).hbm = s.hbm := rfl
@[simp] theorem State.setNif_hubDma (i : Nat) (x : NetIf) : (s.setNif i x).hubDma = s.hubDma := rfl
@[simp] theorem State.setNif_routers (i : Nat) (x : NetIf) : (s.setNif i x).routers = s.routers := rfl
@[simp] theorem State.setNif_posts (i : Nat) (x : NetIf) : (s.setNif i x).posts = s.posts := rfl
@[simp] theorem State.setNif_sites (i : Nat) (x : NetIf) : (s.setNif i x).sites = s.sites := rfl
@[simp] theorem State.setNif_bridges (i : Nat) (x : NetIf) : (s.setNif i x).bridges = s.bridges := rfl
@[simp] theorem State.setNif_fuse (i : Nat) (x : NetIf) : (s.setNif i x).fuse = s.fuse := rfl
@[simp] theorem State.setNif_pwr (i : Nat) (x : NetIf) : (s.setNif i x).pwr = s.pwr := rfl
@[simp] theorem State.setNif_flash (i : Nat) (x : NetIf) : (s.setNif i x).flash = s.flash := rfl
@[simp] theorem State.setNif_board (i : Nat) (x : NetIf) : (s.setNif i x).board = s.board := rfl
@[simp] theorem State.setNif_mail (i : Nat) (x : NetIf) : (s.setNif i x).mail = s.mail := rfl
@[simp] theorem State.setNif_bcast (i : Nat) (x : NetIf) : (s.setNif i x).bcast = s.bcast := rfl
@[simp] theorem State.setNif_ctxs (i : Nat) (x : NetIf) : (s.setNif i x).ctxs = s.ctxs := rfl
@[simp] theorem State.setNif_pstate (i : Nat) (x : NetIf) : (s.setNif i x).pstate = s.pstate := rfl
@[simp] theorem State.setNif_links (i : Nat) (x : NetIf) : (s.setNif i x).links = s.links := rfl
@[simp] theorem State.setNif_winnow (i : Nat) (x : NetIf) : (s.setNif i x).winnow = s.winnow := rfl
@[simp] theorem State.setNif_sieve (i : Nat) (x : NetIf) : (s.setNif i x).sieve = s.sieve := rfl
@[simp] theorem State.setNif_xlate (i : Nat) (x : NetIf) : (s.setNif i x).xlate = s.xlate := rfl
@[simp] theorem State.setNif_bag (i : Nat) (x : NetIf) : (s.setNif i x).bag = s.bag := rfl
@[simp] theorem State.setNif_acc (i : Nat) (x : NetIf) : (s.setNif i x).acc = s.acc := rfl
@[simp] theorem State.setNif_windows (i : Nat) (x : NetIf) : (s.setNif i x).windows = s.windows := rfl
@[simp] theorem State.setNif_hostFn (i : Nat) (x : NetIf) : (s.setNif i x).hostFn = s.hostFn := rfl
@[simp] theorem State.setNif_hostPorts (i : Nat) (x : NetIf) : (s.setNif i x).hostPorts = s.hostPorts := rfl
@[simp] theorem State.setNif_mgmt (i : Nat) (x : NetIf) : (s.setNif i x).mgmt = s.mgmt := rfl
@[simp] theorem State.setNif_letters (i : Nat) (x : NetIf) : (s.setNif i x).letters = s.letters := rfl
@[simp] theorem State.setNif_works (i : Nat) (x : NetIf) : (s.setNif i x).works = s.works := rfl
@[simp] theorem State.setNif_serve (i : Nat) (x : NetIf) : (s.setNif i x).serve = s.serve := rfl
@[simp] theorem State.setNif_sec (i : Nat) (x : NetIf) : (s.setNif i x).sec = s.sec := rfl
@[simp] theorem State.setNif_log (i : Nat) (x : NetIf) : (s.setNif i x).log = s.log := rfl

/-! ## setRouter: routers alone differs -/

@[simp] theorem State.setRouter_pending (d r : Nat) (x : RouterState) : (s.setRouter d r x).pending = s.pending := rfl
@[simp] theorem State.setRouter_fresh (d r : Nat) (x : RouterState) : (s.setRouter d r x).fresh = s.fresh := rfl
@[simp] theorem State.setRouter_out (d r : Nat) (x : RouterState) : (s.setRouter d r x).out = s.out := rfl
@[simp] theorem State.setRouter_time (d r : Nat) (x : RouterState) : (s.setRouter d r x).time = s.time := rfl
@[simp] theorem State.setRouter_dev (d r : Nat) (x : RouterState) : (s.setRouter d r x).dev = s.dev := rfl
@[simp] theorem State.setRouter_cores (d r : Nat) (x : RouterState) : (s.setRouter d r x).cores = s.cores := rfl
@[simp] theorem State.setRouter_clusters (d r : Nat) (x : RouterState) : (s.setRouter d r x).clusters = s.clusters := rfl
@[simp] theorem State.setRouter_hbm (d r : Nat) (x : RouterState) : (s.setRouter d r x).hbm = s.hbm := rfl
@[simp] theorem State.setRouter_hubDma (d r : Nat) (x : RouterState) : (s.setRouter d r x).hubDma = s.hubDma := rfl
@[simp] theorem State.setRouter_netIf (d r : Nat) (x : RouterState) : (s.setRouter d r x).netIf = s.netIf := rfl
@[simp] theorem State.setRouter_posts (d r : Nat) (x : RouterState) : (s.setRouter d r x).posts = s.posts := rfl
@[simp] theorem State.setRouter_sites (d r : Nat) (x : RouterState) : (s.setRouter d r x).sites = s.sites := rfl
@[simp] theorem State.setRouter_bridges (d r : Nat) (x : RouterState) : (s.setRouter d r x).bridges = s.bridges := rfl
@[simp] theorem State.setRouter_fuse (d r : Nat) (x : RouterState) : (s.setRouter d r x).fuse = s.fuse := rfl
@[simp] theorem State.setRouter_pwr (d r : Nat) (x : RouterState) : (s.setRouter d r x).pwr = s.pwr := rfl
@[simp] theorem State.setRouter_flash (d r : Nat) (x : RouterState) : (s.setRouter d r x).flash = s.flash := rfl
@[simp] theorem State.setRouter_board (d r : Nat) (x : RouterState) : (s.setRouter d r x).board = s.board := rfl
@[simp] theorem State.setRouter_mail (d r : Nat) (x : RouterState) : (s.setRouter d r x).mail = s.mail := rfl
@[simp] theorem State.setRouter_bcast (d r : Nat) (x : RouterState) : (s.setRouter d r x).bcast = s.bcast := rfl
@[simp] theorem State.setRouter_ctxs (d r : Nat) (x : RouterState) : (s.setRouter d r x).ctxs = s.ctxs := rfl
@[simp] theorem State.setRouter_pstate (d r : Nat) (x : RouterState) : (s.setRouter d r x).pstate = s.pstate := rfl
@[simp] theorem State.setRouter_links (d r : Nat) (x : RouterState) : (s.setRouter d r x).links = s.links := rfl
@[simp] theorem State.setRouter_winnow (d r : Nat) (x : RouterState) : (s.setRouter d r x).winnow = s.winnow := rfl
@[simp] theorem State.setRouter_sieve (d r : Nat) (x : RouterState) : (s.setRouter d r x).sieve = s.sieve := rfl
@[simp] theorem State.setRouter_xlate (d r : Nat) (x : RouterState) : (s.setRouter d r x).xlate = s.xlate := rfl
@[simp] theorem State.setRouter_bag (d r : Nat) (x : RouterState) : (s.setRouter d r x).bag = s.bag := rfl
@[simp] theorem State.setRouter_acc (d r : Nat) (x : RouterState) : (s.setRouter d r x).acc = s.acc := rfl
@[simp] theorem State.setRouter_windows (d r : Nat) (x : RouterState) : (s.setRouter d r x).windows = s.windows := rfl
@[simp] theorem State.setRouter_hostFn (d r : Nat) (x : RouterState) : (s.setRouter d r x).hostFn = s.hostFn := rfl
@[simp] theorem State.setRouter_hostPorts (d r : Nat) (x : RouterState) : (s.setRouter d r x).hostPorts = s.hostPorts := rfl
@[simp] theorem State.setRouter_mgmt (d r : Nat) (x : RouterState) : (s.setRouter d r x).mgmt = s.mgmt := rfl
@[simp] theorem State.setRouter_letters (d r : Nat) (x : RouterState) : (s.setRouter d r x).letters = s.letters := rfl
@[simp] theorem State.setRouter_works (d r : Nat) (x : RouterState) : (s.setRouter d r x).works = s.works := rfl
@[simp] theorem State.setRouter_serve (d r : Nat) (x : RouterState) : (s.setRouter d r x).serve = s.serve := rfl
@[simp] theorem State.setRouter_sec (d r : Nat) (x : RouterState) : (s.setRouter d r x).sec = s.sec := rfl
@[simp] theorem State.setRouter_log (d r : Nat) (x : RouterState) : (s.setRouter d r x).log = s.log := rfl

/-! ## setBar: posts alone differs -/

@[simp] theorem State.setBar_pending (d r id : Nat) (v : W64) : (s.setBar d r id v).pending = s.pending := rfl
@[simp] theorem State.setBar_fresh (d r id : Nat) (v : W64) : (s.setBar d r id v).fresh = s.fresh := rfl
@[simp] theorem State.setBar_out (d r id : Nat) (v : W64) : (s.setBar d r id v).out = s.out := rfl
@[simp] theorem State.setBar_time (d r id : Nat) (v : W64) : (s.setBar d r id v).time = s.time := rfl
@[simp] theorem State.setBar_dev (d r id : Nat) (v : W64) : (s.setBar d r id v).dev = s.dev := rfl
@[simp] theorem State.setBar_cores (d r id : Nat) (v : W64) : (s.setBar d r id v).cores = s.cores := rfl
@[simp] theorem State.setBar_clusters (d r id : Nat) (v : W64) : (s.setBar d r id v).clusters = s.clusters := rfl
@[simp] theorem State.setBar_hbm (d r id : Nat) (v : W64) : (s.setBar d r id v).hbm = s.hbm := rfl
@[simp] theorem State.setBar_hubDma (d r id : Nat) (v : W64) : (s.setBar d r id v).hubDma = s.hubDma := rfl
@[simp] theorem State.setBar_netIf (d r id : Nat) (v : W64) : (s.setBar d r id v).netIf = s.netIf := rfl
@[simp] theorem State.setBar_routers (d r id : Nat) (v : W64) : (s.setBar d r id v).routers = s.routers := rfl
@[simp] theorem State.setBar_sites (d r id : Nat) (v : W64) : (s.setBar d r id v).sites = s.sites := rfl
@[simp] theorem State.setBar_bridges (d r id : Nat) (v : W64) : (s.setBar d r id v).bridges = s.bridges := rfl
@[simp] theorem State.setBar_fuse (d r id : Nat) (v : W64) : (s.setBar d r id v).fuse = s.fuse := rfl
@[simp] theorem State.setBar_pwr (d r id : Nat) (v : W64) : (s.setBar d r id v).pwr = s.pwr := rfl
@[simp] theorem State.setBar_flash (d r id : Nat) (v : W64) : (s.setBar d r id v).flash = s.flash := rfl
@[simp] theorem State.setBar_board (d r id : Nat) (v : W64) : (s.setBar d r id v).board = s.board := rfl
@[simp] theorem State.setBar_mail (d r id : Nat) (v : W64) : (s.setBar d r id v).mail = s.mail := rfl
@[simp] theorem State.setBar_bcast (d r id : Nat) (v : W64) : (s.setBar d r id v).bcast = s.bcast := rfl
@[simp] theorem State.setBar_ctxs (d r id : Nat) (v : W64) : (s.setBar d r id v).ctxs = s.ctxs := rfl
@[simp] theorem State.setBar_pstate (d r id : Nat) (v : W64) : (s.setBar d r id v).pstate = s.pstate := rfl
@[simp] theorem State.setBar_links (d r id : Nat) (v : W64) : (s.setBar d r id v).links = s.links := rfl
@[simp] theorem State.setBar_winnow (d r id : Nat) (v : W64) : (s.setBar d r id v).winnow = s.winnow := rfl
@[simp] theorem State.setBar_sieve (d r id : Nat) (v : W64) : (s.setBar d r id v).sieve = s.sieve := rfl
@[simp] theorem State.setBar_xlate (d r id : Nat) (v : W64) : (s.setBar d r id v).xlate = s.xlate := rfl
@[simp] theorem State.setBar_bag (d r id : Nat) (v : W64) : (s.setBar d r id v).bag = s.bag := rfl
@[simp] theorem State.setBar_acc (d r id : Nat) (v : W64) : (s.setBar d r id v).acc = s.acc := rfl
@[simp] theorem State.setBar_windows (d r id : Nat) (v : W64) : (s.setBar d r id v).windows = s.windows := rfl
@[simp] theorem State.setBar_hostFn (d r id : Nat) (v : W64) : (s.setBar d r id v).hostFn = s.hostFn := rfl
@[simp] theorem State.setBar_hostPorts (d r id : Nat) (v : W64) : (s.setBar d r id v).hostPorts = s.hostPorts := rfl
@[simp] theorem State.setBar_mgmt (d r id : Nat) (v : W64) : (s.setBar d r id v).mgmt = s.mgmt := rfl
@[simp] theorem State.setBar_letters (d r id : Nat) (v : W64) : (s.setBar d r id v).letters = s.letters := rfl
@[simp] theorem State.setBar_works (d r id : Nat) (v : W64) : (s.setBar d r id v).works = s.works := rfl
@[simp] theorem State.setBar_serve (d r id : Nat) (v : W64) : (s.setBar d r id v).serve = s.serve := rfl
@[simp] theorem State.setBar_sec (d r id : Nat) (v : W64) : (s.setBar d r id v).sec = s.sec := rfl
@[simp] theorem State.setBar_log (d r id : Nat) (v : W64) : (s.setBar d r id v).log = s.log := rfl

/-! ## setSite: sites alone differs -/

@[simp] theorem State.setSite_pending (n : Nat) (x : SiteState) : (s.setSite n x).pending = s.pending := rfl
@[simp] theorem State.setSite_fresh (n : Nat) (x : SiteState) : (s.setSite n x).fresh = s.fresh := rfl
@[simp] theorem State.setSite_out (n : Nat) (x : SiteState) : (s.setSite n x).out = s.out := rfl
@[simp] theorem State.setSite_time (n : Nat) (x : SiteState) : (s.setSite n x).time = s.time := rfl
@[simp] theorem State.setSite_dev (n : Nat) (x : SiteState) : (s.setSite n x).dev = s.dev := rfl
@[simp] theorem State.setSite_cores (n : Nat) (x : SiteState) : (s.setSite n x).cores = s.cores := rfl
@[simp] theorem State.setSite_clusters (n : Nat) (x : SiteState) : (s.setSite n x).clusters = s.clusters := rfl
@[simp] theorem State.setSite_hbm (n : Nat) (x : SiteState) : (s.setSite n x).hbm = s.hbm := rfl
@[simp] theorem State.setSite_hubDma (n : Nat) (x : SiteState) : (s.setSite n x).hubDma = s.hubDma := rfl
@[simp] theorem State.setSite_netIf (n : Nat) (x : SiteState) : (s.setSite n x).netIf = s.netIf := rfl
@[simp] theorem State.setSite_routers (n : Nat) (x : SiteState) : (s.setSite n x).routers = s.routers := rfl
@[simp] theorem State.setSite_posts (n : Nat) (x : SiteState) : (s.setSite n x).posts = s.posts := rfl
@[simp] theorem State.setSite_bridges (n : Nat) (x : SiteState) : (s.setSite n x).bridges = s.bridges := rfl
@[simp] theorem State.setSite_fuse (n : Nat) (x : SiteState) : (s.setSite n x).fuse = s.fuse := rfl
@[simp] theorem State.setSite_pwr (n : Nat) (x : SiteState) : (s.setSite n x).pwr = s.pwr := rfl
@[simp] theorem State.setSite_flash (n : Nat) (x : SiteState) : (s.setSite n x).flash = s.flash := rfl
@[simp] theorem State.setSite_board (n : Nat) (x : SiteState) : (s.setSite n x).board = s.board := rfl
@[simp] theorem State.setSite_mail (n : Nat) (x : SiteState) : (s.setSite n x).mail = s.mail := rfl
@[simp] theorem State.setSite_bcast (n : Nat) (x : SiteState) : (s.setSite n x).bcast = s.bcast := rfl
@[simp] theorem State.setSite_ctxs (n : Nat) (x : SiteState) : (s.setSite n x).ctxs = s.ctxs := rfl
@[simp] theorem State.setSite_pstate (n : Nat) (x : SiteState) : (s.setSite n x).pstate = s.pstate := rfl
@[simp] theorem State.setSite_links (n : Nat) (x : SiteState) : (s.setSite n x).links = s.links := rfl
@[simp] theorem State.setSite_winnow (n : Nat) (x : SiteState) : (s.setSite n x).winnow = s.winnow := rfl
@[simp] theorem State.setSite_sieve (n : Nat) (x : SiteState) : (s.setSite n x).sieve = s.sieve := rfl
@[simp] theorem State.setSite_xlate (n : Nat) (x : SiteState) : (s.setSite n x).xlate = s.xlate := rfl
@[simp] theorem State.setSite_bag (n : Nat) (x : SiteState) : (s.setSite n x).bag = s.bag := rfl
@[simp] theorem State.setSite_acc (n : Nat) (x : SiteState) : (s.setSite n x).acc = s.acc := rfl
@[simp] theorem State.setSite_windows (n : Nat) (x : SiteState) : (s.setSite n x).windows = s.windows := rfl
@[simp] theorem State.setSite_hostFn (n : Nat) (x : SiteState) : (s.setSite n x).hostFn = s.hostFn := rfl
@[simp] theorem State.setSite_hostPorts (n : Nat) (x : SiteState) : (s.setSite n x).hostPorts = s.hostPorts := rfl
@[simp] theorem State.setSite_mgmt (n : Nat) (x : SiteState) : (s.setSite n x).mgmt = s.mgmt := rfl
@[simp] theorem State.setSite_letters (n : Nat) (x : SiteState) : (s.setSite n x).letters = s.letters := rfl
@[simp] theorem State.setSite_works (n : Nat) (x : SiteState) : (s.setSite n x).works = s.works := rfl
@[simp] theorem State.setSite_serve (n : Nat) (x : SiteState) : (s.setSite n x).serve = s.serve := rfl
@[simp] theorem State.setSite_sec (n : Nat) (x : SiteState) : (s.setSite n x).sec = s.sec := rfl
@[simp] theorem State.setSite_log (n : Nat) (x : SiteState) : (s.setSite n x).log = s.log := rfl

/-! ## setBridge: bridges alone differs -/

@[simp] theorem State.setBridge_pending (br : Nat) (x : BridgeState) : (s.setBridge br x).pending = s.pending := rfl
@[simp] theorem State.setBridge_fresh (br : Nat) (x : BridgeState) : (s.setBridge br x).fresh = s.fresh := rfl
@[simp] theorem State.setBridge_out (br : Nat) (x : BridgeState) : (s.setBridge br x).out = s.out := rfl
@[simp] theorem State.setBridge_time (br : Nat) (x : BridgeState) : (s.setBridge br x).time = s.time := rfl
@[simp] theorem State.setBridge_dev (br : Nat) (x : BridgeState) : (s.setBridge br x).dev = s.dev := rfl
@[simp] theorem State.setBridge_cores (br : Nat) (x : BridgeState) : (s.setBridge br x).cores = s.cores := rfl
@[simp] theorem State.setBridge_clusters (br : Nat) (x : BridgeState) : (s.setBridge br x).clusters = s.clusters := rfl
@[simp] theorem State.setBridge_hbm (br : Nat) (x : BridgeState) : (s.setBridge br x).hbm = s.hbm := rfl
@[simp] theorem State.setBridge_hubDma (br : Nat) (x : BridgeState) : (s.setBridge br x).hubDma = s.hubDma := rfl
@[simp] theorem State.setBridge_netIf (br : Nat) (x : BridgeState) : (s.setBridge br x).netIf = s.netIf := rfl
@[simp] theorem State.setBridge_routers (br : Nat) (x : BridgeState) : (s.setBridge br x).routers = s.routers := rfl
@[simp] theorem State.setBridge_posts (br : Nat) (x : BridgeState) : (s.setBridge br x).posts = s.posts := rfl
@[simp] theorem State.setBridge_sites (br : Nat) (x : BridgeState) : (s.setBridge br x).sites = s.sites := rfl
@[simp] theorem State.setBridge_fuse (br : Nat) (x : BridgeState) : (s.setBridge br x).fuse = s.fuse := rfl
@[simp] theorem State.setBridge_pwr (br : Nat) (x : BridgeState) : (s.setBridge br x).pwr = s.pwr := rfl
@[simp] theorem State.setBridge_flash (br : Nat) (x : BridgeState) : (s.setBridge br x).flash = s.flash := rfl
@[simp] theorem State.setBridge_board (br : Nat) (x : BridgeState) : (s.setBridge br x).board = s.board := rfl
@[simp] theorem State.setBridge_mail (br : Nat) (x : BridgeState) : (s.setBridge br x).mail = s.mail := rfl
@[simp] theorem State.setBridge_bcast (br : Nat) (x : BridgeState) : (s.setBridge br x).bcast = s.bcast := rfl
@[simp] theorem State.setBridge_ctxs (br : Nat) (x : BridgeState) : (s.setBridge br x).ctxs = s.ctxs := rfl
@[simp] theorem State.setBridge_pstate (br : Nat) (x : BridgeState) : (s.setBridge br x).pstate = s.pstate := rfl
@[simp] theorem State.setBridge_links (br : Nat) (x : BridgeState) : (s.setBridge br x).links = s.links := rfl
@[simp] theorem State.setBridge_winnow (br : Nat) (x : BridgeState) : (s.setBridge br x).winnow = s.winnow := rfl
@[simp] theorem State.setBridge_sieve (br : Nat) (x : BridgeState) : (s.setBridge br x).sieve = s.sieve := rfl
@[simp] theorem State.setBridge_xlate (br : Nat) (x : BridgeState) : (s.setBridge br x).xlate = s.xlate := rfl
@[simp] theorem State.setBridge_bag (br : Nat) (x : BridgeState) : (s.setBridge br x).bag = s.bag := rfl
@[simp] theorem State.setBridge_acc (br : Nat) (x : BridgeState) : (s.setBridge br x).acc = s.acc := rfl
@[simp] theorem State.setBridge_windows (br : Nat) (x : BridgeState) : (s.setBridge br x).windows = s.windows := rfl
@[simp] theorem State.setBridge_hostFn (br : Nat) (x : BridgeState) : (s.setBridge br x).hostFn = s.hostFn := rfl
@[simp] theorem State.setBridge_hostPorts (br : Nat) (x : BridgeState) : (s.setBridge br x).hostPorts = s.hostPorts := rfl
@[simp] theorem State.setBridge_mgmt (br : Nat) (x : BridgeState) : (s.setBridge br x).mgmt = s.mgmt := rfl
@[simp] theorem State.setBridge_letters (br : Nat) (x : BridgeState) : (s.setBridge br x).letters = s.letters := rfl
@[simp] theorem State.setBridge_works (br : Nat) (x : BridgeState) : (s.setBridge br x).works = s.works := rfl
@[simp] theorem State.setBridge_serve (br : Nat) (x : BridgeState) : (s.setBridge br x).serve = s.serve := rfl
@[simp] theorem State.setBridge_sec (br : Nat) (x : BridgeState) : (s.setBridge br x).sec = s.sec := rfl
@[simp] theorem State.setBridge_log (br : Nat) (x : BridgeState) : (s.setBridge br x).log = s.log := rfl

/-! ## setPd: pwr alone differs -/

@[simp] theorem State.setPd_pending (d : Nat) (x : PowerDie) : (s.setPd d x).pending = s.pending := rfl
@[simp] theorem State.setPd_fresh (d : Nat) (x : PowerDie) : (s.setPd d x).fresh = s.fresh := rfl
@[simp] theorem State.setPd_out (d : Nat) (x : PowerDie) : (s.setPd d x).out = s.out := rfl
@[simp] theorem State.setPd_time (d : Nat) (x : PowerDie) : (s.setPd d x).time = s.time := rfl
@[simp] theorem State.setPd_dev (d : Nat) (x : PowerDie) : (s.setPd d x).dev = s.dev := rfl
@[simp] theorem State.setPd_cores (d : Nat) (x : PowerDie) : (s.setPd d x).cores = s.cores := rfl
@[simp] theorem State.setPd_clusters (d : Nat) (x : PowerDie) : (s.setPd d x).clusters = s.clusters := rfl
@[simp] theorem State.setPd_hbm (d : Nat) (x : PowerDie) : (s.setPd d x).hbm = s.hbm := rfl
@[simp] theorem State.setPd_hubDma (d : Nat) (x : PowerDie) : (s.setPd d x).hubDma = s.hubDma := rfl
@[simp] theorem State.setPd_netIf (d : Nat) (x : PowerDie) : (s.setPd d x).netIf = s.netIf := rfl
@[simp] theorem State.setPd_routers (d : Nat) (x : PowerDie) : (s.setPd d x).routers = s.routers := rfl
@[simp] theorem State.setPd_posts (d : Nat) (x : PowerDie) : (s.setPd d x).posts = s.posts := rfl
@[simp] theorem State.setPd_sites (d : Nat) (x : PowerDie) : (s.setPd d x).sites = s.sites := rfl
@[simp] theorem State.setPd_bridges (d : Nat) (x : PowerDie) : (s.setPd d x).bridges = s.bridges := rfl
@[simp] theorem State.setPd_fuse (d : Nat) (x : PowerDie) : (s.setPd d x).fuse = s.fuse := rfl
@[simp] theorem State.setPd_flash (d : Nat) (x : PowerDie) : (s.setPd d x).flash = s.flash := rfl
@[simp] theorem State.setPd_board (d : Nat) (x : PowerDie) : (s.setPd d x).board = s.board := rfl
@[simp] theorem State.setPd_mail (d : Nat) (x : PowerDie) : (s.setPd d x).mail = s.mail := rfl
@[simp] theorem State.setPd_bcast (d : Nat) (x : PowerDie) : (s.setPd d x).bcast = s.bcast := rfl
@[simp] theorem State.setPd_ctxs (d : Nat) (x : PowerDie) : (s.setPd d x).ctxs = s.ctxs := rfl
@[simp] theorem State.setPd_pstate (d : Nat) (x : PowerDie) : (s.setPd d x).pstate = s.pstate := rfl
@[simp] theorem State.setPd_links (d : Nat) (x : PowerDie) : (s.setPd d x).links = s.links := rfl
@[simp] theorem State.setPd_winnow (d : Nat) (x : PowerDie) : (s.setPd d x).winnow = s.winnow := rfl
@[simp] theorem State.setPd_sieve (d : Nat) (x : PowerDie) : (s.setPd d x).sieve = s.sieve := rfl
@[simp] theorem State.setPd_xlate (d : Nat) (x : PowerDie) : (s.setPd d x).xlate = s.xlate := rfl
@[simp] theorem State.setPd_bag (d : Nat) (x : PowerDie) : (s.setPd d x).bag = s.bag := rfl
@[simp] theorem State.setPd_acc (d : Nat) (x : PowerDie) : (s.setPd d x).acc = s.acc := rfl
@[simp] theorem State.setPd_windows (d : Nat) (x : PowerDie) : (s.setPd d x).windows = s.windows := rfl
@[simp] theorem State.setPd_hostFn (d : Nat) (x : PowerDie) : (s.setPd d x).hostFn = s.hostFn := rfl
@[simp] theorem State.setPd_hostPorts (d : Nat) (x : PowerDie) : (s.setPd d x).hostPorts = s.hostPorts := rfl
@[simp] theorem State.setPd_mgmt (d : Nat) (x : PowerDie) : (s.setPd d x).mgmt = s.mgmt := rfl
@[simp] theorem State.setPd_letters (d : Nat) (x : PowerDie) : (s.setPd d x).letters = s.letters := rfl
@[simp] theorem State.setPd_works (d : Nat) (x : PowerDie) : (s.setPd d x).works = s.works := rfl
@[simp] theorem State.setPd_serve (d : Nat) (x : PowerDie) : (s.setPd d x).serve = s.serve := rfl
@[simp] theorem State.setPd_sec (d : Nat) (x : PowerDie) : (s.setPd d x).sec = s.sec := rfl
@[simp] theorem State.setPd_log (d : Nat) (x : PowerDie) : (s.setPd d x).log = s.log := rfl

/-! ## setPart: pstate alone differs -/

@[simp] theorem State.setPart_pending (p : Nat) (x : PartState) : (s.setPart p x).pending = s.pending := rfl
@[simp] theorem State.setPart_fresh (p : Nat) (x : PartState) : (s.setPart p x).fresh = s.fresh := rfl
@[simp] theorem State.setPart_out (p : Nat) (x : PartState) : (s.setPart p x).out = s.out := rfl
@[simp] theorem State.setPart_time (p : Nat) (x : PartState) : (s.setPart p x).time = s.time := rfl
@[simp] theorem State.setPart_dev (p : Nat) (x : PartState) : (s.setPart p x).dev = s.dev := rfl
@[simp] theorem State.setPart_cores (p : Nat) (x : PartState) : (s.setPart p x).cores = s.cores := rfl
@[simp] theorem State.setPart_clusters (p : Nat) (x : PartState) : (s.setPart p x).clusters = s.clusters := rfl
@[simp] theorem State.setPart_hbm (p : Nat) (x : PartState) : (s.setPart p x).hbm = s.hbm := rfl
@[simp] theorem State.setPart_hubDma (p : Nat) (x : PartState) : (s.setPart p x).hubDma = s.hubDma := rfl
@[simp] theorem State.setPart_netIf (p : Nat) (x : PartState) : (s.setPart p x).netIf = s.netIf := rfl
@[simp] theorem State.setPart_routers (p : Nat) (x : PartState) : (s.setPart p x).routers = s.routers := rfl
@[simp] theorem State.setPart_posts (p : Nat) (x : PartState) : (s.setPart p x).posts = s.posts := rfl
@[simp] theorem State.setPart_sites (p : Nat) (x : PartState) : (s.setPart p x).sites = s.sites := rfl
@[simp] theorem State.setPart_bridges (p : Nat) (x : PartState) : (s.setPart p x).bridges = s.bridges := rfl
@[simp] theorem State.setPart_fuse (p : Nat) (x : PartState) : (s.setPart p x).fuse = s.fuse := rfl
@[simp] theorem State.setPart_pwr (p : Nat) (x : PartState) : (s.setPart p x).pwr = s.pwr := rfl
@[simp] theorem State.setPart_flash (p : Nat) (x : PartState) : (s.setPart p x).flash = s.flash := rfl
@[simp] theorem State.setPart_board (p : Nat) (x : PartState) : (s.setPart p x).board = s.board := rfl
@[simp] theorem State.setPart_mail (p : Nat) (x : PartState) : (s.setPart p x).mail = s.mail := rfl
@[simp] theorem State.setPart_bcast (p : Nat) (x : PartState) : (s.setPart p x).bcast = s.bcast := rfl
@[simp] theorem State.setPart_ctxs (p : Nat) (x : PartState) : (s.setPart p x).ctxs = s.ctxs := rfl
@[simp] theorem State.setPart_links (p : Nat) (x : PartState) : (s.setPart p x).links = s.links := rfl
@[simp] theorem State.setPart_winnow (p : Nat) (x : PartState) : (s.setPart p x).winnow = s.winnow := rfl
@[simp] theorem State.setPart_sieve (p : Nat) (x : PartState) : (s.setPart p x).sieve = s.sieve := rfl
@[simp] theorem State.setPart_xlate (p : Nat) (x : PartState) : (s.setPart p x).xlate = s.xlate := rfl
@[simp] theorem State.setPart_bag (p : Nat) (x : PartState) : (s.setPart p x).bag = s.bag := rfl
@[simp] theorem State.setPart_acc (p : Nat) (x : PartState) : (s.setPart p x).acc = s.acc := rfl
@[simp] theorem State.setPart_windows (p : Nat) (x : PartState) : (s.setPart p x).windows = s.windows := rfl
@[simp] theorem State.setPart_hostFn (p : Nat) (x : PartState) : (s.setPart p x).hostFn = s.hostFn := rfl
@[simp] theorem State.setPart_hostPorts (p : Nat) (x : PartState) : (s.setPart p x).hostPorts = s.hostPorts := rfl
@[simp] theorem State.setPart_mgmt (p : Nat) (x : PartState) : (s.setPart p x).mgmt = s.mgmt := rfl
@[simp] theorem State.setPart_letters (p : Nat) (x : PartState) : (s.setPart p x).letters = s.letters := rfl
@[simp] theorem State.setPart_works (p : Nat) (x : PartState) : (s.setPart p x).works = s.works := rfl
@[simp] theorem State.setPart_serve (p : Nat) (x : PartState) : (s.setPart p x).serve = s.serve := rfl
@[simp] theorem State.setPart_sec (p : Nat) (x : PartState) : (s.setPart p x).sec = s.sec := rfl
@[simp] theorem State.setPart_log (p : Nat) (x : PartState) : (s.setPart p x).log = s.log := rfl

/-! ## setPort: links alone differs -/

@[simp] theorem State.setPort_pending (l : Nat) (x : PortState) : (s.setPort l x).pending = s.pending := rfl
@[simp] theorem State.setPort_fresh (l : Nat) (x : PortState) : (s.setPort l x).fresh = s.fresh := rfl
@[simp] theorem State.setPort_out (l : Nat) (x : PortState) : (s.setPort l x).out = s.out := rfl
@[simp] theorem State.setPort_time (l : Nat) (x : PortState) : (s.setPort l x).time = s.time := rfl
@[simp] theorem State.setPort_dev (l : Nat) (x : PortState) : (s.setPort l x).dev = s.dev := rfl
@[simp] theorem State.setPort_cores (l : Nat) (x : PortState) : (s.setPort l x).cores = s.cores := rfl
@[simp] theorem State.setPort_clusters (l : Nat) (x : PortState) : (s.setPort l x).clusters = s.clusters := rfl
@[simp] theorem State.setPort_hbm (l : Nat) (x : PortState) : (s.setPort l x).hbm = s.hbm := rfl
@[simp] theorem State.setPort_hubDma (l : Nat) (x : PortState) : (s.setPort l x).hubDma = s.hubDma := rfl
@[simp] theorem State.setPort_netIf (l : Nat) (x : PortState) : (s.setPort l x).netIf = s.netIf := rfl
@[simp] theorem State.setPort_routers (l : Nat) (x : PortState) : (s.setPort l x).routers = s.routers := rfl
@[simp] theorem State.setPort_posts (l : Nat) (x : PortState) : (s.setPort l x).posts = s.posts := rfl
@[simp] theorem State.setPort_sites (l : Nat) (x : PortState) : (s.setPort l x).sites = s.sites := rfl
@[simp] theorem State.setPort_bridges (l : Nat) (x : PortState) : (s.setPort l x).bridges = s.bridges := rfl
@[simp] theorem State.setPort_fuse (l : Nat) (x : PortState) : (s.setPort l x).fuse = s.fuse := rfl
@[simp] theorem State.setPort_pwr (l : Nat) (x : PortState) : (s.setPort l x).pwr = s.pwr := rfl
@[simp] theorem State.setPort_flash (l : Nat) (x : PortState) : (s.setPort l x).flash = s.flash := rfl
@[simp] theorem State.setPort_board (l : Nat) (x : PortState) : (s.setPort l x).board = s.board := rfl
@[simp] theorem State.setPort_mail (l : Nat) (x : PortState) : (s.setPort l x).mail = s.mail := rfl
@[simp] theorem State.setPort_bcast (l : Nat) (x : PortState) : (s.setPort l x).bcast = s.bcast := rfl
@[simp] theorem State.setPort_ctxs (l : Nat) (x : PortState) : (s.setPort l x).ctxs = s.ctxs := rfl
@[simp] theorem State.setPort_pstate (l : Nat) (x : PortState) : (s.setPort l x).pstate = s.pstate := rfl
@[simp] theorem State.setPort_winnow (l : Nat) (x : PortState) : (s.setPort l x).winnow = s.winnow := rfl
@[simp] theorem State.setPort_sieve (l : Nat) (x : PortState) : (s.setPort l x).sieve = s.sieve := rfl
@[simp] theorem State.setPort_xlate (l : Nat) (x : PortState) : (s.setPort l x).xlate = s.xlate := rfl
@[simp] theorem State.setPort_bag (l : Nat) (x : PortState) : (s.setPort l x).bag = s.bag := rfl
@[simp] theorem State.setPort_acc (l : Nat) (x : PortState) : (s.setPort l x).acc = s.acc := rfl
@[simp] theorem State.setPort_windows (l : Nat) (x : PortState) : (s.setPort l x).windows = s.windows := rfl
@[simp] theorem State.setPort_hostFn (l : Nat) (x : PortState) : (s.setPort l x).hostFn = s.hostFn := rfl
@[simp] theorem State.setPort_hostPorts (l : Nat) (x : PortState) : (s.setPort l x).hostPorts = s.hostPorts := rfl
@[simp] theorem State.setPort_mgmt (l : Nat) (x : PortState) : (s.setPort l x).mgmt = s.mgmt := rfl
@[simp] theorem State.setPort_letters (l : Nat) (x : PortState) : (s.setPort l x).letters = s.letters := rfl
@[simp] theorem State.setPort_works (l : Nat) (x : PortState) : (s.setPort l x).works = s.works := rfl
@[simp] theorem State.setPort_serve (l : Nat) (x : PortState) : (s.setPort l x).serve = s.serve := rfl
@[simp] theorem State.setPort_sec (l : Nat) (x : PortState) : (s.setPort l x).sec = s.sec := rfl
@[simp] theorem State.setPort_log (l : Nat) (x : PortState) : (s.setPort l x).log = s.log := rfl

/-! ## setWin: winnow alone differs -/

@[simp] theorem State.setWin_pending (f : Nat) (x : WinnowState) : (s.setWin f x).pending = s.pending := rfl
@[simp] theorem State.setWin_fresh (f : Nat) (x : WinnowState) : (s.setWin f x).fresh = s.fresh := rfl
@[simp] theorem State.setWin_out (f : Nat) (x : WinnowState) : (s.setWin f x).out = s.out := rfl
@[simp] theorem State.setWin_time (f : Nat) (x : WinnowState) : (s.setWin f x).time = s.time := rfl
@[simp] theorem State.setWin_dev (f : Nat) (x : WinnowState) : (s.setWin f x).dev = s.dev := rfl
@[simp] theorem State.setWin_cores (f : Nat) (x : WinnowState) : (s.setWin f x).cores = s.cores := rfl
@[simp] theorem State.setWin_clusters (f : Nat) (x : WinnowState) : (s.setWin f x).clusters = s.clusters := rfl
@[simp] theorem State.setWin_hbm (f : Nat) (x : WinnowState) : (s.setWin f x).hbm = s.hbm := rfl
@[simp] theorem State.setWin_hubDma (f : Nat) (x : WinnowState) : (s.setWin f x).hubDma = s.hubDma := rfl
@[simp] theorem State.setWin_netIf (f : Nat) (x : WinnowState) : (s.setWin f x).netIf = s.netIf := rfl
@[simp] theorem State.setWin_routers (f : Nat) (x : WinnowState) : (s.setWin f x).routers = s.routers := rfl
@[simp] theorem State.setWin_posts (f : Nat) (x : WinnowState) : (s.setWin f x).posts = s.posts := rfl
@[simp] theorem State.setWin_sites (f : Nat) (x : WinnowState) : (s.setWin f x).sites = s.sites := rfl
@[simp] theorem State.setWin_bridges (f : Nat) (x : WinnowState) : (s.setWin f x).bridges = s.bridges := rfl
@[simp] theorem State.setWin_fuse (f : Nat) (x : WinnowState) : (s.setWin f x).fuse = s.fuse := rfl
@[simp] theorem State.setWin_pwr (f : Nat) (x : WinnowState) : (s.setWin f x).pwr = s.pwr := rfl
@[simp] theorem State.setWin_flash (f : Nat) (x : WinnowState) : (s.setWin f x).flash = s.flash := rfl
@[simp] theorem State.setWin_board (f : Nat) (x : WinnowState) : (s.setWin f x).board = s.board := rfl
@[simp] theorem State.setWin_mail (f : Nat) (x : WinnowState) : (s.setWin f x).mail = s.mail := rfl
@[simp] theorem State.setWin_bcast (f : Nat) (x : WinnowState) : (s.setWin f x).bcast = s.bcast := rfl
@[simp] theorem State.setWin_ctxs (f : Nat) (x : WinnowState) : (s.setWin f x).ctxs = s.ctxs := rfl
@[simp] theorem State.setWin_pstate (f : Nat) (x : WinnowState) : (s.setWin f x).pstate = s.pstate := rfl
@[simp] theorem State.setWin_links (f : Nat) (x : WinnowState) : (s.setWin f x).links = s.links := rfl
@[simp] theorem State.setWin_sieve (f : Nat) (x : WinnowState) : (s.setWin f x).sieve = s.sieve := rfl
@[simp] theorem State.setWin_xlate (f : Nat) (x : WinnowState) : (s.setWin f x).xlate = s.xlate := rfl
@[simp] theorem State.setWin_bag (f : Nat) (x : WinnowState) : (s.setWin f x).bag = s.bag := rfl
@[simp] theorem State.setWin_acc (f : Nat) (x : WinnowState) : (s.setWin f x).acc = s.acc := rfl
@[simp] theorem State.setWin_windows (f : Nat) (x : WinnowState) : (s.setWin f x).windows = s.windows := rfl
@[simp] theorem State.setWin_hostFn (f : Nat) (x : WinnowState) : (s.setWin f x).hostFn = s.hostFn := rfl
@[simp] theorem State.setWin_hostPorts (f : Nat) (x : WinnowState) : (s.setWin f x).hostPorts = s.hostPorts := rfl
@[simp] theorem State.setWin_mgmt (f : Nat) (x : WinnowState) : (s.setWin f x).mgmt = s.mgmt := rfl
@[simp] theorem State.setWin_letters (f : Nat) (x : WinnowState) : (s.setWin f x).letters = s.letters := rfl
@[simp] theorem State.setWin_works (f : Nat) (x : WinnowState) : (s.setWin f x).works = s.works := rfl
@[simp] theorem State.setWin_serve (f : Nat) (x : WinnowState) : (s.setWin f x).serve = s.serve := rfl
@[simp] theorem State.setWin_sec (f : Nat) (x : WinnowState) : (s.setWin f x).sec = s.sec := rfl
@[simp] theorem State.setWin_log (f : Nat) (x : WinnowState) : (s.setWin f x).log = s.log := rfl

/-! ## setSv: sieve alone differs -/

@[simp] theorem State.setSv_pending (v : Nat) (x : SieveState) : (s.setSv v x).pending = s.pending := rfl
@[simp] theorem State.setSv_fresh (v : Nat) (x : SieveState) : (s.setSv v x).fresh = s.fresh := rfl
@[simp] theorem State.setSv_out (v : Nat) (x : SieveState) : (s.setSv v x).out = s.out := rfl
@[simp] theorem State.setSv_time (v : Nat) (x : SieveState) : (s.setSv v x).time = s.time := rfl
@[simp] theorem State.setSv_dev (v : Nat) (x : SieveState) : (s.setSv v x).dev = s.dev := rfl
@[simp] theorem State.setSv_cores (v : Nat) (x : SieveState) : (s.setSv v x).cores = s.cores := rfl
@[simp] theorem State.setSv_clusters (v : Nat) (x : SieveState) : (s.setSv v x).clusters = s.clusters := rfl
@[simp] theorem State.setSv_hbm (v : Nat) (x : SieveState) : (s.setSv v x).hbm = s.hbm := rfl
@[simp] theorem State.setSv_hubDma (v : Nat) (x : SieveState) : (s.setSv v x).hubDma = s.hubDma := rfl
@[simp] theorem State.setSv_netIf (v : Nat) (x : SieveState) : (s.setSv v x).netIf = s.netIf := rfl
@[simp] theorem State.setSv_routers (v : Nat) (x : SieveState) : (s.setSv v x).routers = s.routers := rfl
@[simp] theorem State.setSv_posts (v : Nat) (x : SieveState) : (s.setSv v x).posts = s.posts := rfl
@[simp] theorem State.setSv_sites (v : Nat) (x : SieveState) : (s.setSv v x).sites = s.sites := rfl
@[simp] theorem State.setSv_bridges (v : Nat) (x : SieveState) : (s.setSv v x).bridges = s.bridges := rfl
@[simp] theorem State.setSv_fuse (v : Nat) (x : SieveState) : (s.setSv v x).fuse = s.fuse := rfl
@[simp] theorem State.setSv_pwr (v : Nat) (x : SieveState) : (s.setSv v x).pwr = s.pwr := rfl
@[simp] theorem State.setSv_flash (v : Nat) (x : SieveState) : (s.setSv v x).flash = s.flash := rfl
@[simp] theorem State.setSv_board (v : Nat) (x : SieveState) : (s.setSv v x).board = s.board := rfl
@[simp] theorem State.setSv_mail (v : Nat) (x : SieveState) : (s.setSv v x).mail = s.mail := rfl
@[simp] theorem State.setSv_bcast (v : Nat) (x : SieveState) : (s.setSv v x).bcast = s.bcast := rfl
@[simp] theorem State.setSv_ctxs (v : Nat) (x : SieveState) : (s.setSv v x).ctxs = s.ctxs := rfl
@[simp] theorem State.setSv_pstate (v : Nat) (x : SieveState) : (s.setSv v x).pstate = s.pstate := rfl
@[simp] theorem State.setSv_links (v : Nat) (x : SieveState) : (s.setSv v x).links = s.links := rfl
@[simp] theorem State.setSv_winnow (v : Nat) (x : SieveState) : (s.setSv v x).winnow = s.winnow := rfl
@[simp] theorem State.setSv_xlate (v : Nat) (x : SieveState) : (s.setSv v x).xlate = s.xlate := rfl
@[simp] theorem State.setSv_bag (v : Nat) (x : SieveState) : (s.setSv v x).bag = s.bag := rfl
@[simp] theorem State.setSv_acc (v : Nat) (x : SieveState) : (s.setSv v x).acc = s.acc := rfl
@[simp] theorem State.setSv_windows (v : Nat) (x : SieveState) : (s.setSv v x).windows = s.windows := rfl
@[simp] theorem State.setSv_hostFn (v : Nat) (x : SieveState) : (s.setSv v x).hostFn = s.hostFn := rfl
@[simp] theorem State.setSv_hostPorts (v : Nat) (x : SieveState) : (s.setSv v x).hostPorts = s.hostPorts := rfl
@[simp] theorem State.setSv_mgmt (v : Nat) (x : SieveState) : (s.setSv v x).mgmt = s.mgmt := rfl
@[simp] theorem State.setSv_letters (v : Nat) (x : SieveState) : (s.setSv v x).letters = s.letters := rfl
@[simp] theorem State.setSv_works (v : Nat) (x : SieveState) : (s.setSv v x).works = s.works := rfl
@[simp] theorem State.setSv_serve (v : Nat) (x : SieveState) : (s.setSv v x).serve = s.serve := rfl
@[simp] theorem State.setSv_sec (v : Nat) (x : SieveState) : (s.setSv v x).sec = s.sec := rfl
@[simp] theorem State.setSv_log (v : Nat) (x : SieveState) : (s.setSv v x).log = s.log := rfl

/-! ## setXl: xlate alone differs -/

@[simp] theorem State.setXl_pending (d : Nat) (x : XlateState) : (s.setXl d x).pending = s.pending := rfl
@[simp] theorem State.setXl_fresh (d : Nat) (x : XlateState) : (s.setXl d x).fresh = s.fresh := rfl
@[simp] theorem State.setXl_out (d : Nat) (x : XlateState) : (s.setXl d x).out = s.out := rfl
@[simp] theorem State.setXl_time (d : Nat) (x : XlateState) : (s.setXl d x).time = s.time := rfl
@[simp] theorem State.setXl_dev (d : Nat) (x : XlateState) : (s.setXl d x).dev = s.dev := rfl
@[simp] theorem State.setXl_cores (d : Nat) (x : XlateState) : (s.setXl d x).cores = s.cores := rfl
@[simp] theorem State.setXl_clusters (d : Nat) (x : XlateState) : (s.setXl d x).clusters = s.clusters := rfl
@[simp] theorem State.setXl_hbm (d : Nat) (x : XlateState) : (s.setXl d x).hbm = s.hbm := rfl
@[simp] theorem State.setXl_hubDma (d : Nat) (x : XlateState) : (s.setXl d x).hubDma = s.hubDma := rfl
@[simp] theorem State.setXl_netIf (d : Nat) (x : XlateState) : (s.setXl d x).netIf = s.netIf := rfl
@[simp] theorem State.setXl_routers (d : Nat) (x : XlateState) : (s.setXl d x).routers = s.routers := rfl
@[simp] theorem State.setXl_posts (d : Nat) (x : XlateState) : (s.setXl d x).posts = s.posts := rfl
@[simp] theorem State.setXl_sites (d : Nat) (x : XlateState) : (s.setXl d x).sites = s.sites := rfl
@[simp] theorem State.setXl_bridges (d : Nat) (x : XlateState) : (s.setXl d x).bridges = s.bridges := rfl
@[simp] theorem State.setXl_fuse (d : Nat) (x : XlateState) : (s.setXl d x).fuse = s.fuse := rfl
@[simp] theorem State.setXl_pwr (d : Nat) (x : XlateState) : (s.setXl d x).pwr = s.pwr := rfl
@[simp] theorem State.setXl_flash (d : Nat) (x : XlateState) : (s.setXl d x).flash = s.flash := rfl
@[simp] theorem State.setXl_board (d : Nat) (x : XlateState) : (s.setXl d x).board = s.board := rfl
@[simp] theorem State.setXl_mail (d : Nat) (x : XlateState) : (s.setXl d x).mail = s.mail := rfl
@[simp] theorem State.setXl_bcast (d : Nat) (x : XlateState) : (s.setXl d x).bcast = s.bcast := rfl
@[simp] theorem State.setXl_ctxs (d : Nat) (x : XlateState) : (s.setXl d x).ctxs = s.ctxs := rfl
@[simp] theorem State.setXl_pstate (d : Nat) (x : XlateState) : (s.setXl d x).pstate = s.pstate := rfl
@[simp] theorem State.setXl_links (d : Nat) (x : XlateState) : (s.setXl d x).links = s.links := rfl
@[simp] theorem State.setXl_winnow (d : Nat) (x : XlateState) : (s.setXl d x).winnow = s.winnow := rfl
@[simp] theorem State.setXl_sieve (d : Nat) (x : XlateState) : (s.setXl d x).sieve = s.sieve := rfl
@[simp] theorem State.setXl_bag (d : Nat) (x : XlateState) : (s.setXl d x).bag = s.bag := rfl
@[simp] theorem State.setXl_acc (d : Nat) (x : XlateState) : (s.setXl d x).acc = s.acc := rfl
@[simp] theorem State.setXl_windows (d : Nat) (x : XlateState) : (s.setXl d x).windows = s.windows := rfl
@[simp] theorem State.setXl_hostFn (d : Nat) (x : XlateState) : (s.setXl d x).hostFn = s.hostFn := rfl
@[simp] theorem State.setXl_hostPorts (d : Nat) (x : XlateState) : (s.setXl d x).hostPorts = s.hostPorts := rfl
@[simp] theorem State.setXl_mgmt (d : Nat) (x : XlateState) : (s.setXl d x).mgmt = s.mgmt := rfl
@[simp] theorem State.setXl_letters (d : Nat) (x : XlateState) : (s.setXl d x).letters = s.letters := rfl
@[simp] theorem State.setXl_works (d : Nat) (x : XlateState) : (s.setXl d x).works = s.works := rfl
@[simp] theorem State.setXl_serve (d : Nat) (x : XlateState) : (s.setXl d x).serve = s.serve := rfl
@[simp] theorem State.setXl_sec (d : Nat) (x : XlateState) : (s.setXl d x).sec = s.sec := rfl
@[simp] theorem State.setXl_log (d : Nat) (x : XlateState) : (s.setXl d x).log = s.log := rfl

/-! ## setFn: hostFn alone differs -/

@[simp] theorem State.setFn_pending (p f : Nat) (x : HostFunc) : (s.setFn p f x).pending = s.pending := rfl
@[simp] theorem State.setFn_fresh (p f : Nat) (x : HostFunc) : (s.setFn p f x).fresh = s.fresh := rfl
@[simp] theorem State.setFn_out (p f : Nat) (x : HostFunc) : (s.setFn p f x).out = s.out := rfl
@[simp] theorem State.setFn_time (p f : Nat) (x : HostFunc) : (s.setFn p f x).time = s.time := rfl
@[simp] theorem State.setFn_dev (p f : Nat) (x : HostFunc) : (s.setFn p f x).dev = s.dev := rfl
@[simp] theorem State.setFn_cores (p f : Nat) (x : HostFunc) : (s.setFn p f x).cores = s.cores := rfl
@[simp] theorem State.setFn_clusters (p f : Nat) (x : HostFunc) : (s.setFn p f x).clusters = s.clusters := rfl
@[simp] theorem State.setFn_hbm (p f : Nat) (x : HostFunc) : (s.setFn p f x).hbm = s.hbm := rfl
@[simp] theorem State.setFn_hubDma (p f : Nat) (x : HostFunc) : (s.setFn p f x).hubDma = s.hubDma := rfl
@[simp] theorem State.setFn_netIf (p f : Nat) (x : HostFunc) : (s.setFn p f x).netIf = s.netIf := rfl
@[simp] theorem State.setFn_routers (p f : Nat) (x : HostFunc) : (s.setFn p f x).routers = s.routers := rfl
@[simp] theorem State.setFn_posts (p f : Nat) (x : HostFunc) : (s.setFn p f x).posts = s.posts := rfl
@[simp] theorem State.setFn_sites (p f : Nat) (x : HostFunc) : (s.setFn p f x).sites = s.sites := rfl
@[simp] theorem State.setFn_bridges (p f : Nat) (x : HostFunc) : (s.setFn p f x).bridges = s.bridges := rfl
@[simp] theorem State.setFn_fuse (p f : Nat) (x : HostFunc) : (s.setFn p f x).fuse = s.fuse := rfl
@[simp] theorem State.setFn_pwr (p f : Nat) (x : HostFunc) : (s.setFn p f x).pwr = s.pwr := rfl
@[simp] theorem State.setFn_flash (p f : Nat) (x : HostFunc) : (s.setFn p f x).flash = s.flash := rfl
@[simp] theorem State.setFn_board (p f : Nat) (x : HostFunc) : (s.setFn p f x).board = s.board := rfl
@[simp] theorem State.setFn_mail (p f : Nat) (x : HostFunc) : (s.setFn p f x).mail = s.mail := rfl
@[simp] theorem State.setFn_bcast (p f : Nat) (x : HostFunc) : (s.setFn p f x).bcast = s.bcast := rfl
@[simp] theorem State.setFn_ctxs (p f : Nat) (x : HostFunc) : (s.setFn p f x).ctxs = s.ctxs := rfl
@[simp] theorem State.setFn_pstate (p f : Nat) (x : HostFunc) : (s.setFn p f x).pstate = s.pstate := rfl
@[simp] theorem State.setFn_links (p f : Nat) (x : HostFunc) : (s.setFn p f x).links = s.links := rfl
@[simp] theorem State.setFn_winnow (p f : Nat) (x : HostFunc) : (s.setFn p f x).winnow = s.winnow := rfl
@[simp] theorem State.setFn_sieve (p f : Nat) (x : HostFunc) : (s.setFn p f x).sieve = s.sieve := rfl
@[simp] theorem State.setFn_xlate (p f : Nat) (x : HostFunc) : (s.setFn p f x).xlate = s.xlate := rfl
@[simp] theorem State.setFn_bag (p f : Nat) (x : HostFunc) : (s.setFn p f x).bag = s.bag := rfl
@[simp] theorem State.setFn_acc (p f : Nat) (x : HostFunc) : (s.setFn p f x).acc = s.acc := rfl
@[simp] theorem State.setFn_windows (p f : Nat) (x : HostFunc) : (s.setFn p f x).windows = s.windows := rfl
@[simp] theorem State.setFn_hostPorts (p f : Nat) (x : HostFunc) : (s.setFn p f x).hostPorts = s.hostPorts := rfl
@[simp] theorem State.setFn_mgmt (p f : Nat) (x : HostFunc) : (s.setFn p f x).mgmt = s.mgmt := rfl
@[simp] theorem State.setFn_letters (p f : Nat) (x : HostFunc) : (s.setFn p f x).letters = s.letters := rfl
@[simp] theorem State.setFn_works (p f : Nat) (x : HostFunc) : (s.setFn p f x).works = s.works := rfl
@[simp] theorem State.setFn_serve (p f : Nat) (x : HostFunc) : (s.setFn p f x).serve = s.serve := rfl
@[simp] theorem State.setFn_sec (p f : Nat) (x : HostFunc) : (s.setFn p f x).sec = s.sec := rfl
@[simp] theorem State.setFn_log (p f : Nat) (x : HostFunc) : (s.setFn p f x).log = s.log := rfl

/-! ## setServe: serve alone differs -/

@[simp] theorem State.setServe_pending (x : ServeState) : (s.setServe x).pending = s.pending := rfl
@[simp] theorem State.setServe_fresh (x : ServeState) : (s.setServe x).fresh = s.fresh := rfl
@[simp] theorem State.setServe_out (x : ServeState) : (s.setServe x).out = s.out := rfl
@[simp] theorem State.setServe_time (x : ServeState) : (s.setServe x).time = s.time := rfl
@[simp] theorem State.setServe_dev (x : ServeState) : (s.setServe x).dev = s.dev := rfl
@[simp] theorem State.setServe_cores (x : ServeState) : (s.setServe x).cores = s.cores := rfl
@[simp] theorem State.setServe_clusters (x : ServeState) : (s.setServe x).clusters = s.clusters := rfl
@[simp] theorem State.setServe_hbm (x : ServeState) : (s.setServe x).hbm = s.hbm := rfl
@[simp] theorem State.setServe_hubDma (x : ServeState) : (s.setServe x).hubDma = s.hubDma := rfl
@[simp] theorem State.setServe_netIf (x : ServeState) : (s.setServe x).netIf = s.netIf := rfl
@[simp] theorem State.setServe_routers (x : ServeState) : (s.setServe x).routers = s.routers := rfl
@[simp] theorem State.setServe_posts (x : ServeState) : (s.setServe x).posts = s.posts := rfl
@[simp] theorem State.setServe_sites (x : ServeState) : (s.setServe x).sites = s.sites := rfl
@[simp] theorem State.setServe_bridges (x : ServeState) : (s.setServe x).bridges = s.bridges := rfl
@[simp] theorem State.setServe_fuse (x : ServeState) : (s.setServe x).fuse = s.fuse := rfl
@[simp] theorem State.setServe_pwr (x : ServeState) : (s.setServe x).pwr = s.pwr := rfl
@[simp] theorem State.setServe_flash (x : ServeState) : (s.setServe x).flash = s.flash := rfl
@[simp] theorem State.setServe_board (x : ServeState) : (s.setServe x).board = s.board := rfl
@[simp] theorem State.setServe_mail (x : ServeState) : (s.setServe x).mail = s.mail := rfl
@[simp] theorem State.setServe_bcast (x : ServeState) : (s.setServe x).bcast = s.bcast := rfl
@[simp] theorem State.setServe_ctxs (x : ServeState) : (s.setServe x).ctxs = s.ctxs := rfl
@[simp] theorem State.setServe_pstate (x : ServeState) : (s.setServe x).pstate = s.pstate := rfl
@[simp] theorem State.setServe_links (x : ServeState) : (s.setServe x).links = s.links := rfl
@[simp] theorem State.setServe_winnow (x : ServeState) : (s.setServe x).winnow = s.winnow := rfl
@[simp] theorem State.setServe_sieve (x : ServeState) : (s.setServe x).sieve = s.sieve := rfl
@[simp] theorem State.setServe_xlate (x : ServeState) : (s.setServe x).xlate = s.xlate := rfl
@[simp] theorem State.setServe_bag (x : ServeState) : (s.setServe x).bag = s.bag := rfl
@[simp] theorem State.setServe_acc (x : ServeState) : (s.setServe x).acc = s.acc := rfl
@[simp] theorem State.setServe_windows (x : ServeState) : (s.setServe x).windows = s.windows := rfl
@[simp] theorem State.setServe_hostFn (x : ServeState) : (s.setServe x).hostFn = s.hostFn := rfl
@[simp] theorem State.setServe_hostPorts (x : ServeState) : (s.setServe x).hostPorts = s.hostPorts := rfl
@[simp] theorem State.setServe_mgmt (x : ServeState) : (s.setServe x).mgmt = s.mgmt := rfl
@[simp] theorem State.setServe_letters (x : ServeState) : (s.setServe x).letters = s.letters := rfl
@[simp] theorem State.setServe_works (x : ServeState) : (s.setServe x).works = s.works := rfl
@[simp] theorem State.setServe_sec (x : ServeState) : (s.setServe x).sec = s.sec := rfl
@[simp] theorem State.setServe_log (x : ServeState) : (s.setServe x).log = s.log := rfl

/-! ## setMctx: serve alone differs -/

@[simp] theorem State.setMctx_pending (c : Nat) (x : MeterCtx) : (s.setMctx c x).pending = s.pending := rfl
@[simp] theorem State.setMctx_fresh (c : Nat) (x : MeterCtx) : (s.setMctx c x).fresh = s.fresh := rfl
@[simp] theorem State.setMctx_out (c : Nat) (x : MeterCtx) : (s.setMctx c x).out = s.out := rfl
@[simp] theorem State.setMctx_time (c : Nat) (x : MeterCtx) : (s.setMctx c x).time = s.time := rfl
@[simp] theorem State.setMctx_dev (c : Nat) (x : MeterCtx) : (s.setMctx c x).dev = s.dev := rfl
@[simp] theorem State.setMctx_cores (c : Nat) (x : MeterCtx) : (s.setMctx c x).cores = s.cores := rfl
@[simp] theorem State.setMctx_clusters (c : Nat) (x : MeterCtx) : (s.setMctx c x).clusters = s.clusters := rfl
@[simp] theorem State.setMctx_hbm (c : Nat) (x : MeterCtx) : (s.setMctx c x).hbm = s.hbm := rfl
@[simp] theorem State.setMctx_hubDma (c : Nat) (x : MeterCtx) : (s.setMctx c x).hubDma = s.hubDma := rfl
@[simp] theorem State.setMctx_netIf (c : Nat) (x : MeterCtx) : (s.setMctx c x).netIf = s.netIf := rfl
@[simp] theorem State.setMctx_routers (c : Nat) (x : MeterCtx) : (s.setMctx c x).routers = s.routers := rfl
@[simp] theorem State.setMctx_posts (c : Nat) (x : MeterCtx) : (s.setMctx c x).posts = s.posts := rfl
@[simp] theorem State.setMctx_sites (c : Nat) (x : MeterCtx) : (s.setMctx c x).sites = s.sites := rfl
@[simp] theorem State.setMctx_bridges (c : Nat) (x : MeterCtx) : (s.setMctx c x).bridges = s.bridges := rfl
@[simp] theorem State.setMctx_fuse (c : Nat) (x : MeterCtx) : (s.setMctx c x).fuse = s.fuse := rfl
@[simp] theorem State.setMctx_pwr (c : Nat) (x : MeterCtx) : (s.setMctx c x).pwr = s.pwr := rfl
@[simp] theorem State.setMctx_flash (c : Nat) (x : MeterCtx) : (s.setMctx c x).flash = s.flash := rfl
@[simp] theorem State.setMctx_board (c : Nat) (x : MeterCtx) : (s.setMctx c x).board = s.board := rfl
@[simp] theorem State.setMctx_mail (c : Nat) (x : MeterCtx) : (s.setMctx c x).mail = s.mail := rfl
@[simp] theorem State.setMctx_bcast (c : Nat) (x : MeterCtx) : (s.setMctx c x).bcast = s.bcast := rfl
@[simp] theorem State.setMctx_ctxs (c : Nat) (x : MeterCtx) : (s.setMctx c x).ctxs = s.ctxs := rfl
@[simp] theorem State.setMctx_pstate (c : Nat) (x : MeterCtx) : (s.setMctx c x).pstate = s.pstate := rfl
@[simp] theorem State.setMctx_links (c : Nat) (x : MeterCtx) : (s.setMctx c x).links = s.links := rfl
@[simp] theorem State.setMctx_winnow (c : Nat) (x : MeterCtx) : (s.setMctx c x).winnow = s.winnow := rfl
@[simp] theorem State.setMctx_sieve (c : Nat) (x : MeterCtx) : (s.setMctx c x).sieve = s.sieve := rfl
@[simp] theorem State.setMctx_xlate (c : Nat) (x : MeterCtx) : (s.setMctx c x).xlate = s.xlate := rfl
@[simp] theorem State.setMctx_bag (c : Nat) (x : MeterCtx) : (s.setMctx c x).bag = s.bag := rfl
@[simp] theorem State.setMctx_acc (c : Nat) (x : MeterCtx) : (s.setMctx c x).acc = s.acc := rfl
@[simp] theorem State.setMctx_windows (c : Nat) (x : MeterCtx) : (s.setMctx c x).windows = s.windows := rfl
@[simp] theorem State.setMctx_hostFn (c : Nat) (x : MeterCtx) : (s.setMctx c x).hostFn = s.hostFn := rfl
@[simp] theorem State.setMctx_hostPorts (c : Nat) (x : MeterCtx) : (s.setMctx c x).hostPorts = s.hostPorts := rfl
@[simp] theorem State.setMctx_mgmt (c : Nat) (x : MeterCtx) : (s.setMctx c x).mgmt = s.mgmt := rfl
@[simp] theorem State.setMctx_letters (c : Nat) (x : MeterCtx) : (s.setMctx c x).letters = s.letters := rfl
@[simp] theorem State.setMctx_works (c : Nat) (x : MeterCtx) : (s.setMctx c x).works = s.works := rfl
@[simp] theorem State.setMctx_sec (c : Nat) (x : MeterCtx) : (s.setMctx c x).sec = s.sec := rfl
@[simp] theorem State.setMctx_log (c : Nat) (x : MeterCtx) : (s.setMctx c x).log = s.log := rfl

/-! ## setReq: serve alone differs -/

@[simp] theorem State.setReq_pending (id : Nat) (r : ReqState) : (s.setReq id r).pending = s.pending := rfl
@[simp] theorem State.setReq_fresh (id : Nat) (r : ReqState) : (s.setReq id r).fresh = s.fresh := rfl
@[simp] theorem State.setReq_out (id : Nat) (r : ReqState) : (s.setReq id r).out = s.out := rfl
@[simp] theorem State.setReq_time (id : Nat) (r : ReqState) : (s.setReq id r).time = s.time := rfl
@[simp] theorem State.setReq_dev (id : Nat) (r : ReqState) : (s.setReq id r).dev = s.dev := rfl
@[simp] theorem State.setReq_cores (id : Nat) (r : ReqState) : (s.setReq id r).cores = s.cores := rfl
@[simp] theorem State.setReq_clusters (id : Nat) (r : ReqState) : (s.setReq id r).clusters = s.clusters := rfl
@[simp] theorem State.setReq_hbm (id : Nat) (r : ReqState) : (s.setReq id r).hbm = s.hbm := rfl
@[simp] theorem State.setReq_hubDma (id : Nat) (r : ReqState) : (s.setReq id r).hubDma = s.hubDma := rfl
@[simp] theorem State.setReq_netIf (id : Nat) (r : ReqState) : (s.setReq id r).netIf = s.netIf := rfl
@[simp] theorem State.setReq_routers (id : Nat) (r : ReqState) : (s.setReq id r).routers = s.routers := rfl
@[simp] theorem State.setReq_posts (id : Nat) (r : ReqState) : (s.setReq id r).posts = s.posts := rfl
@[simp] theorem State.setReq_sites (id : Nat) (r : ReqState) : (s.setReq id r).sites = s.sites := rfl
@[simp] theorem State.setReq_bridges (id : Nat) (r : ReqState) : (s.setReq id r).bridges = s.bridges := rfl
@[simp] theorem State.setReq_fuse (id : Nat) (r : ReqState) : (s.setReq id r).fuse = s.fuse := rfl
@[simp] theorem State.setReq_pwr (id : Nat) (r : ReqState) : (s.setReq id r).pwr = s.pwr := rfl
@[simp] theorem State.setReq_flash (id : Nat) (r : ReqState) : (s.setReq id r).flash = s.flash := rfl
@[simp] theorem State.setReq_board (id : Nat) (r : ReqState) : (s.setReq id r).board = s.board := rfl
@[simp] theorem State.setReq_mail (id : Nat) (r : ReqState) : (s.setReq id r).mail = s.mail := rfl
@[simp] theorem State.setReq_bcast (id : Nat) (r : ReqState) : (s.setReq id r).bcast = s.bcast := rfl
@[simp] theorem State.setReq_ctxs (id : Nat) (r : ReqState) : (s.setReq id r).ctxs = s.ctxs := rfl
@[simp] theorem State.setReq_pstate (id : Nat) (r : ReqState) : (s.setReq id r).pstate = s.pstate := rfl
@[simp] theorem State.setReq_links (id : Nat) (r : ReqState) : (s.setReq id r).links = s.links := rfl
@[simp] theorem State.setReq_winnow (id : Nat) (r : ReqState) : (s.setReq id r).winnow = s.winnow := rfl
@[simp] theorem State.setReq_sieve (id : Nat) (r : ReqState) : (s.setReq id r).sieve = s.sieve := rfl
@[simp] theorem State.setReq_xlate (id : Nat) (r : ReqState) : (s.setReq id r).xlate = s.xlate := rfl
@[simp] theorem State.setReq_bag (id : Nat) (r : ReqState) : (s.setReq id r).bag = s.bag := rfl
@[simp] theorem State.setReq_acc (id : Nat) (r : ReqState) : (s.setReq id r).acc = s.acc := rfl
@[simp] theorem State.setReq_windows (id : Nat) (r : ReqState) : (s.setReq id r).windows = s.windows := rfl
@[simp] theorem State.setReq_hostFn (id : Nat) (r : ReqState) : (s.setReq id r).hostFn = s.hostFn := rfl
@[simp] theorem State.setReq_hostPorts (id : Nat) (r : ReqState) : (s.setReq id r).hostPorts = s.hostPorts := rfl
@[simp] theorem State.setReq_mgmt (id : Nat) (r : ReqState) : (s.setReq id r).mgmt = s.mgmt := rfl
@[simp] theorem State.setReq_letters (id : Nat) (r : ReqState) : (s.setReq id r).letters = s.letters := rfl
@[simp] theorem State.setReq_works (id : Nat) (r : ReqState) : (s.setReq id r).works = s.works := rfl
@[simp] theorem State.setReq_sec (id : Nat) (r : ReqState) : (s.setReq id r).sec = s.sec := rfl
@[simp] theorem State.setReq_log (id : Nat) (r : ReqState) : (s.setReq id r).log = s.log := rfl

/-! ## setSess: serve alone differs -/

@[simp] theorem State.setSess_pending (i : Nat) (x : SessState) : (s.setSess i x).pending = s.pending := rfl
@[simp] theorem State.setSess_fresh (i : Nat) (x : SessState) : (s.setSess i x).fresh = s.fresh := rfl
@[simp] theorem State.setSess_out (i : Nat) (x : SessState) : (s.setSess i x).out = s.out := rfl
@[simp] theorem State.setSess_time (i : Nat) (x : SessState) : (s.setSess i x).time = s.time := rfl
@[simp] theorem State.setSess_dev (i : Nat) (x : SessState) : (s.setSess i x).dev = s.dev := rfl
@[simp] theorem State.setSess_cores (i : Nat) (x : SessState) : (s.setSess i x).cores = s.cores := rfl
@[simp] theorem State.setSess_clusters (i : Nat) (x : SessState) : (s.setSess i x).clusters = s.clusters := rfl
@[simp] theorem State.setSess_hbm (i : Nat) (x : SessState) : (s.setSess i x).hbm = s.hbm := rfl
@[simp] theorem State.setSess_hubDma (i : Nat) (x : SessState) : (s.setSess i x).hubDma = s.hubDma := rfl
@[simp] theorem State.setSess_netIf (i : Nat) (x : SessState) : (s.setSess i x).netIf = s.netIf := rfl
@[simp] theorem State.setSess_routers (i : Nat) (x : SessState) : (s.setSess i x).routers = s.routers := rfl
@[simp] theorem State.setSess_posts (i : Nat) (x : SessState) : (s.setSess i x).posts = s.posts := rfl
@[simp] theorem State.setSess_sites (i : Nat) (x : SessState) : (s.setSess i x).sites = s.sites := rfl
@[simp] theorem State.setSess_bridges (i : Nat) (x : SessState) : (s.setSess i x).bridges = s.bridges := rfl
@[simp] theorem State.setSess_fuse (i : Nat) (x : SessState) : (s.setSess i x).fuse = s.fuse := rfl
@[simp] theorem State.setSess_pwr (i : Nat) (x : SessState) : (s.setSess i x).pwr = s.pwr := rfl
@[simp] theorem State.setSess_flash (i : Nat) (x : SessState) : (s.setSess i x).flash = s.flash := rfl
@[simp] theorem State.setSess_board (i : Nat) (x : SessState) : (s.setSess i x).board = s.board := rfl
@[simp] theorem State.setSess_mail (i : Nat) (x : SessState) : (s.setSess i x).mail = s.mail := rfl
@[simp] theorem State.setSess_bcast (i : Nat) (x : SessState) : (s.setSess i x).bcast = s.bcast := rfl
@[simp] theorem State.setSess_ctxs (i : Nat) (x : SessState) : (s.setSess i x).ctxs = s.ctxs := rfl
@[simp] theorem State.setSess_pstate (i : Nat) (x : SessState) : (s.setSess i x).pstate = s.pstate := rfl
@[simp] theorem State.setSess_links (i : Nat) (x : SessState) : (s.setSess i x).links = s.links := rfl
@[simp] theorem State.setSess_winnow (i : Nat) (x : SessState) : (s.setSess i x).winnow = s.winnow := rfl
@[simp] theorem State.setSess_sieve (i : Nat) (x : SessState) : (s.setSess i x).sieve = s.sieve := rfl
@[simp] theorem State.setSess_xlate (i : Nat) (x : SessState) : (s.setSess i x).xlate = s.xlate := rfl
@[simp] theorem State.setSess_bag (i : Nat) (x : SessState) : (s.setSess i x).bag = s.bag := rfl
@[simp] theorem State.setSess_acc (i : Nat) (x : SessState) : (s.setSess i x).acc = s.acc := rfl
@[simp] theorem State.setSess_windows (i : Nat) (x : SessState) : (s.setSess i x).windows = s.windows := rfl
@[simp] theorem State.setSess_hostFn (i : Nat) (x : SessState) : (s.setSess i x).hostFn = s.hostFn := rfl
@[simp] theorem State.setSess_hostPorts (i : Nat) (x : SessState) : (s.setSess i x).hostPorts = s.hostPorts := rfl
@[simp] theorem State.setSess_mgmt (i : Nat) (x : SessState) : (s.setSess i x).mgmt = s.mgmt := rfl
@[simp] theorem State.setSess_letters (i : Nat) (x : SessState) : (s.setSess i x).letters = s.letters := rfl
@[simp] theorem State.setSess_works (i : Nat) (x : SessState) : (s.setSess i x).works = s.works := rfl
@[simp] theorem State.setSess_sec (i : Nat) (x : SessState) : (s.setSess i x).sec = s.sec := rfl
@[simp] theorem State.setSess_log (i : Nat) (x : SessState) : (s.setSess i x).log = s.log := rfl

/-! ## setSched: serve alone differs -/

@[simp] theorem State.setSched_pending (p : Nat) (x : SchedState) : (s.setSched p x).pending = s.pending := rfl
@[simp] theorem State.setSched_fresh (p : Nat) (x : SchedState) : (s.setSched p x).fresh = s.fresh := rfl
@[simp] theorem State.setSched_out (p : Nat) (x : SchedState) : (s.setSched p x).out = s.out := rfl
@[simp] theorem State.setSched_time (p : Nat) (x : SchedState) : (s.setSched p x).time = s.time := rfl
@[simp] theorem State.setSched_dev (p : Nat) (x : SchedState) : (s.setSched p x).dev = s.dev := rfl
@[simp] theorem State.setSched_cores (p : Nat) (x : SchedState) : (s.setSched p x).cores = s.cores := rfl
@[simp] theorem State.setSched_clusters (p : Nat) (x : SchedState) : (s.setSched p x).clusters = s.clusters := rfl
@[simp] theorem State.setSched_hbm (p : Nat) (x : SchedState) : (s.setSched p x).hbm = s.hbm := rfl
@[simp] theorem State.setSched_hubDma (p : Nat) (x : SchedState) : (s.setSched p x).hubDma = s.hubDma := rfl
@[simp] theorem State.setSched_netIf (p : Nat) (x : SchedState) : (s.setSched p x).netIf = s.netIf := rfl
@[simp] theorem State.setSched_routers (p : Nat) (x : SchedState) : (s.setSched p x).routers = s.routers := rfl
@[simp] theorem State.setSched_posts (p : Nat) (x : SchedState) : (s.setSched p x).posts = s.posts := rfl
@[simp] theorem State.setSched_sites (p : Nat) (x : SchedState) : (s.setSched p x).sites = s.sites := rfl
@[simp] theorem State.setSched_bridges (p : Nat) (x : SchedState) : (s.setSched p x).bridges = s.bridges := rfl
@[simp] theorem State.setSched_fuse (p : Nat) (x : SchedState) : (s.setSched p x).fuse = s.fuse := rfl
@[simp] theorem State.setSched_pwr (p : Nat) (x : SchedState) : (s.setSched p x).pwr = s.pwr := rfl
@[simp] theorem State.setSched_flash (p : Nat) (x : SchedState) : (s.setSched p x).flash = s.flash := rfl
@[simp] theorem State.setSched_board (p : Nat) (x : SchedState) : (s.setSched p x).board = s.board := rfl
@[simp] theorem State.setSched_mail (p : Nat) (x : SchedState) : (s.setSched p x).mail = s.mail := rfl
@[simp] theorem State.setSched_bcast (p : Nat) (x : SchedState) : (s.setSched p x).bcast = s.bcast := rfl
@[simp] theorem State.setSched_ctxs (p : Nat) (x : SchedState) : (s.setSched p x).ctxs = s.ctxs := rfl
@[simp] theorem State.setSched_pstate (p : Nat) (x : SchedState) : (s.setSched p x).pstate = s.pstate := rfl
@[simp] theorem State.setSched_links (p : Nat) (x : SchedState) : (s.setSched p x).links = s.links := rfl
@[simp] theorem State.setSched_winnow (p : Nat) (x : SchedState) : (s.setSched p x).winnow = s.winnow := rfl
@[simp] theorem State.setSched_sieve (p : Nat) (x : SchedState) : (s.setSched p x).sieve = s.sieve := rfl
@[simp] theorem State.setSched_xlate (p : Nat) (x : SchedState) : (s.setSched p x).xlate = s.xlate := rfl
@[simp] theorem State.setSched_bag (p : Nat) (x : SchedState) : (s.setSched p x).bag = s.bag := rfl
@[simp] theorem State.setSched_acc (p : Nat) (x : SchedState) : (s.setSched p x).acc = s.acc := rfl
@[simp] theorem State.setSched_windows (p : Nat) (x : SchedState) : (s.setSched p x).windows = s.windows := rfl
@[simp] theorem State.setSched_hostFn (p : Nat) (x : SchedState) : (s.setSched p x).hostFn = s.hostFn := rfl
@[simp] theorem State.setSched_hostPorts (p : Nat) (x : SchedState) : (s.setSched p x).hostPorts = s.hostPorts := rfl
@[simp] theorem State.setSched_mgmt (p : Nat) (x : SchedState) : (s.setSched p x).mgmt = s.mgmt := rfl
@[simp] theorem State.setSched_letters (p : Nat) (x : SchedState) : (s.setSched p x).letters = s.letters := rfl
@[simp] theorem State.setSched_works (p : Nat) (x : SchedState) : (s.setSched p x).works = s.works := rfl
@[simp] theorem State.setSched_sec (p : Nat) (x : SchedState) : (s.setSched p x).sec = s.sec := rfl
@[simp] theorem State.setSched_log (p : Nat) (x : SchedState) : (s.setSched p x).log = s.log := rfl

/-! ## setMode: dev alone differs -/

@[simp] theorem State.setMode_pending (m : DevMode) : (s.setMode m).pending = s.pending := rfl
@[simp] theorem State.setMode_fresh (m : DevMode) : (s.setMode m).fresh = s.fresh := rfl
@[simp] theorem State.setMode_out (m : DevMode) : (s.setMode m).out = s.out := rfl
@[simp] theorem State.setMode_time (m : DevMode) : (s.setMode m).time = s.time := rfl
@[simp] theorem State.setMode_cores (m : DevMode) : (s.setMode m).cores = s.cores := rfl
@[simp] theorem State.setMode_clusters (m : DevMode) : (s.setMode m).clusters = s.clusters := rfl
@[simp] theorem State.setMode_hbm (m : DevMode) : (s.setMode m).hbm = s.hbm := rfl
@[simp] theorem State.setMode_hubDma (m : DevMode) : (s.setMode m).hubDma = s.hubDma := rfl
@[simp] theorem State.setMode_netIf (m : DevMode) : (s.setMode m).netIf = s.netIf := rfl
@[simp] theorem State.setMode_routers (m : DevMode) : (s.setMode m).routers = s.routers := rfl
@[simp] theorem State.setMode_posts (m : DevMode) : (s.setMode m).posts = s.posts := rfl
@[simp] theorem State.setMode_sites (m : DevMode) : (s.setMode m).sites = s.sites := rfl
@[simp] theorem State.setMode_bridges (m : DevMode) : (s.setMode m).bridges = s.bridges := rfl
@[simp] theorem State.setMode_fuse (m : DevMode) : (s.setMode m).fuse = s.fuse := rfl
@[simp] theorem State.setMode_pwr (m : DevMode) : (s.setMode m).pwr = s.pwr := rfl
@[simp] theorem State.setMode_flash (m : DevMode) : (s.setMode m).flash = s.flash := rfl
@[simp] theorem State.setMode_board (m : DevMode) : (s.setMode m).board = s.board := rfl
@[simp] theorem State.setMode_mail (m : DevMode) : (s.setMode m).mail = s.mail := rfl
@[simp] theorem State.setMode_bcast (m : DevMode) : (s.setMode m).bcast = s.bcast := rfl
@[simp] theorem State.setMode_ctxs (m : DevMode) : (s.setMode m).ctxs = s.ctxs := rfl
@[simp] theorem State.setMode_pstate (m : DevMode) : (s.setMode m).pstate = s.pstate := rfl
@[simp] theorem State.setMode_links (m : DevMode) : (s.setMode m).links = s.links := rfl
@[simp] theorem State.setMode_winnow (m : DevMode) : (s.setMode m).winnow = s.winnow := rfl
@[simp] theorem State.setMode_sieve (m : DevMode) : (s.setMode m).sieve = s.sieve := rfl
@[simp] theorem State.setMode_xlate (m : DevMode) : (s.setMode m).xlate = s.xlate := rfl
@[simp] theorem State.setMode_bag (m : DevMode) : (s.setMode m).bag = s.bag := rfl
@[simp] theorem State.setMode_acc (m : DevMode) : (s.setMode m).acc = s.acc := rfl
@[simp] theorem State.setMode_windows (m : DevMode) : (s.setMode m).windows = s.windows := rfl
@[simp] theorem State.setMode_hostFn (m : DevMode) : (s.setMode m).hostFn = s.hostFn := rfl
@[simp] theorem State.setMode_hostPorts (m : DevMode) : (s.setMode m).hostPorts = s.hostPorts := rfl
@[simp] theorem State.setMode_mgmt (m : DevMode) : (s.setMode m).mgmt = s.mgmt := rfl
@[simp] theorem State.setMode_letters (m : DevMode) : (s.setMode m).letters = s.letters := rfl
@[simp] theorem State.setMode_works (m : DevMode) : (s.setMode m).works = s.works := rfl
@[simp] theorem State.setMode_serve (m : DevMode) : (s.setMode m).serve = s.serve := rfl
@[simp] theorem State.setMode_sec (m : DevMode) : (s.setMode m).sec = s.sec := rfl
@[simp] theorem State.setMode_log (m : DevMode) : (s.setMode m).log = s.log := rfl

/-! ## bumpGen: dev alone differs -/

@[simp] theorem State.bumpGen_pending : (s.bumpGen).pending = s.pending := rfl
@[simp] theorem State.bumpGen_fresh : (s.bumpGen).fresh = s.fresh := rfl
@[simp] theorem State.bumpGen_out : (s.bumpGen).out = s.out := rfl
@[simp] theorem State.bumpGen_time : (s.bumpGen).time = s.time := rfl
@[simp] theorem State.bumpGen_cores : (s.bumpGen).cores = s.cores := rfl
@[simp] theorem State.bumpGen_clusters : (s.bumpGen).clusters = s.clusters := rfl
@[simp] theorem State.bumpGen_hbm : (s.bumpGen).hbm = s.hbm := rfl
@[simp] theorem State.bumpGen_hubDma : (s.bumpGen).hubDma = s.hubDma := rfl
@[simp] theorem State.bumpGen_netIf : (s.bumpGen).netIf = s.netIf := rfl
@[simp] theorem State.bumpGen_routers : (s.bumpGen).routers = s.routers := rfl
@[simp] theorem State.bumpGen_posts : (s.bumpGen).posts = s.posts := rfl
@[simp] theorem State.bumpGen_sites : (s.bumpGen).sites = s.sites := rfl
@[simp] theorem State.bumpGen_bridges : (s.bumpGen).bridges = s.bridges := rfl
@[simp] theorem State.bumpGen_fuse : (s.bumpGen).fuse = s.fuse := rfl
@[simp] theorem State.bumpGen_pwr : (s.bumpGen).pwr = s.pwr := rfl
@[simp] theorem State.bumpGen_flash : (s.bumpGen).flash = s.flash := rfl
@[simp] theorem State.bumpGen_board : (s.bumpGen).board = s.board := rfl
@[simp] theorem State.bumpGen_mail : (s.bumpGen).mail = s.mail := rfl
@[simp] theorem State.bumpGen_bcast : (s.bumpGen).bcast = s.bcast := rfl
@[simp] theorem State.bumpGen_ctxs : (s.bumpGen).ctxs = s.ctxs := rfl
@[simp] theorem State.bumpGen_pstate : (s.bumpGen).pstate = s.pstate := rfl
@[simp] theorem State.bumpGen_links : (s.bumpGen).links = s.links := rfl
@[simp] theorem State.bumpGen_winnow : (s.bumpGen).winnow = s.winnow := rfl
@[simp] theorem State.bumpGen_sieve : (s.bumpGen).sieve = s.sieve := rfl
@[simp] theorem State.bumpGen_xlate : (s.bumpGen).xlate = s.xlate := rfl
@[simp] theorem State.bumpGen_bag : (s.bumpGen).bag = s.bag := rfl
@[simp] theorem State.bumpGen_acc : (s.bumpGen).acc = s.acc := rfl
@[simp] theorem State.bumpGen_windows : (s.bumpGen).windows = s.windows := rfl
@[simp] theorem State.bumpGen_hostFn : (s.bumpGen).hostFn = s.hostFn := rfl
@[simp] theorem State.bumpGen_hostPorts : (s.bumpGen).hostPorts = s.hostPorts := rfl
@[simp] theorem State.bumpGen_mgmt : (s.bumpGen).mgmt = s.mgmt := rfl
@[simp] theorem State.bumpGen_letters : (s.bumpGen).letters = s.letters := rfl
@[simp] theorem State.bumpGen_works : (s.bumpGen).works = s.works := rfl
@[simp] theorem State.bumpGen_serve : (s.bumpGen).serve = s.serve := rfl
@[simp] theorem State.bumpGen_sec : (s.bumpGen).sec = s.sec := rfl
@[simp] theorem State.bumpGen_log : (s.bumpGen).log = s.log := rfl

/-! ## trigSettings: dev alone differs -/

@[simp] theorem State.trigSettings_pending (typ : Nat) : (s.trigSettings typ).pending = s.pending := rfl
@[simp] theorem State.trigSettings_fresh (typ : Nat) : (s.trigSettings typ).fresh = s.fresh := rfl
@[simp] theorem State.trigSettings_out (typ : Nat) : (s.trigSettings typ).out = s.out := rfl
@[simp] theorem State.trigSettings_time (typ : Nat) : (s.trigSettings typ).time = s.time := rfl
@[simp] theorem State.trigSettings_cores (typ : Nat) : (s.trigSettings typ).cores = s.cores := rfl
@[simp] theorem State.trigSettings_clusters (typ : Nat) : (s.trigSettings typ).clusters = s.clusters := rfl
@[simp] theorem State.trigSettings_hbm (typ : Nat) : (s.trigSettings typ).hbm = s.hbm := rfl
@[simp] theorem State.trigSettings_hubDma (typ : Nat) : (s.trigSettings typ).hubDma = s.hubDma := rfl
@[simp] theorem State.trigSettings_netIf (typ : Nat) : (s.trigSettings typ).netIf = s.netIf := rfl
@[simp] theorem State.trigSettings_routers (typ : Nat) : (s.trigSettings typ).routers = s.routers := rfl
@[simp] theorem State.trigSettings_posts (typ : Nat) : (s.trigSettings typ).posts = s.posts := rfl
@[simp] theorem State.trigSettings_sites (typ : Nat) : (s.trigSettings typ).sites = s.sites := rfl
@[simp] theorem State.trigSettings_bridges (typ : Nat) : (s.trigSettings typ).bridges = s.bridges := rfl
@[simp] theorem State.trigSettings_fuse (typ : Nat) : (s.trigSettings typ).fuse = s.fuse := rfl
@[simp] theorem State.trigSettings_pwr (typ : Nat) : (s.trigSettings typ).pwr = s.pwr := rfl
@[simp] theorem State.trigSettings_flash (typ : Nat) : (s.trigSettings typ).flash = s.flash := rfl
@[simp] theorem State.trigSettings_board (typ : Nat) : (s.trigSettings typ).board = s.board := rfl
@[simp] theorem State.trigSettings_mail (typ : Nat) : (s.trigSettings typ).mail = s.mail := rfl
@[simp] theorem State.trigSettings_bcast (typ : Nat) : (s.trigSettings typ).bcast = s.bcast := rfl
@[simp] theorem State.trigSettings_ctxs (typ : Nat) : (s.trigSettings typ).ctxs = s.ctxs := rfl
@[simp] theorem State.trigSettings_pstate (typ : Nat) : (s.trigSettings typ).pstate = s.pstate := rfl
@[simp] theorem State.trigSettings_links (typ : Nat) : (s.trigSettings typ).links = s.links := rfl
@[simp] theorem State.trigSettings_winnow (typ : Nat) : (s.trigSettings typ).winnow = s.winnow := rfl
@[simp] theorem State.trigSettings_sieve (typ : Nat) : (s.trigSettings typ).sieve = s.sieve := rfl
@[simp] theorem State.trigSettings_xlate (typ : Nat) : (s.trigSettings typ).xlate = s.xlate := rfl
@[simp] theorem State.trigSettings_bag (typ : Nat) : (s.trigSettings typ).bag = s.bag := rfl
@[simp] theorem State.trigSettings_acc (typ : Nat) : (s.trigSettings typ).acc = s.acc := rfl
@[simp] theorem State.trigSettings_windows (typ : Nat) : (s.trigSettings typ).windows = s.windows := rfl
@[simp] theorem State.trigSettings_hostFn (typ : Nat) : (s.trigSettings typ).hostFn = s.hostFn := rfl
@[simp] theorem State.trigSettings_hostPorts (typ : Nat) : (s.trigSettings typ).hostPorts = s.hostPorts := rfl
@[simp] theorem State.trigSettings_mgmt (typ : Nat) : (s.trigSettings typ).mgmt = s.mgmt := rfl
@[simp] theorem State.trigSettings_letters (typ : Nat) : (s.trigSettings typ).letters = s.letters := rfl
@[simp] theorem State.trigSettings_works (typ : Nat) : (s.trigSettings typ).works = s.works := rfl
@[simp] theorem State.trigSettings_serve (typ : Nat) : (s.trigSettings typ).serve = s.serve := rfl
@[simp] theorem State.trigSettings_sec (typ : Nat) : (s.trigSettings typ).sec = s.sec := rfl
@[simp] theorem State.trigSettings_log (typ : Nat) : (s.trigSettings typ).log = s.log := rfl

/-! ## emit: out alone differs -/

@[simp] theorem State.emit_pending (m : OutMsg) : (s.emit m).pending = s.pending := rfl
@[simp] theorem State.emit_fresh (m : OutMsg) : (s.emit m).fresh = s.fresh := rfl
@[simp] theorem State.emit_time (m : OutMsg) : (s.emit m).time = s.time := rfl
@[simp] theorem State.emit_dev (m : OutMsg) : (s.emit m).dev = s.dev := rfl
@[simp] theorem State.emit_cores (m : OutMsg) : (s.emit m).cores = s.cores := rfl
@[simp] theorem State.emit_clusters (m : OutMsg) : (s.emit m).clusters = s.clusters := rfl
@[simp] theorem State.emit_hbm (m : OutMsg) : (s.emit m).hbm = s.hbm := rfl
@[simp] theorem State.emit_hubDma (m : OutMsg) : (s.emit m).hubDma = s.hubDma := rfl
@[simp] theorem State.emit_netIf (m : OutMsg) : (s.emit m).netIf = s.netIf := rfl
@[simp] theorem State.emit_routers (m : OutMsg) : (s.emit m).routers = s.routers := rfl
@[simp] theorem State.emit_posts (m : OutMsg) : (s.emit m).posts = s.posts := rfl
@[simp] theorem State.emit_sites (m : OutMsg) : (s.emit m).sites = s.sites := rfl
@[simp] theorem State.emit_bridges (m : OutMsg) : (s.emit m).bridges = s.bridges := rfl
@[simp] theorem State.emit_fuse (m : OutMsg) : (s.emit m).fuse = s.fuse := rfl
@[simp] theorem State.emit_pwr (m : OutMsg) : (s.emit m).pwr = s.pwr := rfl
@[simp] theorem State.emit_flash (m : OutMsg) : (s.emit m).flash = s.flash := rfl
@[simp] theorem State.emit_board (m : OutMsg) : (s.emit m).board = s.board := rfl
@[simp] theorem State.emit_mail (m : OutMsg) : (s.emit m).mail = s.mail := rfl
@[simp] theorem State.emit_bcast (m : OutMsg) : (s.emit m).bcast = s.bcast := rfl
@[simp] theorem State.emit_ctxs (m : OutMsg) : (s.emit m).ctxs = s.ctxs := rfl
@[simp] theorem State.emit_pstate (m : OutMsg) : (s.emit m).pstate = s.pstate := rfl
@[simp] theorem State.emit_links (m : OutMsg) : (s.emit m).links = s.links := rfl
@[simp] theorem State.emit_winnow (m : OutMsg) : (s.emit m).winnow = s.winnow := rfl
@[simp] theorem State.emit_sieve (m : OutMsg) : (s.emit m).sieve = s.sieve := rfl
@[simp] theorem State.emit_xlate (m : OutMsg) : (s.emit m).xlate = s.xlate := rfl
@[simp] theorem State.emit_bag (m : OutMsg) : (s.emit m).bag = s.bag := rfl
@[simp] theorem State.emit_acc (m : OutMsg) : (s.emit m).acc = s.acc := rfl
@[simp] theorem State.emit_windows (m : OutMsg) : (s.emit m).windows = s.windows := rfl
@[simp] theorem State.emit_hostFn (m : OutMsg) : (s.emit m).hostFn = s.hostFn := rfl
@[simp] theorem State.emit_hostPorts (m : OutMsg) : (s.emit m).hostPorts = s.hostPorts := rfl
@[simp] theorem State.emit_mgmt (m : OutMsg) : (s.emit m).mgmt = s.mgmt := rfl
@[simp] theorem State.emit_letters (m : OutMsg) : (s.emit m).letters = s.letters := rfl
@[simp] theorem State.emit_works (m : OutMsg) : (s.emit m).works = s.works := rfl
@[simp] theorem State.emit_serve (m : OutMsg) : (s.emit m).serve = s.serve := rfl
@[simp] theorem State.emit_sec (m : OutMsg) : (s.emit m).sec = s.sec := rfl
@[simp] theorem State.emit_log (m : OutMsg) : (s.emit m).log = s.log := rfl

/-! ## post: log alone differs -/

@[simp] theorem State.post_pending (m : LogMsg) : (s.post m).pending = s.pending := rfl
@[simp] theorem State.post_fresh (m : LogMsg) : (s.post m).fresh = s.fresh := rfl
@[simp] theorem State.post_out (m : LogMsg) : (s.post m).out = s.out := rfl
@[simp] theorem State.post_time (m : LogMsg) : (s.post m).time = s.time := rfl
@[simp] theorem State.post_dev (m : LogMsg) : (s.post m).dev = s.dev := rfl
@[simp] theorem State.post_cores (m : LogMsg) : (s.post m).cores = s.cores := rfl
@[simp] theorem State.post_clusters (m : LogMsg) : (s.post m).clusters = s.clusters := rfl
@[simp] theorem State.post_hbm (m : LogMsg) : (s.post m).hbm = s.hbm := rfl
@[simp] theorem State.post_hubDma (m : LogMsg) : (s.post m).hubDma = s.hubDma := rfl
@[simp] theorem State.post_netIf (m : LogMsg) : (s.post m).netIf = s.netIf := rfl
@[simp] theorem State.post_routers (m : LogMsg) : (s.post m).routers = s.routers := rfl
@[simp] theorem State.post_posts (m : LogMsg) : (s.post m).posts = s.posts := rfl
@[simp] theorem State.post_sites (m : LogMsg) : (s.post m).sites = s.sites := rfl
@[simp] theorem State.post_bridges (m : LogMsg) : (s.post m).bridges = s.bridges := rfl
@[simp] theorem State.post_fuse (m : LogMsg) : (s.post m).fuse = s.fuse := rfl
@[simp] theorem State.post_pwr (m : LogMsg) : (s.post m).pwr = s.pwr := rfl
@[simp] theorem State.post_flash (m : LogMsg) : (s.post m).flash = s.flash := rfl
@[simp] theorem State.post_board (m : LogMsg) : (s.post m).board = s.board := rfl
@[simp] theorem State.post_mail (m : LogMsg) : (s.post m).mail = s.mail := rfl
@[simp] theorem State.post_bcast (m : LogMsg) : (s.post m).bcast = s.bcast := rfl
@[simp] theorem State.post_ctxs (m : LogMsg) : (s.post m).ctxs = s.ctxs := rfl
@[simp] theorem State.post_pstate (m : LogMsg) : (s.post m).pstate = s.pstate := rfl
@[simp] theorem State.post_links (m : LogMsg) : (s.post m).links = s.links := rfl
@[simp] theorem State.post_winnow (m : LogMsg) : (s.post m).winnow = s.winnow := rfl
@[simp] theorem State.post_sieve (m : LogMsg) : (s.post m).sieve = s.sieve := rfl
@[simp] theorem State.post_xlate (m : LogMsg) : (s.post m).xlate = s.xlate := rfl
@[simp] theorem State.post_bag (m : LogMsg) : (s.post m).bag = s.bag := rfl
@[simp] theorem State.post_acc (m : LogMsg) : (s.post m).acc = s.acc := rfl
@[simp] theorem State.post_windows (m : LogMsg) : (s.post m).windows = s.windows := rfl
@[simp] theorem State.post_hostFn (m : LogMsg) : (s.post m).hostFn = s.hostFn := rfl
@[simp] theorem State.post_hostPorts (m : LogMsg) : (s.post m).hostPorts = s.hostPorts := rfl
@[simp] theorem State.post_mgmt (m : LogMsg) : (s.post m).mgmt = s.mgmt := rfl
@[simp] theorem State.post_letters (m : LogMsg) : (s.post m).letters = s.letters := rfl
@[simp] theorem State.post_works (m : LogMsg) : (s.post m).works = s.works := rfl
@[simp] theorem State.post_serve (m : LogMsg) : (s.post m).serve = s.serve := rfl
@[simp] theorem State.post_sec (m : LogMsg) : (s.post m).sec = s.sec := rfl

/-! ## logAt: log alone differs -/

@[simp] theorem State.logAt_pending (code : Nat) (unit : W32) (addr : Nat) (detail : Bytes) : (s.logAt code unit addr detail).pending = s.pending := rfl
@[simp] theorem State.logAt_fresh (code : Nat) (unit : W32) (addr : Nat) (detail : Bytes) : (s.logAt code unit addr detail).fresh = s.fresh := rfl
@[simp] theorem State.logAt_out (code : Nat) (unit : W32) (addr : Nat) (detail : Bytes) : (s.logAt code unit addr detail).out = s.out := rfl
@[simp] theorem State.logAt_time (code : Nat) (unit : W32) (addr : Nat) (detail : Bytes) : (s.logAt code unit addr detail).time = s.time := rfl
@[simp] theorem State.logAt_dev (code : Nat) (unit : W32) (addr : Nat) (detail : Bytes) : (s.logAt code unit addr detail).dev = s.dev := rfl
@[simp] theorem State.logAt_cores (code : Nat) (unit : W32) (addr : Nat) (detail : Bytes) : (s.logAt code unit addr detail).cores = s.cores := rfl
@[simp] theorem State.logAt_clusters (code : Nat) (unit : W32) (addr : Nat) (detail : Bytes) : (s.logAt code unit addr detail).clusters = s.clusters := rfl
@[simp] theorem State.logAt_hbm (code : Nat) (unit : W32) (addr : Nat) (detail : Bytes) : (s.logAt code unit addr detail).hbm = s.hbm := rfl
@[simp] theorem State.logAt_hubDma (code : Nat) (unit : W32) (addr : Nat) (detail : Bytes) : (s.logAt code unit addr detail).hubDma = s.hubDma := rfl
@[simp] theorem State.logAt_netIf (code : Nat) (unit : W32) (addr : Nat) (detail : Bytes) : (s.logAt code unit addr detail).netIf = s.netIf := rfl
@[simp] theorem State.logAt_routers (code : Nat) (unit : W32) (addr : Nat) (detail : Bytes) : (s.logAt code unit addr detail).routers = s.routers := rfl
@[simp] theorem State.logAt_posts (code : Nat) (unit : W32) (addr : Nat) (detail : Bytes) : (s.logAt code unit addr detail).posts = s.posts := rfl
@[simp] theorem State.logAt_sites (code : Nat) (unit : W32) (addr : Nat) (detail : Bytes) : (s.logAt code unit addr detail).sites = s.sites := rfl
@[simp] theorem State.logAt_bridges (code : Nat) (unit : W32) (addr : Nat) (detail : Bytes) : (s.logAt code unit addr detail).bridges = s.bridges := rfl
@[simp] theorem State.logAt_fuse (code : Nat) (unit : W32) (addr : Nat) (detail : Bytes) : (s.logAt code unit addr detail).fuse = s.fuse := rfl
@[simp] theorem State.logAt_pwr (code : Nat) (unit : W32) (addr : Nat) (detail : Bytes) : (s.logAt code unit addr detail).pwr = s.pwr := rfl
@[simp] theorem State.logAt_flash (code : Nat) (unit : W32) (addr : Nat) (detail : Bytes) : (s.logAt code unit addr detail).flash = s.flash := rfl
@[simp] theorem State.logAt_board (code : Nat) (unit : W32) (addr : Nat) (detail : Bytes) : (s.logAt code unit addr detail).board = s.board := rfl
@[simp] theorem State.logAt_mail (code : Nat) (unit : W32) (addr : Nat) (detail : Bytes) : (s.logAt code unit addr detail).mail = s.mail := rfl
@[simp] theorem State.logAt_bcast (code : Nat) (unit : W32) (addr : Nat) (detail : Bytes) : (s.logAt code unit addr detail).bcast = s.bcast := rfl
@[simp] theorem State.logAt_ctxs (code : Nat) (unit : W32) (addr : Nat) (detail : Bytes) : (s.logAt code unit addr detail).ctxs = s.ctxs := rfl
@[simp] theorem State.logAt_pstate (code : Nat) (unit : W32) (addr : Nat) (detail : Bytes) : (s.logAt code unit addr detail).pstate = s.pstate := rfl
@[simp] theorem State.logAt_links (code : Nat) (unit : W32) (addr : Nat) (detail : Bytes) : (s.logAt code unit addr detail).links = s.links := rfl
@[simp] theorem State.logAt_winnow (code : Nat) (unit : W32) (addr : Nat) (detail : Bytes) : (s.logAt code unit addr detail).winnow = s.winnow := rfl
@[simp] theorem State.logAt_sieve (code : Nat) (unit : W32) (addr : Nat) (detail : Bytes) : (s.logAt code unit addr detail).sieve = s.sieve := rfl
@[simp] theorem State.logAt_xlate (code : Nat) (unit : W32) (addr : Nat) (detail : Bytes) : (s.logAt code unit addr detail).xlate = s.xlate := rfl
@[simp] theorem State.logAt_bag (code : Nat) (unit : W32) (addr : Nat) (detail : Bytes) : (s.logAt code unit addr detail).bag = s.bag := rfl
@[simp] theorem State.logAt_acc (code : Nat) (unit : W32) (addr : Nat) (detail : Bytes) : (s.logAt code unit addr detail).acc = s.acc := rfl
@[simp] theorem State.logAt_windows (code : Nat) (unit : W32) (addr : Nat) (detail : Bytes) : (s.logAt code unit addr detail).windows = s.windows := rfl
@[simp] theorem State.logAt_hostFn (code : Nat) (unit : W32) (addr : Nat) (detail : Bytes) : (s.logAt code unit addr detail).hostFn = s.hostFn := rfl
@[simp] theorem State.logAt_hostPorts (code : Nat) (unit : W32) (addr : Nat) (detail : Bytes) : (s.logAt code unit addr detail).hostPorts = s.hostPorts := rfl
@[simp] theorem State.logAt_mgmt (code : Nat) (unit : W32) (addr : Nat) (detail : Bytes) : (s.logAt code unit addr detail).mgmt = s.mgmt := rfl
@[simp] theorem State.logAt_letters (code : Nat) (unit : W32) (addr : Nat) (detail : Bytes) : (s.logAt code unit addr detail).letters = s.letters := rfl
@[simp] theorem State.logAt_works (code : Nat) (unit : W32) (addr : Nat) (detail : Bytes) : (s.logAt code unit addr detail).works = s.works := rfl
@[simp] theorem State.logAt_serve (code : Nat) (unit : W32) (addr : Nat) (detail : Bytes) : (s.logAt code unit addr detail).serve = s.serve := rfl
@[simp] theorem State.logAt_sec (code : Nat) (unit : W32) (addr : Nat) (detail : Bytes) : (s.logAt code unit addr detail).sec = s.sec := rfl

/-! ## unqueue: letters alone differs -/

@[simp] theorem State.unqueue_pending (src : LSrc) : (s.unqueue src).pending = s.pending := rfl
@[simp] theorem State.unqueue_fresh (src : LSrc) : (s.unqueue src).fresh = s.fresh := rfl
@[simp] theorem State.unqueue_out (src : LSrc) : (s.unqueue src).out = s.out := rfl
@[simp] theorem State.unqueue_time (src : LSrc) : (s.unqueue src).time = s.time := rfl
@[simp] theorem State.unqueue_dev (src : LSrc) : (s.unqueue src).dev = s.dev := rfl
@[simp] theorem State.unqueue_cores (src : LSrc) : (s.unqueue src).cores = s.cores := rfl
@[simp] theorem State.unqueue_clusters (src : LSrc) : (s.unqueue src).clusters = s.clusters := rfl
@[simp] theorem State.unqueue_hbm (src : LSrc) : (s.unqueue src).hbm = s.hbm := rfl
@[simp] theorem State.unqueue_hubDma (src : LSrc) : (s.unqueue src).hubDma = s.hubDma := rfl
@[simp] theorem State.unqueue_netIf (src : LSrc) : (s.unqueue src).netIf = s.netIf := rfl
@[simp] theorem State.unqueue_routers (src : LSrc) : (s.unqueue src).routers = s.routers := rfl
@[simp] theorem State.unqueue_posts (src : LSrc) : (s.unqueue src).posts = s.posts := rfl
@[simp] theorem State.unqueue_sites (src : LSrc) : (s.unqueue src).sites = s.sites := rfl
@[simp] theorem State.unqueue_bridges (src : LSrc) : (s.unqueue src).bridges = s.bridges := rfl
@[simp] theorem State.unqueue_fuse (src : LSrc) : (s.unqueue src).fuse = s.fuse := rfl
@[simp] theorem State.unqueue_pwr (src : LSrc) : (s.unqueue src).pwr = s.pwr := rfl
@[simp] theorem State.unqueue_flash (src : LSrc) : (s.unqueue src).flash = s.flash := rfl
@[simp] theorem State.unqueue_board (src : LSrc) : (s.unqueue src).board = s.board := rfl
@[simp] theorem State.unqueue_mail (src : LSrc) : (s.unqueue src).mail = s.mail := rfl
@[simp] theorem State.unqueue_bcast (src : LSrc) : (s.unqueue src).bcast = s.bcast := rfl
@[simp] theorem State.unqueue_ctxs (src : LSrc) : (s.unqueue src).ctxs = s.ctxs := rfl
@[simp] theorem State.unqueue_pstate (src : LSrc) : (s.unqueue src).pstate = s.pstate := rfl
@[simp] theorem State.unqueue_links (src : LSrc) : (s.unqueue src).links = s.links := rfl
@[simp] theorem State.unqueue_winnow (src : LSrc) : (s.unqueue src).winnow = s.winnow := rfl
@[simp] theorem State.unqueue_sieve (src : LSrc) : (s.unqueue src).sieve = s.sieve := rfl
@[simp] theorem State.unqueue_xlate (src : LSrc) : (s.unqueue src).xlate = s.xlate := rfl
@[simp] theorem State.unqueue_bag (src : LSrc) : (s.unqueue src).bag = s.bag := rfl
@[simp] theorem State.unqueue_acc (src : LSrc) : (s.unqueue src).acc = s.acc := rfl
@[simp] theorem State.unqueue_windows (src : LSrc) : (s.unqueue src).windows = s.windows := rfl
@[simp] theorem State.unqueue_hostFn (src : LSrc) : (s.unqueue src).hostFn = s.hostFn := rfl
@[simp] theorem State.unqueue_hostPorts (src : LSrc) : (s.unqueue src).hostPorts = s.hostPorts := rfl
@[simp] theorem State.unqueue_mgmt (src : LSrc) : (s.unqueue src).mgmt = s.mgmt := rfl
@[simp] theorem State.unqueue_works (src : LSrc) : (s.unqueue src).works = s.works := rfl
@[simp] theorem State.unqueue_serve (src : LSrc) : (s.unqueue src).serve = s.serve := rfl
@[simp] theorem State.unqueue_sec (src : LSrc) : (s.unqueue src).sec = s.sec := rfl
@[simp] theorem State.unqueue_log (src : LSrc) : (s.unqueue src).log = s.log := rfl

/-! ## The unit that is set -/

@[simp] theorem State.core_setCore (g : Nat) (c : CoreState) : (s.setCore g c).core g = c := by simp [State.core, State.setCore]
theorem State.core_setCore_ne {g h : Nat} (c : CoreState) (n : h ≠ g) : (s.setCore g c).core h = s.core h := by
  simp [State.core, State.setCore, tget_tset_ne _ _ n]
@[simp] theorem State.cluster_setCluster (g : Nat) (c : ClusterState) : (s.setCluster g c).cluster g = c := by simp [State.cluster, State.setCluster]
theorem State.cluster_setCluster_ne {g h : Nat} (c : ClusterState) (n : h ≠ g) : (s.setCluster g c).cluster h = s.cluster h := by
  simp [State.cluster, State.setCluster, tget_tset_ne _ _ n]
@[simp] theorem State.stack_setStack (g : Nat) (c : StackState) : (s.setStack g c).stack g = c := by simp [State.stack, State.setStack]
theorem State.stack_setStack_ne {g h : Nat} (c : StackState) (n : h ≠ g) : (s.setStack g c).stack h = s.stack h := by
  simp [State.stack, State.setStack, tget_tset_ne _ _ n]
@[simp] theorem State.hdma_setHdma (g : Nat) (c : DmaState) : (s.setHdma g c).hdma g = c := by simp [State.hdma, State.setHdma]
theorem State.hdma_setHdma_ne {g h : Nat} (c : DmaState) (n : h ≠ g) : (s.setHdma g c).hdma h = s.hdma h := by
  simp [State.hdma, State.setHdma, tget_tset_ne _ _ n]
@[simp] theorem State.nif_setNif (g : Nat) (c : NetIf) : (s.setNif g c).nif g = c := by simp [State.nif, State.setNif]
theorem State.nif_setNif_ne {g h : Nat} (c : NetIf) (n : h ≠ g) : (s.setNif g c).nif h = s.nif h := by
  simp [State.nif, State.setNif, tget_tset_ne _ _ n]
@[simp] theorem State.site_setSite (g : Nat) (c : SiteState) : (s.setSite g c).site g = c := by simp [State.site, State.setSite]
theorem State.site_setSite_ne {g h : Nat} (c : SiteState) (n : h ≠ g) : (s.setSite g c).site h = s.site h := by
  simp [State.site, State.setSite, tget_tset_ne _ _ n]
@[simp] theorem State.bridge_setBridge (g : Nat) (c : BridgeState) : (s.setBridge g c).bridge g = c := by simp [State.bridge, State.setBridge]
theorem State.bridge_setBridge_ne {g h : Nat} (c : BridgeState) (n : h ≠ g) : (s.setBridge g c).bridge h = s.bridge h := by
  simp [State.bridge, State.setBridge, tget_tset_ne _ _ n]
@[simp] theorem State.pd_setPd (g : Nat) (c : PowerDie) : (s.setPd g c).pd g = c := by simp [State.pd, State.setPd]
theorem State.pd_setPd_ne {g h : Nat} (c : PowerDie) (n : h ≠ g) : (s.setPd g c).pd h = s.pd h := by
  simp [State.pd, State.setPd, tget_tset_ne _ _ n]
@[simp] theorem State.part_setPart (g : Nat) (c : PartState) : (s.setPart g c).part g = c := by simp [State.part, State.setPart]
theorem State.part_setPart_ne {g h : Nat} (c : PartState) (n : h ≠ g) : (s.setPart g c).part h = s.part h := by
  simp [State.part, State.setPart, tget_tset_ne _ _ n]
@[simp] theorem State.port_setPort (g : Nat) (c : PortState) : (s.setPort g c).port g = c := by simp [State.port, State.setPort]
theorem State.port_setPort_ne {g h : Nat} (c : PortState) (n : h ≠ g) : (s.setPort g c).port h = s.port h := by
  simp [State.port, State.setPort, tget_tset_ne _ _ n]
@[simp] theorem State.win_setWin (g : Nat) (c : WinnowState) : (s.setWin g c).win g = c := by simp [State.win, State.setWin]
theorem State.win_setWin_ne {g h : Nat} (c : WinnowState) (n : h ≠ g) : (s.setWin g c).win h = s.win h := by
  simp [State.win, State.setWin, tget_tset_ne _ _ n]
@[simp] theorem State.sv_setSv (g : Nat) (c : SieveState) : (s.setSv g c).sv g = c := by simp [State.sv, State.setSv]
theorem State.sv_setSv_ne {g h : Nat} (c : SieveState) (n : h ≠ g) : (s.setSv g c).sv h = s.sv h := by
  simp [State.sv, State.setSv, tget_tset_ne _ _ n]
@[simp] theorem State.xl_setXl (g : Nat) (c : XlateState) : (s.setXl g c).xl g = c := by simp [State.xl, State.setXl]
theorem State.xl_setXl_ne {g h : Nat} (c : XlateState) (n : h ≠ g) : (s.setXl g c).xl h = s.xl h := by
  simp [State.xl, State.setXl, tget_tset_ne _ _ n]
@[simp] theorem State.mctx_setMctx (g : Nat) (c : MeterCtx) : (s.setMctx g c).mctx g = c := by simp [State.mctx, State.setMctx, State.setServe]
theorem State.mctx_setMctx_ne {g h : Nat} (c : MeterCtx) (n : h ≠ g) : (s.setMctx g c).mctx h = s.mctx h := by
  simp [State.mctx, State.setMctx, State.setServe, tget_tset_ne _ _ n]

@[simp] theorem State.fn_setFn (p f : Nat) (x : HostFunc) : (s.setFn p f x).fn p f = x := by simp [State.fn, State.setFn]
theorem State.fn_setFn_ne {p f q g : Nat} (x : HostFunc) (n : q * 32 + g ≠ p * 32 + f) : (s.setFn p f x).fn q g = s.fn q g := by
  simp [State.fn, State.setFn, tget_tset_ne _ _ n]
@[simp] theorem CoreState.arr_setArr (c : CoreState) (a : Nat) (x : ArrayState) : (c.setArr a x).arr a = x := by simp [CoreState.arr, CoreState.setArr]
theorem CoreState.arr_setArr_ne (c : CoreState) {a b : Nat} (x : ArrayState) (n : b ≠ a) : (c.setArr a x).arr b = c.arr b := by
  simp [CoreState.arr, CoreState.setArr, tget_tset_ne _ _ n]

end Sys2Proof.Machine
end

