-- ==== Sys2Proof/Laws/Mem.lean ====
section
/-! SUPPORT. What the operations over device memory can do, said once for each: they touch the stacks, reservations, the log, free
values and the partitions' reports, and they keep every byte memory in canonical form and the intake within its bound. -/
namespace Sys2Proof.Machine

/-! ## Answers -/

theorem atUnit_next_iff {what : String} {n c : Nat} {s t : State} : atUnit what n c s = .next t ↔ n < c ∧ t = s := by
  unfold atUnit; split
  · rename_i h; simp [h, eq_comm]
  · rename_i h; simp [h]

theorem atUnit_ne_refused {what : String} {n c : Nat} {s : State} {r : Refusal} : atUnit what n c s ≠ .refused r := by
  unfold atUnit; split <;> simp

/-! ## Folds -/

/-- A relation that holds of no change and of one change after another holds along a fold of changes it holds of. -/
theorem foldl_rel {α β : Type} (R : α → α → Prop) (hr : ∀ x, R x x) (ht : ∀ x y z, R x y → R y z → R x z) (f : α → β → α)
    (hf : ∀ x b, R x (f x b)) (l : List β) : ∀ x, R x (l.foldl f x) := by
  induction l with
  | nil => exact hr
  | cons b l ih => intro x; exact ht _ _ _ (hf x b) (ih _)

/-! ## The log's intake (R490, R491) -/

theorem LogState.enter_intake (l : LogState) (m : LogMsg) (h : l.intake.length ≤ 256) : (l.enter m).intake.length ≤ 256 := by
  unfold LogState.enter; split <;> simp <;> omega

theorem LogState.post_intake (l : LogState) (now : Nat) (m : LogMsg) (h : l.intake.length ≤ 256) : (l.post now m).intake.length ≤ 256 := by
  unfold LogState.post; dsimp only; split
  · exact LogState.enter_intake _ _ h
  · split
    · exact h
    · exact LogState.enter_intake _ _ h

/-! ## Bytes of a stack -/

/-- Whatever is done to a stack, its memory stays canonical. -/
def StackState.keeps (x y : StackState) : Prop := Memory.wf x.raw = true → Memory.wf y.raw = true

theorem StackState.keeps_refl (x : StackState) : x.keeps x := id
theorem StackState.keeps_trans (x y z : StackState) (h : x.keeps y) (g : y.keeps z) : x.keeps z := g ∘ h
theorem StackState.keeps_of_eq {x y : StackState} (h : y.raw = x.raw) : x.keeps y := by simp [StackState.keeps, h]

@[simp] theorem StackState.spend_raw (x : StackState) (p : Bool) (c n : Nat) : (x.spend p c n).raw = x.raw := by
  unfold StackState.spend; split <;> rfl

@[simp] theorem StackState.holdWrite_raw (x : StackState) (p : Bool) (c sn : Nat) (d : Bytes) (z : Bool) : (x.holdWrite p c sn d z).raw = x.raw := by
  simp [StackState.holdWrite]

@[simp] theorem StackState.putLine_raw (x : StackState) (l : Line) : (x.putLine l).raw = x.raw := rfl

@[simp] theorem StackState.evictLine_raw (x : StackState) (p : Bool) (c : Nat) (l : Line) : (x.evictLine p c l).raw = x.raw := by
  unfold StackState.evictLine
  exact foldl_rel (fun a b : StackState => b.raw = a.raw) (fun _ => rfl) (fun _ _ _ h g => g.trans h) _ (fun _ _ => by simp) _ _

@[simp] theorem StackState.putFront_raw (x : StackState) (p : Bool) (c : Nat) (l : Line) : (x.putFront p c l).raw = x.raw := by
  unfold StackState.putFront; dsimp only; split
  · rfl
  · split <;> simp

@[simp] theorem StackState.badRow_raw (x : StackState) (now sn : Nat) : (x.badRow now sn).raw = x.raw := by
  unfold StackState.badRow; dsimp only; split <;> rfl

@[simp] theorem StackState.burstRead_raw (x : StackState) (sn : Nat) : (x.burstRead sn).2.2.raw = x.raw := rfl

theorem StackState.setRawSec_keeps (x : StackState) (sn : Nat) (d c : Bytes) : x.keeps (x.setRawSec sn d c) := by
  intro h; unfold StackState.setRawSec; split
  · exact mwrite_wf _ _ _ h
  · exact mwrite_wf _ _ _ (mwrite_wf _ _ _ h)

theorem StackState.burstWrite_keeps (x : StackState) (sn : Nat) (d : Bytes) (p : Bool) : x.keeps (x.burstWrite sn d p) := by
  unfold StackState.burstWrite; dsimp only; split
  · exact fun h => StackState.setRawSec_keeps _ _ _ _ h
  · exact fun h => StackState.setRawSec_keeps _ _ _ _ h

theorem StackState.issueHeld_keeps (x : StackState) (p : HeldWrite → Bool) : x.keeps (x.issueHeld p) := by
  unfold StackState.issueHeld
  exact StackState.keeps_trans _ { x with held := x.held.filter (fun h => !p h) } _ (StackState.keeps_of_eq rfl)
    (foldl_rel StackState.keeps StackState.keeps_refl StackState.keeps_trans _ (fun _ _ => StackState.burstWrite_keeps _ _ _ _) _ _)

/-! ## The state under operations over memory -/

/-- Everything an operation over device memory can do to the state. -/
structure State.memRel (s t : State) : Prop where
  frame : t = { s with hbm := t.hbm, cores := t.cores, log := t.log, fresh := t.fresh, pstate := t.pstate }
  intake : s.intakeWf → t.intakeWf
  mem : s.memWf → t.memWf

theorem State.memRel_refl (s : State) : s.memRel s := ⟨rfl, id, id⟩

theorem State.memRel_trans (s t u : State) (h : s.memRel t) (g : t.memRel u) : s.memRel u :=
  ⟨by rw [g.frame, h.frame], g.intake ∘ h.intake, g.mem ∘ h.mem⟩

theorem State.post_memRel (s : State) (m : LogMsg) : s.memRel (s.post m) := ⟨rfl, LogState.post_intake _ _ _, id⟩

theorem State.logAt_memRel (s : State) (c : Nat) (u : W32) (a : Nat) (d : Bytes) : s.memRel (s.logAt c u a d) := State.post_memRel _ _

theorem State.freeBytes_memRel (s : State) (n : Nat) : s.memRel (s.freeBytes n).2 := ⟨rfl, id, id⟩

theorem State.setPart_memRel (s : State) (p : Nat) (x : PartState) : s.memRel (s.setPart p x) := ⟨rfl, id, id⟩

theorem State.setStack_memRel (s : State) (k : Nat) (x : StackState) (h : (s.stack k).keeps x) : s.memRel (s.setStack k x) := by
  refine ⟨rfl, id, fun w => ⟨w.1, fun j => ?_, w.2.2⟩⟩
  by_cases n : j = k
  · subst n; rw [State.stack_setStack]; exact h (w.2.1 j)
  · rw [State.stack_setStack_ne _ _ n]; exact w.2.1 j

theorem State.reportPart_memRel (s : State) (p c : Nat) : s.memRel (s.reportPart p c) := by
  unfold State.reportPart; dsimp only; split
  · exact State.setPart_memRel _ _ _
  · exact State.memRel_refl _

theorem State.consume_memRel (s : State) (p asid : Nat) (u : W32) (c e a : Nat) : s.memRel (s.consume p asid u c e a) := by
  unfold State.consume; dsimp only
  suffices H : ∀ t : State, s.memRel t → s.memRel (if 4 ≤ p then t
      else if asid = 0 ∨ asid = tget 0 t.dev.partAsid p then t.reportPart p 0x0201
      else match (s.ctxs.find? (fun c => c.2.asid == asid && asid != 0)).map (·.1) with
        | some c => t.setPart p { t.part p with later := sins c (t.part p).later }
        | none => t) from H _ (State.post_memRel _ _)
  intro t h
  split
  · exact h
  · split
    · exact State.memRel_trans _ _ _ h (State.reportPart_memRel _ _ _)
    · split
      · exact State.memRel_trans _ _ _ h (State.setPart_memRel _ _ _)
      · exact h

theorem tget_map_entries {α : Type} (d : α) (f : α → α) (t : Tbl α) (k : Nat) (P : α → Prop) (hd : P d) (hf : ∀ a, P a → P (f a))
    (h : P (tget d t k)) : P (tget d (t.map (fun e => (e.1, f e.2))) k) := by
  induction t with
  | nil => exact hd
  | cons e t ih =>
    simp only [List.map_cons, tget] at h ⊢
    split
    · rename_i n; rw [if_pos n] at h; exact hf _ h
    · rename_i n; rw [if_neg n] at h; exact ih h

theorem State.clearResv_memRel (s : State) (k sn : Nat) : s.memRel (s.clearResv k sn) := by
  refine ⟨rfl, id, fun w => ⟨fun g => ?_, w.2⟩⟩
  let f (c : CoreState) : CoreState := if c.resv == some (k, sn) then { c with resv := none } else c
  have e : (s.clearResv k sn).cores = s.cores.map (fun e => (e.1, f e.2)) := by
    unfold State.clearResv; dsimp only [f]; congr 1; funext e; split <;> rfl
  unfold State.core; rw [e]
  refine tget_map_entries _ f _ _ (fun c : CoreState => Memory.wf c.mem = true) rfl (fun a h => ?_) (w.1 g)
  dsimp only [f]; split <;> exact h

theorem State.judge_memRel (s : State) (k sn : Nat) : s.memRel (s.judge k sn) := by
  unfold State.judge; dsimp only; split
  · exact State.logAt_memRel _ _ _ _ _
  · exact State.setStack_memRel _ _ _ (StackState.keeps_of_eq rfl)

theorem State.logRead_memRel (s : State) (k sn : Nat) (kind : RdKind) (r : W32) : s.memRel (s.logRead k sn kind r) := by
  have first : s.memRel (match kind with
      | .data => ((s.logAt 0x0101 (uidStack k) (physOf s.dev.spreadS k (sn * 32)) (le 4 r.toNat)).setStack k ((s.stack k).badRow s.time sn)).judge k sn
      | .unwritten => s.logAt 0x0102 (uidStack k) (physOf s.dev.spreadS k (sn * 32)) (le 4 r.toNat)
      | .poisoned => s.logAt 0x0103 (uidStack k) (physOf s.dev.spreadS k (sn * 32)) (le 4 r.toNat)
      | _ => s) := by
    split
    · exact State.memRel_trans _ _ _ (State.memRel_trans _ _ _ (State.logAt_memRel _ _ _ _ _)
        (State.setStack_memRel _ _ _ (StackState.keeps_of_eq (by simp [State.stack])))) (State.judge_memRel _ _ _)
    · exact State.logAt_memRel _ _ _ _ _
    · exact State.logAt_memRel _ _ _ _ _
    · exact State.memRel_refl _
  suffices H : ∀ t : State, s.memRel t → s.memRel (if tget 0 (t.stack k).ondie sn = 2 then
      t.logAt 0x0104 (uidStack k) (physOf s.dev.spreadS k (sn * 32)) (le 1 (secPc sn) ++ le 4 (secRow sn)) else t) from H _ first
  intro t h; split
  · exact State.memRel_trans _ _ _ h (State.logAt_memRel _ _ _ _ _)
  · exact h

theorem State.ctlRead_memRel (s : State) (k sn : Nat) (iss : Issuer) : s.memRel (s.ctlRead k sn iss).2.2 := by
  unfold State.ctlRead; dsimp only
  split
  · exact State.memRel_refl _
  · have h := State.memRel_trans _ _ _ (State.setStack_memRel s k (((s.stack k).spend s.dev.priority iss.cls 1).burstRead sn).2.2
      (StackState.keeps_of_eq (by simp))) (State.logRead_memRel _ k sn (((s.stack k).spend s.dev.priority iss.cls 1).burstRead sn).1 iss.unit)
    split
    · exact State.memRel_trans _ _ _ h (State.freeBytes_memRel _ 32)
    · exact h

theorem State.maskedWrite_memRel (s : State) (k sn : Nat) (new : Bytes) (mask : Nat) (p : Bool) (iss : Issuer) :
    s.memRel (s.maskedWrite k sn new mask p iss).2 := by
  unfold State.maskedWrite; dsimp only
  have h := State.memRel_trans _ _ _ (State.setStack_memRel s k _ (StackState.issueHeld_keeps (s.stack k) (fun h => h.sector == sn)))
    (State.ctlRead_memRel _ k sn iss)
  split
  · refine State.memRel_trans _ _ _ (State.memRel_trans _ _ _ h (State.setStack_memRel _ _ _ ?_)) (State.logAt_memRel _ _ _ _ _)
    exact StackState.keeps_trans _ _ _ (StackState.keeps_of_eq (by simp)) (StackState.burstWrite_keeps _ _ _ _)
  · refine State.memRel_trans _ _ _ h (State.setStack_memRel _ _ _ ?_)
    exact StackState.keeps_trans _ _ _ (StackState.keeps_of_eq (by simp)) (StackState.burstWrite_keeps _ _ _ _)

theorem State.sliceRead_memRel (s : State) (k sn hint : Nat) (iss : Issuer) : s.memRel (s.sliceRead k sn hint iss).2 := by
  have miss := State.memRel_trans _ _ _ (State.setStack_memRel s k { s.stack k with granCount := cnt (s.stack k).granCount 1 1 }
    (StackState.keeps_of_eq rfl)) (State.ctlRead_memRel _ k sn iss)
  unfold State.sliceRead; dsimp only
  split
  · split
    · split
      · refine State.setStack_memRel _ _ _ (StackState.keeps_of_eq ?_); simp only [StackState.putLine_raw]; split <;> rfl
      · split
        · exact State.setStack_memRel _ _ _ (StackState.keeps_of_eq rfl)
        · exact State.setStack_memRel _ _ _ (StackState.keeps_of_eq (by simp))
    · split
      · exact miss
      · exact State.memRel_trans _ _ _ miss (State.setStack_memRel _ _ _ (StackState.keeps_of_eq (by simp)))
  · split
    · exact miss
    · exact State.memRel_trans _ _ _ miss (State.setStack_memRel _ _ _ (StackState.keeps_of_eq (by simp)))

theorem State.sliceWrite_memRel (s : State) (k sn hint : Nat) (new : Bytes) (mask : Nat) (p : Bool) (iss : Issuer) :
    s.memRel (s.sliceWrite k sn hint new mask p iss).2 := by
  have set (x : StackState) (h : x.raw = ((s.clearResv k sn).stack k).raw) : s.memRel ((s.clearResv k sn).setStack k x) :=
    State.memRel_trans _ _ _ (State.clearResv_memRel s k sn) (State.setStack_memRel _ _ _ (StackState.keeps_of_eq h))
  have masked := State.memRel_trans _ _ _ (State.clearResv_memRel s k sn) (State.maskedWrite_memRel _ k sn new mask p iss)
  unfold State.sliceWrite; dsimp only
  split
  · split
    · split
      · exact set _ (by simp)
      · split
        · exact set _ (by simp)
        · exact set _ (by simp)
    · exact masked
  · split
    · split
      · exact set _ (by simp)
      · exact set _ (by simp)
    · exact masked

/-- A read of device memory. -/
theorem State.devRead_memRel (s : State) (iss : Issuer) (a n hint : Nat) : s.memRel (s.devRead iss a n hint).2.2 := by
  unfold State.devRead
  refine foldl_rel (fun x y : PBytes × MemSt × State => x.2.2.memRel y.2.2) (fun _ => State.memRel_refl _)
    (fun _ _ _ => State.memRel_trans _ _ _) _ ?_ (secParts a n) (([] : PBytes), MemSt.ok, s)
  intro x p; dsimp only; split
  · split
    · exact State.sliceRead_memRel _ _ _ _ _
    · exact State.memRel_refl _
  · exact State.memRel_refl _

/-- A masked write of device memory. -/
theorem State.devWriteM_memRel (s : State) (iss : Issuer) (a : Nat) (bs : PBytes) (m hint : Nat) : s.memRel (s.devWriteM iss a bs m hint).2 := by
  unfold State.devWriteM
  refine foldl_rel (fun x y : MemSt × State => x.2.memRel y.2) (fun _ => State.memRel_refl _) (fun _ _ _ => State.memRel_trans _ _ _) _ ?_ (secParts a bs.length)
    (MemSt.ok, s)
  intro x p; dsimp only; split
  · split
    · split
      · exact State.memRel_refl _
      · exact State.sliceWrite_memRel _ _ _ _ _ _ _ _
    · exact State.memRel_refl _
  · exact State.memRel_refl _

/-- A write of device memory. -/
theorem State.devWrite_memRel (s : State) (iss : Issuer) (a : Nat) (bs : PBytes) (hint : Nat) : s.memRel (s.devWrite iss a bs hint).2 :=
  State.devWriteM_memRel _ _ _ _ _ _

theorem State.memopSector_memRel (s : State) (k sn : Nat) (f : Bytes → Bytes) (iss : Issuer) : s.memRel (s.memopSector k sn f iss).2.2 := by
  have h := State.memRel_trans _ _ _ (State.setStack_memRel s k _ (StackState.issueHeld_keeps (s.stack k) (fun h => h.sector == sn)))
    (State.ctlRead_memRel _ k sn iss)
  unfold State.memopSector; dsimp only
  split
  · split
    · exact State.consume_memRel _ _ _ _ _ _ _
    · exact State.setStack_memRel _ _ _ (StackState.keeps_of_eq (by simp))
  · split
    · refine State.memRel_trans _ _ _ (State.memRel_trans _ _ _ h (State.setStack_memRel _ _ _ ?_)) (State.consume_memRel _ _ _ _ _ _ _)
      exact StackState.keeps_trans _ _ _ (StackState.keeps_of_eq (by simp)) (StackState.burstWrite_keeps _ _ _ _)
    · refine State.memRel_trans _ _ _ h (State.setStack_memRel _ _ _ ?_)
      exact StackState.keeps_trans _ _ _ (StackState.keeps_of_eq (by simp)) (StackState.burstWrite_keeps _ _ _ _)

/-- A memory-side operation. -/
theorem State.memop2_memRel (s : State) (iss : Issuer) (a b n : Nat) (f : Nat → Nat) : s.memRel (s.memop2 iss a b n f).2.2 := by
  unfold State.memop2; dsimp only
  split
  · split
    · split
      · exact State.memRel_trans _ _ _ (State.clearResv_memRel _ _ _) (State.memopSector_memRel _ _ _ _ _)
      · split
        · split
          · exact State.memRel_trans _ _ _ (State.memRel_trans _ _ _ (State.memRel_trans _ _ _ (State.clearResv_memRel _ _ _)
              (State.clearResv_memRel _ _ _)) (State.memopSector_memRel _ _ _ _ _)) (State.memopSector_memRel _ _ _ _ _)
          · exact State.clearResv_memRel _ _ _
        · exact State.clearResv_memRel _ _ _
    · exact State.memRel_refl _
  · exact State.memRel_refl _

/-! ## A core's local memory -/

theorem CoreState.wrm_wf (c : CoreState) (a : Nat) (bs : Bytes) (h : Memory.wf c.mem = true) : Memory.wf (c.wrm a bs).mem = true :=
  mwrite_wf _ _ _ h

theorem CoreState.wrp_wf (c : CoreState) (a : Nat) (bs : PBytes) (h : Memory.wf c.mem = true) : Memory.wf (c.wrp a bs).mem = true := by
  unfold CoreState.wrp
  exact foldl_rel (fun x y : CoreState => Memory.wf x.mem = true → Memory.wf y.mem = true) (fun _ => id) (fun _ _ _ h g => g ∘ h) _
    (fun _ _ => mwrite_wf _ _ _) _ _ h

@[simp] theorem CoreState.irq_mem (c : CoreState) (n : Nat) : (c.irq n).mem = c.mem := rfl
@[simp] theorem CoreState.irq_arrays (c : CoreState) (n : Nat) : (c.irq n).arrays = c.arrays := rfl
@[simp] theorem CoreState.irq_cq (c : CoreState) (n : Nat) : (c.irq n).cq = c.cq := rfl

/-- A NOTIFY changes the completion queue or what waits for it. -/
theorem CoreState.notify_eq (c : CoreState) (e : W64) (h : Holder) :
    (c.notify e h).2 = { c with cq := (c.notify e h).2.cq, cqWait := (c.notify e h).2.cqWait } := by
  unfold CoreState.notify; split <;> rfl

/-- A core is replaced by one whose memory is canonical. -/
theorem State.setCore_memWf (s : State) (g : Nat) (c : CoreState) (h : Memory.wf c.mem = true) (w : s.memWf) : (s.setCore g c).memWf := by
  refine ⟨fun j => ?_, w.2⟩
  by_cases n : j = g
  · subst n; rw [State.core_setCore]; exact h
  · rw [State.core_setCore_ne _ _ n]; exact w.1 j

/-- A function is replaced by one whose letterbox is canonical. -/
theorem State.setFn_memWf (s : State) (p f : Nat) (x : HostFunc) (h : Memory.wf x.lb = true) (w : s.memWf) : (s.setFn p f x).memWf := by
  refine ⟨w.1, w.2.1, fun i => ?_⟩
  unfold State.setFn; dsimp only; rw [tget_tset]; split
  · exact h
  · exact w.2.2 i

end Sys2Proof.Machine
end

