-- ==== Sys2Proof/Laws/Host.lean ====
section
/-! SUPPORT. What the operations that send something can do, said once for each: replies and interrupts, express entries and
FAREWELL, event records, and what the rails leave. -/
namespace Sys2Proof.Machine

/-! ## Replies and interrupts (R329–R335, R340) -/

/-- Everything that answering, replying and interrupting can do to the state. -/
structure State.replyRel (s t : State) : Prop where
  frame : t = { s with hostFn := t.hostFn, out := t.out, mgmt := t.mgmt, letters := t.letters, serve := t.serve }
  mem : s.memWf → t.memWf

theorem State.replyRel_refl (s : State) : s.replyRel s := ⟨rfl, id⟩

theorem State.replyRel_trans (s t u : State) (h : s.replyRel t) (g : t.replyRel u) : s.replyRel u :=
  ⟨by rw [g.frame, h.frame], g.mem ∘ h.mem⟩

theorem State.emit_replyRel (s : State) (m : OutMsg) : s.replyRel (s.emit m) := ⟨rfl, id⟩

theorem State.setServe_replyRel (s : State) (x : ServeState) : s.replyRel (s.setServe x) := ⟨rfl, id⟩

theorem State.unqueue_replyRel (s : State) (src : LSrc) : s.replyRel (s.unqueue src) := ⟨rfl, id⟩

/-- A letterbox of a function is canonical where every one is. -/
theorem State.fn_lb (s : State) (w : s.memWf) (p f : Nat) : Memory.wf (s.fn p f).lb = true := w.2.2 _

theorem State.setFn_replyRel (s : State) (p f : Nat) (x : HostFunc) (h : Memory.wf (s.fn p f).lb = true → Memory.wf x.lb = true) :
    s.replyRel (s.setFn p f x) := ⟨rfl, fun w => State.setFn_memWf _ _ _ _ (h (s.fn_lb w p f)) w⟩

theorem HostFunc.freeSlot_lb (x : HostFunc) (k st q : Nat) (h : Memory.wf x.lb = true) : Memory.wf (x.freeSlot k st q).lb = true := mwrite_wf _ _ _ h

theorem State.msixSend_replyRel (s : State) (p f v : Nat) : s.replyRel (s.msixSend p f v) := by
  unfold State.msixSend; dsimp only; split
  · exact State.setFn_replyRel _ _ _ _ id
  · exact State.emit_replyRel _ _

theorem State.msi0_replyRel (s : State) (p f : Nat) : s.replyRel (s.msi0 p f) := by
  have sent := State.replyRel_trans _ _ _ (State.setFn_replyRel s p f { s.fn p f with lastMsi := some s.time, msiPend := false } id)
    (State.msixSend_replyRel _ p f 0)
  have held := State.setFn_replyRel s p f { s.fn p f with msiPend := true } id
  unfold State.msi0; dsimp only
  split
  · split
    · exact sent
    · exact held
  · split
    · exact sent
    · exact held

theorem State.msi1_replyRel (s : State) : s.replyRel s.msi1 := by
  unfold State.msi1
  refine foldl_rel State.replyRel State.replyRel_refl State.replyRel_trans _ (fun s i => ?_) _ _
  split
  · exact State.msixSend_replyRel _ _ _ _
  · exact State.replyRel_refl _

theorem State.postEvent_replyRel (s : State) (k : MeterKind) (n c : Nat) : s.replyRel (s.postEvent k n c) := State.setServe_replyRel _ _

theorem State.meterUpd_replyRel (s : State) (c : Nat) (f : Period → Period) : s.replyRel (s.meterUpd c f) := by
  unfold State.meterUpd; dsimp only; split
  · exact State.setServe_replyRel _ _
  · exact State.replyRel_refl _

theorem State.stamped_replyRel (s : State) (r : HostReply) : s.replyRel (s.stamped r) := by
  unfold State.stamped; dsimp only
  split
  · exact State.replyRel_refl _
  · split
    · exact State.replyRel_refl _
    · rename_i i _ _ q _
      have h := State.replyRel_trans _ _ _ (State.meterUpd_replyRel s q.ctx (fun p => { p with tokens := p.tokens + r.tokens }))
        (State.setServe_replyRel _ _ : State.replyRel _ (State.setReq _ i { q with delivered := q.delivered + r.tokens, finSent := q.finSent || r.final }))
      split <;> split
      · exact State.replyRel_trans _ _ _ (State.replyRel_trans _ _ _ h (State.postEvent_replyRel _ _ _ _)) (State.postEvent_replyRel _ _ _ _)
      · exact State.replyRel_trans _ _ _ h (State.postEvent_replyRel _ _ _ _)
      · exact State.replyRel_trans _ _ _ h (State.postEvent_replyRel _ _ _ _)
      · exact h

theorem State.writeEntry_replyRel (s : State) (p f : Nat) (r : HostReply) : s.replyRel (s.writeEntry p f r) := by
  unfold State.writeEntry; dsimp only
  split
  · exact State.replyRel_refl _
  · rename_i t _
    have sent : s.replyRel ((s.emit (.trayWrite p f t.next r.entry)).emit (.trayStamp p f t.next t.count)) :=
      State.replyRel_trans _ _ _ (State.emit_replyRel _ _) (State.emit_replyRel _ _)
    suffices H : ∀ x : HostFunc, (Memory.wf (s.fn p f).lb = true → Memory.wf x.lb = true) →
        s.replyRel (if r.noIntr then (((s.emit (.trayWrite p f t.next r.entry)).emit (.trayStamp p f t.next t.count)).setFn p f x).stamped r
          else ((((s.emit (.trayWrite p f t.next r.entry)).emit (.trayStamp p f t.next t.count)).setFn p f x).stamped r).msi0 p f) by
      refine H _ (fun h => ?_)
      split
      · exact HostFunc.freeSlot_lb _ _ _ _ h
      · exact h
    intro x hx
    have h := State.replyRel_trans _ _ _ (State.replyRel_trans _ _ _ sent (State.setFn_replyRel _ p f x hx)) (State.stamped_replyRel _ r)
    split
    · exact h
    · exact State.replyRel_trans _ _ _ h (State.msi0_replyRel _ _ _)

theorem State.flushTray_replyRel (s : State) (p f : Nat) : s.replyRel (s.flushTray p f) := by
  unfold State.flushTray; dsimp only
  split
  · exact State.replyRel_refl _
  · rename_i t _
    exact State.replyRel_trans _ _ _ (State.setFn_replyRel s p f { s.fn p f with held := (s.fn p f).held.drop (min t.ahead (s.fn p f).held.length) } id)
      (foldl_rel State.replyRel State.replyRel_refl State.replyRel_trans _ (fun _ _ => State.writeEntry_replyRel _ _ _ _) _ _)

/-- A reply for a function. -/
theorem State.pushReply_replyRel (s : State) (p f : Nat) (r : HostReply) : s.replyRel (s.pushReply p f r) :=
  State.replyRel_trans _ _ _ (State.setFn_replyRel s p f { s.fn p f with held := (s.fn p f).held ++ [r] } id) (State.flushTray_replyRel _ _ _)

theorem State.toOperators_replyRel (s : State) (e : Bytes) : s.replyRel (s.toOperators e) := by
  unfold State.toOperators
  refine foldl_rel State.replyRel State.replyRel_refl State.replyRel_trans _ (fun s p => ?_) _ _
  split
  · exact State.pushReply_replyRel _ _ _ _
  · exact State.replyRel_refl _

theorem State.mgmtSend_replyRel (s : State) (e d : Bytes) : s.replyRel (s.mgmtSend e d) := ⟨rfl, id⟩

/-- An answer to a letter. -/
theorem State.answer_replyRel (s : State) (src : LSrc) (st : Nat) (b d : Bytes) : s.replyRel (s.answer src st b d) := by
  unfold State.answer; dsimp only
  split
  · exact State.replyRel_refl _
  · rename_i letter _
    refine State.replyRel_trans _ _ _ (State.unqueue_replyRel s src) ?_
    generalize s.unqueue src = s
    cases src with
    | mgmt k => exact ⟨rfl, id⟩
    | host p f k =>
      dsimp only
      suffices H : ∀ x : HostFunc, (Memory.wf (s.fn p f).lb = true → Memory.wf x.lb = true) →
          s.replyRel (match x.tray with
            | none => s.setFn p f (x.freeSlot k st (rd letter 10 2))
            | some _ => (s.setFn p f x).pushReply p f { entry := letterEntry letter k st b, slot := some k, noIntr := nbit (rd letter 4 2) 0 }) by
        refine H _ (fun h => ?_); split <;> exact h
      intro x hx
      split
      · exact State.setFn_replyRel _ _ _ _ (fun h => HostFunc.freeSlot_lb _ _ _ _ (hx h))
      · exact State.replyRel_trans _ _ _ (State.setFn_replyRel _ _ _ _ hx) (State.pushReply_replyRel _ _ _ _)

/-- An error answer. -/
theorem State.answerErr_replyRel (s : State) (src : LSrc) (st d : Nat) : s.replyRel (s.answerErr src st d) := State.answer_replyRel _ _ _ _ _

/-- DONE of lasting work. -/
theorem State.workDone_replyRel (s : State) (w : Work) (st : Nat) (b : Bytes) : s.replyRel (s.workDone w st b) := by
  unfold State.workDone; split
  · exact State.replyRel_refl _
  · exact State.pushReply_replyRel _ _ _ _

/-- A letter answered leaves the order of the letters. -/
theorem State.mem_unqueue (s : State) (src : LSrc) (q : LetterQ) : q ∈ (s.unqueue src).letters ↔ q ∈ s.letters ∧ q.src ≠ src := by
  simp [State.unqueue]

/-! ## The scale-up ports (R300–R305, R316) -/

/-- Sending on the ports changes them and what has been sent. -/
def State.linkRel (s t : State) : Prop := t = { s with links := t.links, out := t.out }

theorem State.linkRel_refl (s : State) : s.linkRel s := rfl
theorem State.linkRel_trans (s t u : State) (h : s.linkRel t) (g : t.linkRel u) : s.linkRel u := by
  unfold State.linkRel at *; rw [g, h]

theorem State.sendBody_linkRel (s : State) (l : Nat) (x : Bool) (b : Bytes) : s.linkRel (s.sendBody l x b) := rfl

theorem State.pump_linkRel (n : Nat) : ∀ (s : State) (l : Nat), s.linkRel (State.pump n s l) := by
  induction n with
  | zero => exact fun s _ => State.linkRel_refl s
  | succ n ih =>
    intro s l
    unfold State.pump; dsimp only
    split
    · exact State.linkRel_refl _
    · split
      · exact State.linkRel_trans _ _ _ (State.linkRel_trans _ _ _ (by rfl) (State.sendBody_linkRel _ _ _ _)) (ih _ _)
      · split
        · exact State.linkRel_refl _
        · exact State.linkRel_trans _ _ _ (State.linkRel_trans _ _ _ (by rfl) (foldl_rel State.linkRel State.linkRel_refl State.linkRel_trans _
            (fun _ _ => State.sendBody_linkRel _ _ _ _) _ _)) (ih _ _)

/-- An express entry. -/
theorem State.sendExpress_linkRel (s : State) (l : Nat) (e : Bytes) : s.linkRel (s.sendExpress l e) :=
  State.linkRel_trans _ _ _ (by rfl) (State.pump_linkRel _ _ _)

/-- A record. -/
theorem State.sendRec_linkRel (s : State) (l : Nat) (r : LinkRec) : s.linkRel (s.sendRec l r) :=
  State.linkRel_trans _ _ _ (by rfl) (State.pump_linkRel _ _ _)

/-- FAREWELL: the ports and what has been sent differ, and the device refuses remote accesses. -/
theorem State.sendFarewell_linkRel (s : State) (c : Nat) : s.linkRel (s.sendFarewell c) ∧ (s.sendFarewell c).links.farewell = true :=
  ⟨State.linkRel_trans _ _ _ (foldl_rel State.linkRel State.linkRel_refl State.linkRel_trans _ (fun _ _ => State.sendExpress_linkRel _ _ _) _ _) (by rfl), rfl⟩

/-! ## Event records (R449–R451) -/

/-- An event record: the boot flash's record area and its counts; a record cut short takes one free value. -/
theorem State.eventRecord_eq (s : State) (c : Nat) (u : W32) (d : Bytes) (full : Bool) :
    (s.eventRecord c u d full) = { s with flash := (s.eventRecord c u d full).flash, fresh := if full then s.fresh else s.fresh + 1 }
      ∧ (s.eventRecord c u d full).flash.nvSeq = s.flash.nvSeq + 1 ∧ (s.eventRecord c u d full).flash.nvPos = (s.flash.nvPos + 1) % 64 := by
  cases full <;> exact ⟨rfl, rfl, rfl⟩

/-! ## The rails (R427, R464, R482) -/

@[simp] theorem State.railsOff_pending (s : State) : s.railsOff.pending = s.pending := rfl
@[simp] theorem State.railsOff_mode (s : State) : s.railsOff.dev.mode = .off := rfl
@[simp] theorem State.railsOff_time (s : State) : s.railsOff.time = 0 := rfl
@[simp] theorem State.railsOff_out (s : State) : s.railsOff.out = s.out := rfl
@[simp] theorem State.railsOff_fuse (s : State) : s.railsOff.fuse = s.fuse := rfl
@[simp] theorem State.railsOff_flash (s : State) : s.railsOff.flash = s.flash := rfl
@[simp] theorem State.railsOff_log (s : State) : s.railsOff.log = {} := rfl
@[simp] theorem State.railsOff_thermtrip (s : State) : s.railsOff.board.thermtrip = s.board.thermtrip := rfl
@[simp] theorem State.railsOff_inrush (s : State) : s.railsOff.board.inrush = s.board.inrush := rfl
@[simp] theorem State.railsOff_pwrEn (s : State) : s.railsOff.board.pwrEn = s.board.pwrEn := rfl
@[simp] theorem State.railsOff_failed (s : State) : s.railsOff.board.failed = s.board.failed := rfl

/-- With the rails off nothing breaks the invariant of a step. -/
theorem State.railsOff_inv (s : State) : s.railsOff.inv := ⟨rfl, Nat.zero_le _, fun _ => rfl, fun _ => rfl, fun _ => rfl⟩

/-- A start begins only from off, charged, enabled, and with nothing latched or held. -/
theorem State.tryStart_of_not (s : State) (h : s.mayStart = false) : s.tryStart = s := by simp [State.tryStart, h]

end Sys2Proof.Machine
end

