-- ==== Sys2Proof/Tests/Slice0.lean ====
section
/-! SUPPORT. Tests: ill-formed commands, single steps whose expected results come from the spec, and for each statement of
the obligations a state that meets its hypotheses. -/
namespace Sys2Proof.Tests
open Sys2Proof Sys2Proof.Machine
set_option maxRecDepth 20000
-- each kernel evaluation in turn: many waiting at once would each hold a thread
set_option Elab.async false

/-! ## States -/

/-- Reset, with one core 0. -/
def ofCore (c : CoreState) : State := { State.reset with cores := [(0, c)] }
/-- Reset, with one array 0 of core 0. -/
def ofArr (x : ArrayState) : State := ofCore { arrays := [(0, x)] }
/-- Array 0 of core 0 runs a word whose work is not done. -/
def ofRun (u : ArrUnit) (w : CW) : State := ofArr { running := [{ word := w, unit := u }] }

/-- Translation unit d maps 64 KiB at address 0 of ASID 0 onto stack 0, readable and writable, and every stack serves. -/
def mapped (d : Nat) : State := { State.reset with
  hbm := (List.range 12).map (fun k => (k, { fillDone := true, trained := true }))
  xlate := [(d, { tlb := [{ asid := 0, base := 0, log2 := 16, leaf := 0x33 }], asidReg := 1 })] }

/-! ## Matrix arrays -/

/-- IN_LOAD of one row of 16 INT8 elements from 0x80000 to unit 0 (R39, R43). -/
def wLoad (op : Nat) : CW := pack 128 [(104, 0x80000), (64, 1), (44, 16), (39, 1), (34, 2), (0, op)]
/-- SOW of 16 by 4 INT8 weights at 0 into column 0 of the lone array 0 (R43). -/
def wSow (op : Nat) : CW := pack 128 [(60, 8), (51, 4), (38, 2), (34, 1), (30, if op = 0x11 then 1 else 0), (0, op)]
/-- ACC_DRAIN of 4 columns as INT32 to 0x80000 (R516). -/
def wDrain : CW := pack 128 [(104, 0x80000), (64, 1), (51, 4), (38, 0xE), (31, 1), (0, 0x31)]

theorem wit_LoadFillsTile : ∀ tr ∈ [false, true],
    (ofRun .load (wLoad (if tr then 2 else 1))).arr 0 0 |>.run .load
        |>.any (fun r => !r.done && cwOp r.word == (if tr then 2 else 1)
          && chkLoad tr ((ofRun .load (wLoad (if tr then 2 else 1))).width 0 0) r.word == []
          && !loadPz ((ofRun .load (wLoad (if tr then 2 else 1))).core 0) (loadF r.word) tr) := by decide +kernel

theorem wit_ZmapActsOnItsMap : ∀ zop ∈ [0, 1, 2], ((ofRun .load (pack 128 [(104, 0x80000), (20, zop), (0, 0x20)])).arr 0 0 |>.run .load).any
    (fun r => !r.done && cwOp r.word == 0x20 && bf r.word 21 20 == zop)
    ∧ (ofRun .load (pack 128 [(104, 0x80000), (20, zop), (0, 0x20)]) |>.core 0).pzAny 0x80000 128 = false := by decide +kernel

theorem wit_AccumulatorsAndDrain :
    (∀ op ∈ [0x30, 0x40], ((ofRun .sow (pack 128 [(51, 4), (0, op)])).arr 0 0 |>.run .sow).any (fun r => !r.done && cwOp r.word == op))
    ∧ ((ofRun .drain wDrain).arr 0 0 |>.run .drain).any (fun r => !r.done && cwOp r.word == 0x31
        && chkAcc { (ofRun .drain wDrain).arr 0 0 with colType := r.prevTypes } ((ofRun .drain wDrain).width 0 0) r.word == []
        && !(drainKind { (ofRun .drain wDrain).arr 0 0 with colType := r.prevTypes } (drainF r.word)).2
        && decide ((drainF r.word).n * (fmtBits (drainF r.word).ofmt / 8) ≤ (drainF r.word).stride * 16)) := by decide +kernel

/-- One INT8 tile of one row of 8 elements, and a SOW of it in ACC64 mode, its streams FULL. -/
def sowing (op : Nat) : State := ofCore {
  full := List.range 1024
  arrays := [(0, { acc64 := true, running := [{ word := wSow op, unit := .sow, kind := .int64, tile := some { fmt := 2, k := 8, rows := 1 } }] })] }

theorem wit_SowAddsExactProducts :
    ((sowing 0x10).arr 0 0 |>.run .sow).any (fun r => !r.done && cwOp r.word == 0x10 && r.step == 0 && r.work == [] && r.owed == []
      && r.kind == .int64 && (r.tile.any (fun t => t.fmt == 2 && decide (t.rows ≤ 16) && decide ((sowF r.word).k ≤ t.k)))
      && (sowF r.word).wfmt == 2 && (sowF r.word).gang == 1 && !(sowF r.word).zskip && decide (0 < (sowF r.word).k)
      && decide (0 < (sowF r.word).n) && decide ((sowF r.word).col + (sowF r.word).n ≤ 128)
      && decide ((sowF r.word).waddr + ((sowF r.word).k + 7) / 8 * (((sowF r.word).n + 3) / 4) * 32 ≤ 0x80000) && r.prevTypes == [])
    ∧ ((sowing 0x10).arr 0 0).acc64 = true ∧ ((sowing 0x10).core 0).hctl.getLsbD 31 = false ∧ ((sowing 0x10).core 0).hctl.getLsbD 30 = false
    ∧ ((sowing 0x10).core 0).poison = [] := by decide +kernel

theorem wit_SowAddsExactProducts_full (b : Nat) (h : b < 1024) : b ∈ ((sowing 0x10).core 0).full :=
  by
  have e : ((sowing 0x10).core 0).full = List.range 1024 := by simp [sowing, ofCore, State.core, tget]
  rw [e]; exact List.mem_range.2 h

theorem wit_SowRunsOrWaits : (∀ op ∈ [0x10, 0x11], ((sowing op).arr 0 0 |>.run .sow).any (fun r => !r.done && cwOp r.word == op
      && (sowF r.word).gang.testBit 0)) ∧ ((sowing 0x10).core 0).poison = []
    ∧ ((ofCore { full := [0], arrays := [(0, { running := [{ word := wSow 0x10, unit := .sow, waitBlk := some 0 }] })] }).arr 0 0 |>.run .sow).any
      (fun r => r.waitBlk == some 0) := by decide +kernel

/-- A done load command whose NOTIFY bit is n. -/
def doneCmd (n : Nat) : RunCmd := { word := pack 128 [(16, n), (0, 1)], unit := .load, done := true }

theorem wit_ArrayLifeCycle_error : arrCheck ((ofArr { queue := [0] }).core 0) 0 16 ((ofArr { queue := [0] }).arr 0 0) 0 ≠ 0
    ∧ isSow (cwOp 0) = false := by decide +kernel
theorem wit_ArrayLifeCycle_load : arrCheck {} 0 16 {} (wLoad 1) = 0 ∧ isSow (cwOp (wLoad 1)) = false := by decide +kernel
theorem wit_ArrayLifeCycle_ready : (ArrayState.ready { queue := [wLoad 1] } (wLoad 1)) = true := by decide +kernel
theorem wit_ArrayLifeCycle_sow : isSow (cwOp (wSow 0x10)) = true ∧ (sowF (wSow 0x10)).gang = 2 ^ 0
    ∧ arrCheck {} 0 16 { tiles := [{ fmt := 2, k := 8, rows := 1 }] } (wSow 0x10) = 0 ∧ ((ofArr {}).core 0).sowing = false := by decide +kernel
theorem wit_ArrayLifeCycle_sow_ready : (ArrayState.ready { queue := [wSow 0x10] } (wSow 0x10)) = true := by decide +kernel
theorem wit_ArrayLifeCycle_done : (∀ n ∈ [0, 1], ((ofArr { running := [doneCmd n] }).arr 0 0).run .load = some (doneCmd n)
    ∧ (doneCmd n).done = true ∧ (doneCmd n).held = false) ∧ cwNotify (doneCmd 0).word = false ∧ cwNotify (doneCmd 1).word = true := by decide +kernel

theorem wit_GangTimeoutAndStatusWrite : (wSow 0x10 ||| pack 128 [(34, 2)]).getLsbD 35 = true ∧ (sowF (wSow 0x10 ||| pack 128 [(34, 2)])).gang = 3
    ∧ ((ofArr { queue := [wSow 0x10 ||| pack 128 [(34, 2)]] }).arr 0 0).queue.head? = some (wSow 0x10 ||| pack 128 [(34, 2)])
    ∧ ((ofArr { queue := [wSow 0x10 ||| pack 128 [(34, 2)]] }).arr 0 1).queue = [] := by decide +kernel

/-- R34: INT8 product 3 × 4 into an INT32 cell at the top of its range saturates. -/
theorem test_int_cell_saturates : intCell {} 0x7FFFFFFF false 12 = (0x7FFFFFFF, true) := by decide +kernel
/-- R31: FP32 0.5 + 0.5 rounds once to 1.0. -/
theorem test_fp_cell : fpCell 0x3F000000 false false (ofF32 0x3F000000) = 0x3F800000 := by decide +kernel
/-- R42: OP 0 is reserved, code 0x01. -/
theorem test_reserved_op : arrCheck {} 0 16 {} 0 = 1 := by decide +kernel

/-! ## Winnow routers, vector units, page sieve -/

/-- Winnow router 0 enabled, with rounds, records and letters. -/
def ofWin (x : WinnowState) : State := { State.reset with winnow := [(0, { x with ctx := 1 })] }

/-- ROUND_OPEN of round 7: K 1, one expert, one token, rows of 32 bytes (R75). -/
def rOpen : Bytes := recOf 64 [(0, 1, 1), (1, 1, 1), (2, 2, 7), (4, 2, 1), (6, 2, 1), (12, 4, 32)]

/-- Round 7 by index, one expert with room for one token. -/
def aRound : Round := { id := 7, k := 1, experts := 1, tokens := 1, byIndex := true, rowBytes := 32, loaded := true,
                        table := [{ enable := true, capacity := 1 }] }

theorem wit_WinnowTokens : winnowOpen (ofWin {}) 0 none ∧ openGood rOpen = true ∧ ((ofWin {}).win 0).round (rd rOpen 2 2) = none
    ∧ openGood (zeros 64) = false
    ∧ ((ofWin { rounds := [aRound] }).win 0).round (rd (recOf 32 [(0, 2, 7)]) 0 2) = some aRound ∧ aRound.closeFlag = none
    ∧ 16 + 2 * aRound.experts ≤ (recOf 32 [(0, 2, 7)]).length ∧ rd (recOf 32 [(0, 2, 7)]) 2 2 < aRound.tokens ∧ aRound.received = []
    ∧ ((ofWin { rounds := [aRound] }).win 0).room aRound 0 = true
    ∧ (rdb (recOf 64 [(0, 1, 2), (2, 2, 7)]) 0 = 2 ∧ rdb (recOf 64 [(0, 1, 2), (2, 2, 7)]) 1 = 0 ∧ rd (recOf 64 [(0, 1, 2), (2, 2, 7)]) 4 4 = 0
      ∧ (∀ b ∈ slice (recOf 64 [(0, 1, 2), (2, 2, 7)]) 16 48, b = 0) ∧ rd (recOf 64 [(0, 1, 2), (2, 2, 7)]) 2 2 = aRound.id)
    ∧ (∀ g : GateRec, g = { round := 7, token := 0, logits := [0] } → (∀ y ∈ ((ofWin { rounds := [aRound], buf := [g] }).win 0).rounds, y.loaded = true)
      ∧ ((ofWin { rounds := [aRound], buf := [g] }).win 0).buf.find? ((ofWin { rounds := [aRound], buf := [g] }).win 0).takeable = some g
      ∧ ((ofWin { rounds := [aRound], buf := [g] }).win 0).round g.round = some aRound) := by
  refine ⟨by unfold winnowOpen; refine ⟨by decide, by decide +kernel, by decide +kernel, by simp⟩, ?_⟩
  refine ⟨by decide +kernel, by decide +kernel, by decide +kernel, by decide +kernel, by decide +kernel, by decide +kernel, by decide +kernel, by decide +kernel, by decide +kernel, by decide +kernel, ?_⟩
  rintro g rfl; decide +kernel

/-- A letter of round 7 to core-local rows: in a state whose translation unit has PHYS_EN clear the read faults; an aperture row reads. -/
theorem wit_WinnowSendsAndFinishes : ∃ l : Letter,
    ((ofWin { rounds := [aRound], sendq := [l] }).win 0).sendq = [l] ∧ ((ofWin { rounds := [aRound], sendq := [l] }).win 0).round l.round = some aRound
    ∧ (aRound.table[l.expert]?).isSome = true ∧ [l].Nodup
    ∧ (∀ r, r = { aRound with closeFlag := some 0, tokens := 0, experts := 0, table := [] } →
        ((ofWin { rounds := [r] }).win 0).round r.id = some r ∧ ((ofWin { rounds := [r] }).win 0).stopped = false ∧ r.loaded = true) := by
  refine ⟨{ round := 7, token := 0, expert := 0 }, by decide +kernel, by decide +kernel, by decide +kernel, by decide +kernel, ?_⟩
  rintro r rfl; decide +kernel

/-- A vector word over 32 FP32 elements at 0x80000 to 0x90000 (R104). -/
def wVec (op : Nat) : CW :=
  if op = 0x91 then pack 128 [(96, 5), (28, 1), (0, op)]
  else pack 128 [(104, 0x80000), (80, if op ≤ 0x85 ∨ op = 0x92 then 0xA0000 else 0), (56, 0x90000), (40, 32), (35, 7), (30, if op = 0x92 then 8 else 7), (0, op)]

theorem wit_VectorCommands : ∀ op ∈ [0x80, 0x81, 0x82, 0x83, 0x84, 0x85, 0x86, 0x87, 0x88, 0x89, 0x8A, 0x8B, 0x8C, 0x8D, 0x8E, 0x8F, 0x90, 0x91, 0x92],
    ((ofCore { vec := { queue := [wVec op] } }).core 0).vec.queue = [wVec op] ∧ cwOp (wVec op) = op ∧ vecCheck (wVec op) = 0
    ∧ vecPz ((ofCore { vec := { queue := [wVec op] } }).core 0) op (vecF (wVec op)) = false
    ∧ badOverlap (vecF (wVec op)).srcA ((vecF (wVec op)).count * (fmtBits (vecF (wVec op)).afmt / 8)) (vecF (wVec op)).dst (vecOutBytes op (vecF (wVec op))) = false
    ∧ (vecBinary op = true → badOverlap (vecF (wVec op)).srcB ((vecF (wVec op)).count * (fmtBits (vecF (wVec op)).afmt / 8)) (vecF (wVec op)).dst
        (vecOutBytes op (vecF (wVec op))) = false)
    ∧ (op = 0x92 → (vecF (wVec op)).dst + vecOutBytes op (vecF (wVec op)) ≤ (vecF (wVec op)).srcB
        ∧ (vecF (wVec op)).srcA + (vecF (wVec op)).count * 4 ≤ (vecF (wVec op)).srcB) := by decide +kernel

/-- No element of zeroed vector memory is a NaN (VRMAX). -/
theorem wit_VectorCommands_rmax : ∀ x ∈ vecElts ({} : CoreState) 0x80000 7 32, (eltVal 7 x).isNan = false := by decide +kernel

theorem wit_VectorScalarErrorsComplete : vecCheck (wVec 0x91) = 0 ∧ vecCheck (pack 128 [(0, 0x80)]) ≠ 0 ∧ isVecOp (cwOp 0) = false
    ∧ (∀ n ∈ [0, 1], ((ofCore { vec := { run := some (pack 128 [(16, n), (0, 0x80)]) } }).core 0).vec.held = false
        ∧ cwNotify (pack 128 [(16, n), (0, 0x80)]) = (n == 1)) := by decide +kernel

/-- R105: 1.0 + 2.0 is 3.0; R106: exp of 0 lies within its bound is left free. -/
theorem test_vadd : vecFloat 0x80 (ofF32 0x3F800000) (ofF32 0x40000000) (ofF32 0) 0 = 0x40400000 := by decide +kernel

/-- A SELECT of one page of 32 E4M3 tokens, one head of 32 channels (R192). -/
def rSelect : Bytes := recOf 64 [(0, 1, 1), (5, 1, 1), (7, 1, 1), (8, 2, 32), (12, 2, 1), (14, 2, 4), (16, 4, 32), (24, 8, 0), (32, 8, 128), (40, 8, 0x80000), (48, 8, 0x90000)]
/-- A SEAL of page 0. -/
def rSeal : Bytes := recOf 64 [(0, 1, 2), (5, 1, 1), (8, 2, 32), (24, 8, 0), (32, 8, 128), (48, 8, 0x90000)]
/-- Sieve unit 0, enabled, its translations those of `mapped`. -/
def ofSieve (x : SieveState) : State := { mapped 12 with sieve := [(0, { x with ctx := 1 })] }

theorem wit_SieveRequests_record : (∀ r ∈ [rSelect, rSeal], sieveReject (ofSieve {}) 0 (some 0) 0 r = 0) ∧ srOp rSelect = 1 ∧ srOp rSeal = 2
    ∧ sieveReject (ofSieve {}) 0 (some 0) 0 (zeros 64) ≠ 0 ∧ ((ofSieve {}).sv 0).stopped = false := by decide +kernel

/-- The reads of that SELECT end well. -/
theorem wit_SieveRequests_select : ((ofSieve {}).localRead 0 (lfAddr (rd rSelect 40 8)) (2 * srDim rSelect * rdb rSelect 7)).1 = 0
    ∧ (match (State.readPages (ofSieve {}) ((ofSieve {}).svClient 0) rSelect (((ofSieve {}).core 0).rdm (lfAddr (rd rSelect 40 8)) (2 * srDim rSelect * rdb rSelect 7))
        (List.range ((rd rSelect 16 4 + srP rSelect - 1) / srP rSelect)) []).1 with | .ok ps => ps.length == 1 | _ => false) = true := by decide +kernel

/-- The accesses of that SEAL end well. -/
theorem wit_SieveRequests_seal : ∀ (c : Client), c = (ofSieve {}).svClient 0 → (∀ a ∈ [0, 128], ((ofSieve {}).clProbe c a 128 kWrite).1 = none)
    ∧ (match ((ofSieve {}).clRead c 0 8 (srHint rSeal)).1 with | .ok _ .ok => true | _ => false) = true
    ∧ (match ((ofSieve {}).readKeys c rSeal 0 (List.range (srHeads rSeal)) [] false).1 with | .ok _ => true | _ => false) = true
    ∧ (∀ a ∈ [0, 128], (match ((ofSieve {}).clWrite c a (mark false (zeros 8)) (srHint rSeal)).1 with | .ok [] .ok => true | _ => false) = true) := by
  rintro c rfl; decide +kernel

/-- With nothing mapped the SELECT faults. -/
theorem wit_SieveRequests_fault : (match (State.runSelect { State.reset with sieve := [(0, { ctx := 1 })] } 0 { core := 0, record := rSelect }).1 with
    | .fault _ => true | _ => false) = true := by decide +kernel

theorem wit_SieveWritesResult : ∀ run : SieveRun, run = { req := { core := 0, record := rSelect }, entries := [{}] } →
    ((ofSieve { running := [run] }).sv 0).running[0]? = some run ∧ srRes run.req.record % 32 = 0 ∧ clVm ≤ srRes run.req.record
    ∧ srRes run.req.record + 32 + 16 * run.entries.length ≤ clVmEnd ∧ ((ofSieve { running := [run] }).core 0).stopped = false := by
  rintro run rfl; decide +kernel

/-- One page, which is the last and so forced: with MAX_ENTRIES 4 it is the one entry, with MAX_ENTRIES 0 STATUS is 0x07 (R197). -/
theorem test_select_last_page : (selectResult 1 rSelect [] [{ entry := 1, sealed_ := true, poison := false, score := 0 }] {}).entries.map (·.index) = [0]
    ∧ (selectResult 1 (zeros 64) [] [{ entry := 1, sealed_ := true, poison := false, score := 0 }] {}).status = 7 := by decide +kernel

/-! ## Control processors, engines, caches, barriers -/

/-- Core 0 with its control processor out of reset. -/
def ofCp (c : CoreState) : State := ofCore { c with cp := { c.cp with inReset := false } }

/-- Sixteen zero words: a full queue. -/
def full16 : List CW := List.replicate 16 0

theorem wit_QueuesOfACore : aqMaskOk 1 = true ∧ aqMaskOk 0 = false ∧ (∀ i ∈ aqNamed 1, ((ofCp {}).core 0).qClosed i = false ∧ ((ofCp {}).core 0).qFull i = false)
    ∧ (∃ i ∈ aqNamed 1, ((ofCp { arrays := [(0, { err := true })] }).core 0).qClosed i = true)
    ∧ (∃ i ∈ aqNamed 1, ((ofCp { arrays := [(0, { queue := full16 })] }).core 0).qFull i = true)
    ∧ (∀ i ∈ aqNamed 1, ((ofCp { arrays := [(0, { queue := full16 })] }).core 0).qClosed i = false)
    ∧ ((ofCp { cp := { stall := .aqPush 1 0 5 } }).core 0).cp.stall = .aqPush 1 0 5
    ∧ ((ofCp { cq := [1] }).core 0).cq ≠ [] ∧ ((ofCp {}).core 0).wakes = false ∧ ((ofCp { cp := { stall := .aqWait 5 9 } }).core 0).cp.stall = .aqWait 5 9
    ∧ ((ofCp { cqWait := [(1, .arr 0 .load)] }).core 0).cqWait = [(1, .arr 0 .load)] := by decide +kernel

theorem wit_HopperAndScrub : ((ofCp { hctlNew := some 5 }).core 0).hctlNew = some 5 ∧ ((ofCp { hctlNew := some 5 }).core 0).sowing = false
    ∧ ((ofCp {}).core 0).scrub = false ∧ ((ofCp { scrub := true }).core 0).scrub = true ∧ ((ofCp { scrub := true }).core 0).idle = true
    ∧ ((ofCp { heldMarks := [{ block := 3, data := zeros 512 }] }).core 0).heldMarks = [{ block := 3, data := zeros 512 }]
    ∧ 3 ∉ ((ofCp {}).core 0).full ∧ (zeros 512).length = 512 := by decide +kernel

/-- Core 0 about to fetch a word that stands at 0x0B_0000. -/
def fetching (w : Nat) : State := ofCp { mem := mwrite [] 0xB0000 (le 4 w) }

/-- ADDI x5, x0, 7; ADD x5, x0, x0; BEQ x0, x0, 8; ECALL; custom-3 (the RISC-V base encodings). -/
theorem wit_CpExecutesAndTraps : (∀ w ∈ [0x00700293, 0x000002B3, 0x00000463, 0x73, 0x7B], ((fetching w).core 0).cp.pc.toNat = aperture + 0xB0000
      ∧ ((fetching w).core 0).pzAny 0xB0000 2 = false ∧ unle (((fetching w).core 0).rdm 0xB0000 4) = w ∧ w % 4 = 3)
    ∧ aluImm (nf 0x00700293 14 12) (nf 0x00700293 31 20) 0 = some 7 ∧ alu (nf 0x2B3 14 12) (nf 0x2B3 31 25) 0 0 = some 0
    ∧ branch (nf 0x463 14 12) 0 0 = some true
    ∧ (7 ∈ ((ofCp { mip := [7], cp := { mach := false, csr := [(0x304, 0x80)] } }).core 0).pend
        ∨ 16 ∈ ((ofCp { mip := [16], cp := { mach := false, csr := [(0x304, 0x10000)] } }).core 0).pend)
    ∧ nbit (((ofCp { mip := [16], cp := { mach := false, csr := [(0x304, 0x10000)] } }).core 0).csr 0x304) 16 = true := by decide +kernel

/-- R98: ADDI x5, x0, 7 writes 7 to x5 and moves the pc by 4. -/
theorem test_addi : (match exec (.cpInstruction 0) (fetching 0x00700293) with
    | .next t => ((t.core 0).xr 5, (t.core 0).cp.pc) | _ => (0, 0)) = (7, 0xFFFFFFF0B0004) := by decide +kernel

theorem wit_ApertureAccess : ((ofCp {}).core 0).cp.inReset = false ∧ ((ofCp {}).core 0).cp.stall = .none ∧ 0xBFFF8 % 8 = 0 ∧ 0xBFFF8 < 0xC0000
    ∧ ((ofCp {}).core 0).pzAny 0xBFFF8 8 = false ∧ 0xC0001 % 2 ≠ 0 ∧ 0xC0000 % 8 = 0 := by decide +kernel

/-- A descriptor: FILL of 32 bytes to vector memory of core 0, or COPY from 0x81000 of core 0, or another OP (R121). -/
def aDesc (op flags dst : Nat) : Bytes := recOf 64 [(0, 1, op), (1, 1, flags), (8, 8, if op = 2 then 0 else 0x81000), (16, 8, dst), (24, 4, 32), (28, 4, 1)]

/-- Cluster DMA 0 with one running descriptor. -/
def ofDesc (d : Bytes) (st : Option Nat) : State :=
  { ofCp {} with clusters := [(0, { dma := { running := [{ desc := d, todo := descParts d, status := st }] } })] }

theorem wit_DescriptorLife : (tget [] ((ofCp {}).cluster 0).dma.queues 0).length < 16
    ∧ 16 ≤ (tget [] (State.cluster { ofCp {} with clusters := [(0, { dma := { queues := [(0, List.replicate 16 [])] } })] } 0).dma.queues 0).length
    ∧ (∀ d, d = aDesc 2 0x20 0x80000 → ((ofDesc d (some 0)).runDesc (.cdma 0) 0).any (fun r => r.status == some 0 && !r.held) = true
        ∧ (∀ r, (ofDesc d (some 0)).runDesc (.cdma 0) 0 = some r → (ofDesc d (some 0)).descBusy (.cdma 0) r = false) ∧ rd d 56 8 = 0 ∧ dFlag d 0 = false) := by
  refine ⟨by decide +kernel, by decide +kernel, ?_⟩
  rintro d rfl
  refine ⟨by decide +kernel, ?_, by decide +kernel, by decide +kernel⟩
  intro r h; have e : (ofDesc (aDesc 2 0x20 0x80000) (some 0)).runDesc (.cdma 0) 0 = some { desc := aDesc 2 0x20 0x80000, todo := descParts (aDesc 2 0x20 0x80000), status := some 0 } := by decide +kernel
  rw [e] at h; cases h; decide +kernel

theorem wit_DescriptorParts_fill : (ofDesc (aDesc 2 0x20 0x80000) none).descCheck (.cdma 0) (aDesc 2 0x20 0x80000) = 0 ∧ dRows (aDesc 2 0x20 0x80000) = 1
    ∧ dFlag (aDesc 2 0x20 0x80000) 1 = false ∧ dFlag (aDesc 2 0x20 0x80000) 5 = true ∧ lfCore (rd (aDesc 2 0x20 0x80000) 16 8) = 0
    ∧ (ofDesc (aDesc 2 0x20 0x80000) none).guestCore 0 = false ∧ lfAddr (rd (aDesc 2 0x20 0x80000) 16 8) + dLen (aDesc 2 0x20 0x80000) ≤ clVmEnd
    ∧ clVm ≤ lfAddr (rd (aDesc 2 0x20 0x80000) 16 8) ∧ rdb (aDesc 2 0x20 0x80000) 0 = 2 := by decide +kernel

theorem wit_DescriptorParts_copy : (ofDesc (aDesc 1 0x30 0x80000) none).descCheck (.cdma 0) (aDesc 1 0x30 0x80000) = 0
    ∧ dFlag (aDesc 1 0x30 0x80000) 4 = true ∧ lfCore (rd (aDesc 1 0x30 0x80000) 8 8) = 0 ∧ clVm ≤ lfAddr (rd (aDesc 1 0x30 0x80000) 8 8)
    ∧ lfAddr (rd (aDesc 1 0x30 0x80000) 8 8) + dLen (aDesc 1 0x30 0x80000) ≤ clVmEnd ∧ descOverlap (aDesc 1 0x30 0x80000) = false
    ∧ ((ofDesc (aDesc 1 0x30 0x80000) none).core 0).pzAny 0x81000 32 = false := by decide +kernel

theorem wit_CacheOperations : ((ofCp {}).cluster 0).ccBusy = false ∧ ((({ ofCp {} with clusters := [(0, { ccBusy := true })] } : State).cluster 0).ccBusy = true) := by
  decide +kernel

theorem wit_Barriers : ((ofCp {}).core 0).departed = true ∧ ((ofCp { departed := false }).core 0).departed = false ∧ ((ofCp {}).core 0).wakes = false
    ∧ ((ofCp { cp := { stall := .barrier 5 } }).core 0).cp.stall = .barrier 5
    ∧ postExists 0 0 = true ∧ (ofCp {}).stopCore 0 0 0 = none
    ∧ [pack 64 [(63, 1), (16, 1), (0, 2)], pack 64 [(63, 1), (16, 1), (0, 1)], pack 64 [(63, 1), (62, 1), (16, 1), (0, 1)], 0].all
        (fun e => ((ofCp {}).setBar 0 0 9 e).barEnt 0 0 9 == e) = true := by decide +kernel

/-- A stop of die code 4 whose port 0 is core 0, and an ID that the core waits for. -/
theorem wit_Barriers_depart : postExists 4 16 = true ∧ (ofCp { barId := 9 }).stopCore 4 16 0 = some 0
    ∧ (((ofCp { barId := 9 }).setBar 4 16 9 (pack 64 [(16, 1)])).barEnt 4 16 9).getLsbD 16 = true ∧ ((ofCp { barId := 9 }).core 0).barId = 9 := by decide +kernel

/-! ## Device memory, translation, networks -/

/-- Stack 0 serves and its granary holds line 0, its first sector 32 bytes of 5. -/
def ofLine (c : CoreState) : State := { ofCore c with
  hbm := [(0, { fillDone := true, trained := true, lines := [{ tag := 0, s0 := { valid := true, data := List.replicate 32 5 } }] })] }

theorem wit_MemorySideOperations (n : Nat) (h : n ≤ 8) : granHit (ofLine {}) 8 n 0 8 (List.replicate 32 5)
    ∧ addFmt 0x0E ≠ none ∧ ((ofLine { resv := some (0, 0) }).core 0).resv = some (0, 0) ∧ ((ofLine {}).core 0).resv ≠ some (0, 0) := by
  refine ⟨⟨by decide +kernel, by decide +kernel, by omega, by decide +kernel, { tag := 0, s0 := { valid := true, data := List.replicate 32 5 } },
    by decide +kernel, by decide +kernel, by decide +kernel, by decide +kernel⟩, by simp [addFmt], by decide +kernel, by decide +kernel⟩

/-- R165, R169: one byte of 32 wrong is corrected; a sector written with tag 7 reads unwritten under epoch 8. -/
theorem test_sector_code : rsDecode ((zeros 32).set 3 0x40) (rsCheck (zeros 32) 7) 7 = (.corrected 1, zeros 32)
    ∧ (rsDecode (zeros 32) (rsCheck (zeros 32) 7) 8).1 = .unwritten := by decide +kernel

theorem wit_GranaryAndControllers : ((ofLine {}).stack 0).gBusy = false ∧ (State.stack { State.reset with hbm := [(0, { gBusy := true })] } 0).gBusy = true
    ∧ bf (0x21212120 : W64) 7 0 + bf (0x21212120 : W64) 15 8 + bf (0x21212120 : W64) 23 16 + bf (0x21212120 : W64) 31 24 = 131
    ∧ bf (0x20202020 : W64) 7 0 + bf (0x20202020 : W64) 15 8 + bf (0x20202020 : W64) 23 16 + bf (0x20202020 : W64) 31 24 = 128
    ∧ (((ofLine {}).stack 0).lines.map (·.tag)).Nodup
    ∧ (State.stack { State.reset with hbm := [(0, { trained := true })] } 0).fillDone = false := by decide +kernel

/-- A stack with a remap entry 0 of sector 9, a retraining that failed twice, and the gleaner at a place. -/
def ofStack (pos : Nat) : State := { State.reset with hbm := [(0, { fillDone := true, trained := true, remap := [(0, { valid := true, sector := 9, spareRow := 1 })], retrain := [(2, { busy := true, fails := 2 })], glean := { pos := pos } })] }

theorem wit_RemapRetrainGlean : ((ofStack 0).stack 0).remapBusy = false ∧ ((tget {} ((ofStack 0).stack 0).remap 0 : RemapEnt).valid = true)
    ∧ ((tget {} ((ofStack 0).stack 0).remap 0 : RemapEnt).sector ≠ 10) ∧ ((ofStack 0).stack 0).remap.Pairwise (fun x y => x.1 < y.1)
    ∧ (tget {} ((ofStack 0).stack 0).retrain 2 : Retrain).busy = true ∧ 2 ≤ (tget {} ((ofStack 0).stack 0).retrain 2 : Retrain).fails
    ∧ ((ofStack 0).stack 0).glean.ctl.getLsbD 31 = true ∧ ((ofStack 0).stack 0).serves = true
    ∧ ((ofStack 1879048191).stack 0).glean.pos + 1 = 1879048192 ∧ ((ofStack 0).stack 0).glean.overdue = false
    ∧ (((ofStack 0).stack 0).burstRead 0).1 = .clean := by decide +kernel

/-- Tables of ASID 1: the ASID table at 0, L0 at 0x10000, L1 at 0x20000, L2 at 0x30000, whose entry 0 maps 0x40000 and entry 1 is invalid. -/
def walked : State :=
  let s : State := { mapped 0 with xlate := [(0, { asidReg := 1 })] }
  [(8, 0x10001), (0x10000, 0x20001), (0x20000, 0x30001), (0x30000, 0x40033)].foldl
    (fun s e => (s.devWrite { unit := 0, asid := 0, cls := 4 } e.1 (mark false (le 8 e.2)) hintNormal).2) s

theorem wit_PageWalk : ∀ iss : Issuer, iss = { unit := uidCore 0, asid := 1, cls := 4 } →
    ((walked.xl 0).asidReg.getLsbD 0 = true) ∧ (walked.tableRead iss 8).1 = some 0x10001
    ∧ ((walked.tableRead iss 8).2.tableRead iss 0x10000).1 = some 0x20001
    ∧ (((walked.tableRead iss 8).2.tableRead iss 0x10000).2.tableRead iss 0x20000).1 = some 0x30001
    ∧ ((((walked.tableRead iss 8).2.tableRead iss 0x10000).2.tableRead iss 0x20000).2.tableRead iss 0x30000).1 = some 0x40033
    ∧ ((((walked.tableRead iss 8).2.tableRead iss 0x10000).2.tableRead iss 0x20000).2.tableRead iss 0x30008).1 = some 0
    ∧ tableGood 0x20001 = true ∧ tableGood 0x30001 = true ∧ leafGood 0x40033 false = true ∧ nbit 0x40033 10 = false
    ∧ XlateState.passes { filter := [(0, 1)] } 0 0 0x40000 65536 = true := by
  rintro iss rfl; decide +kernel

/-- A wait slot of core 0's and one of cluster DMA 0's. -/
def waiting (client : W32) : State := { ofDesc (aDesc 2 0 0) none with
  cores := [(0, { cp := { stall := .fault 0x10000 1 } })]
  xlate := [(0, { slots := [{ client := client, asid := 0, va := 0x10000, cause := 1, acc := 1 }], invals := [{ asid := 0, va := 0, len := 8, clients := [uidCore 0, 7] }] })] }

theorem wit_ReplayCancelInvalidate : ((waiting (uidCore 0)).xl 0).overflow = [] ∧ ((waiting (uidCore 0)).xl 0).slots.all (fun w => w.client == uidCore 0) = true
    ∧ ((waiting (uidCore 0)).core 0).cp.stall = .fault 0x10000 1
    ∧ ((waiting (uid 7 0)).cluster 0).dma.running.all (fun r => r.status == none && r.asid == 0 && !dFlag r.desc 3 && !dFlag r.desc 5
        && r.todo.any (fun p => (dDst r.desc p.1 + p.2.1) / 65536 == 0 && decide (0 < p.2.2))) = true
    ∧ ((waiting (uidCore 0)).xl 0).invals.map (·.clients) = [[uidCore 0, 7]] := by decide +kernel

/-- Interface 0 with a route to die code 0, and a READ of 32 bytes of stack 0. -/
def routedNet : State := { mapped 12 with netIf := [(0, { alt := [(0, pack 64 [(63, 1)])] })] }

theorem wit_NetworkRequests : ∀ p : Packet, p = { typ := 0, tag := 3, code := 1, addr := 0 } → (routedNet.ifRouter 0).isSome = true
    ∧ (routedNet.nif 0).reqs = [] ∧ (routedNet.nif 0).retired = [] ∧ routedNet.destDie p false = 0 ∧ place routedNet.dev.spreadS 0 = .dev 0 0
    ∧ (routedNet.devRead (routedNet.pktIss 0 p) 0 32 0).2.1 = .ok ∧ State.reset.routed 0 p 0 = false := by
  rintro p rfl; decide +kernel

theorem wit_ResponsesAndCirculars : ∀ p : Packet, p = { typ := 8, tag := 3, code := 0 } →
    (State.nif { State.reset with netIf := [(0, { reqs := [{ tag := 3 }], inbox := [p] })] } 0).inbox = [p]
    ∧ (State.nif { State.reset with netIf := [(0, { retired := [(3, 0)], inbox := [p] })] } 0).retired.any (fun y => y.1 == p.tag) = true
    ∧ routerExists 0 0 = true ∧ (State.reset.router 0 0).stuck = [] ∧ (tget 0 (State.reset.router 0 0).circ 5).getLsbD 63 = false
    ∧ (meshNbr 0 0 0).isSome ∨ (meshNbr 0 0 1).isSome := by
  rintro p rfl; decide +kernel

theorem wit_ResponsesAndCirculars_held : ∀ h : HeldMark, h = { circ := true } → (State.core { ofCore { heldMarks := [h] } with time := 1000010 } 0).heldMarks = [h]
    ∧ h.since + 1000000 < (1000010 : Nat) := by rintro h rfl; decide +kernel

theorem wit_PostMessagesAndBroadcast : bf (pack 64 [(60, 3), (52, 0x0D), (36, 31)]) 51 36 < 32 ∧ bf (pack 64 [(60, 4)]) 63 60 = 4 ∧ 8 ≤ bf (pack 64 [(60, 15)]) 63 60
    ∧ ({ State.reset with bcast := { active := true } } : State).bcast.active = true := by decide +kernel

/-! ## Sites, bridges, links -/

/-- A site in a state, of a standard build. -/
def ofSite (x : SiteState) : State := { State.reset with sites := [(0, x)] }
/-- The same with a guest die at site 0 (R5: GUEST_MASK bit 0, AGREEMENT 1). -/
def ofGuest (x : SiteState) : State := { ofSite x with fuse := { State.reset.fuse with population := 0x10010001 } }

/-- A capability block of a Varoft die with its CRC (R280, R281): ATTACH 0–20, P_MIN 40, P_MAX 60. -/
def aBlock : Bytes :=
  let b := recOf 252 [(0, 4, 0x3148534D), (4, 1, 1), (6, 2, 256), (8, 2, 1), (10, 2, 0x0C01), (96, 4, 0x1FFFFF), (100, 1, 1), (102, 2, 256), (104, 2, 40), (106, 2, 60),
    (108, 2, 600), (110, 2, 700), (112, 2, 800), (114, 2, 800), (116, 1, 100), (117, 1, 1), (118, 2, 1), (120, 2, 1)]
  b ++ le 4 (crc32c b)

theorem wit_SiteComesUpOrGoesDown : cbGood false aBlock = true ∧ cbMaker false aBlock = true ∧ cbGood false (zeros 256) = false
    ∧ ((ofSite { wait := .block }).site 0).wait = .block ∧ ((ofSite { wait := .grantOk }).site 0).wait = .grantOk
    ∧ ((ofSite { wait := .wires }).site 0).wait = .wires ∧ ((ofSite { wait := .linkUp }).site 0).wait = .linkUp
    ∧ (ofSite { wait := .linkUp }).narrowArray 0 = none ∧ (ofSite {}).guestSite 0 = false ∧ (ofGuest {}).guestSite 0 = true
    ∧ (State.narrowArray { ofSite {} with dev := { badCols := [(5, [0, 1, 2, 3])] } } 0).isSome = true
    ∧ slice (recOf 256 [(64, 4, 1)]) 64 32 ≠ zeros 32 := by decide +kernel

/-- R280, R281: a block whose CRC is wrong is refused: the site is down with cause 0x02. -/
theorem test_bad_block : (match exec (.capabilityBlockRead 0 (zeros 256)) (ofSite { wait := .block, mode := .negotiating }) with
    | .next t => ((t.site 0).mode == .down && (t.site 0).cause == 2) | _ => false) = true := by decide +kernel

theorem wit_SiteResets : ((ofSite { mode := .up }).site 0).mode = .up ∧ ((ofSite { mode := .resetting }).site 0).fence = false
    ∧ ((ofSite { mode := .resetting }).site 0).reqs = [] ∧ ((ofSite { mode := .resetting, again := true }).site 0).cause = 0
    ∧ ((ofSite { mode := .up, reqs := [{ iface := some 0 }] }).site 0).reqs = [{ iface := some 0 }]
    ∧ ((List.replicate 16 0).filter (fun u => decide (5 - u < 1000000000))).length = 16
    ∧ (State.part { ofGuest {} with pstate := [(0, { phase := .cleared })] } 0).phase ≠ .none := by decide +kernel

theorem wit_SiteTraffic : (tget {} ((ofSite { mode := .up, frames := [(0, { replay := [4] })] }).site 0).frames 0 : FrameLink).replay = [4]
    ∧ ((ofSite { mode := .up, frames := [(0, { replay := [4], fails := 4 })] }).site 0).frames.all (fun e => !e.2.retrain) = true
    ∧ (tget {} ((ofSite { frames := [(0, { retrain := true })] }).site 0).frames 0 : FrameLink).retrain = true
    ∧ (State.bridge { State.reset with bridges := [(0, { trained := true, frames := [(0, { replay := [4] })] })] } 0).trained = true
    ∧ ((ofGuest { mode := .up, attachEn := 1 }).site 0).attachEn.getLsbD 0 = true
    ∧ (ofGuest { mode := .up, attachEn := 1 }).ingressPass 0 0 5 { typ := 0, tag := 1, src := 0x4000 } false = false
    ∧ ((ofGuest { mode := .up, reqs := [{ att := 0, tag := 1, typ := 0, iface := some 0 }] }).site 0).reqs.length = 1
    ∧ ((ofSite { block := aBlock }).site 0).block ≠ [] := by decide +kernel

/-- R293: with 16 samples, more than 1.1 times the grant is over; at 1.1 times it is not. -/
theorem wit_SiteTraffic_power : (List.replicate 16 12).length = 16 ∧ 10 * 11 < (List.replicate 16 12).sum / 16 * 10 ∧ (List.replicate 16 11).sum / 16 * 10 ≤ 10 * 11 := by decide +kernel

/-- Port 0 in a state; its own device number is 3. -/
def ofPort (p : PortState) : State := { State.reset with links := { device := 3, ports := [(0, p)] } }

theorem wit_PortsTrainAndFall : ((ofPort {}).port 0).mode = .training ∧ ((ofPort {}).port 0).signal = false ∧ ((ofPort { mode := .down }).port 0).mode = .down
    ∧ ((ofPort { signal := true }).port 0).signal = true ∧ (5 : Nat) ≠ (ofPort {}).links.device
    ∧ ((List.range 8).filter (fun i => ((0x7F : BitVec 8) &&& 0x3F &&& ~~~0).getLsbD i)).length = 6
    ∧ ((ofPort { mode := .up }).port 0).txQ = [] ∧ ((ofPort { mode := .up }).port 0).txEx = []
    ∧ ((ofPort { mode := .up, replay := [{ seq := 9 }] }).port 0).replay = [{ seq := 9 }] ∧ ((ofPort { mode := .retraining }).port 0).mode = .retraining
    ∧ (∀ t ∈ [(2, 1), (2, 5), (3, 0), (1, 0)], ((ofPort { rxEx := [recOf 40 [(0, 1, t.1), (2, 1, 3), (8, 1, t.2)]] }).port 0).rxEx.head?.any
        (fun e => rdb e 0 == t.1 && rdb e 8 == t.2 && rdb e 2 == (ofPort {}).links.device) = true) := by decide +kernel

/-- A port that has received a record of a TYPE from device 5 for device 3. -/
def received (typ dst : Nat) : State := { mapped 12 with
  windows := [(0, { flags := 7, from_ := 5, asid := 0, base := 0, size := 4096 })]
  links := { device := 3, ports := [(0, { mode := .up, rxQ := [{ hdr := recOf 32 [(0, 1, typ), (2, 2, 9), (4, 1, 5), (5, 1, dst), (8, 2, 32)], data := zeros 32 }],
                                                reqs := [{ tag := 9, typ := 1, pkt := some (0, 1) }] })] } }

theorem wit_RemoteTraffic : (∀ typ ∈ [1, 2, 3, 4, 8, 9, 0x0A, 0x0C], ((received typ 3).port 0).rxQ.all (fun r => rdb r.hdr 0 == typ && rdb r.hdr 5 == 3 && rd r.hdr 2 2 == 9) = true)
    ∧ ((received 1 3).windowCheck 5 0 0 32 1).1 = 0 := by decide +kernel

theorem wit_RemoteTraffic_refused : ((received 1 3).port 0).reqs = [{ tag := 9, typ := 1, pkt := some (0, 1) }]
    ∧ tfind (received 1 4).links.fwd 4 = none ∧ (received 4 3).remoteShut 5 = false ∧ (5, 0) ∉ (received 4 3).links.opened
    ∧ (State.windowCheck { received 1 3 with windows := [] } 5 0 0 32 1).1 = 5 := by decide +kernel


/-! ## Letters -/

/-- A letter of an opcode: LEN, CONTEXT, SESSION and its own fields. -/
def aLetter (op len ctx sess : Nat) (l : List (Nat × Nat × Nat)) : Bytes := recOf len ([(0, 2, len), (2, 2, op), (8, 2, ctx), (12, 4, sess)] ++ l)

/-- A READY device on which function 0 of port 0 has a tray with free entries, and a letter of it is next in the order. -/
def desk (b : Bytes) : State := { State.reset with
  dev := { State.reset.dev with mode := .ready }
  hostPorts := [(0, { up := true, rate := 5, width := 16 })]
  hostFn := [(0, { taken := [(0, b)], tray := some { n := 64, ahead := 4, resLen := 0x40000 } })]
  letters := [{ src := .host 0 0 0 }] }

/-- The desk with context 0 of a loaded model 1. -/
def inCtx (b : Bytes) : State := { desk b with
  ctxs := [(0, { asid := 1, model := 1, funcs := 1 })]
  serve := { (desk b).serve with models := [(1, { loaded := true })], tables := [{ slot := 0, asid := 1 }] } }

/-- The desk with context 0 and, for VF 1 of port 0, session 1 of it with keys, a buffer 0 of 1 MiB and a request 7. -/
def inSess (b : Bytes) (key : Bool := true) : State := { inCtx b with
  ctxs := [(0, { asid := 1, model := 1, funcs := 3 })]
  hostFn := [(1, { taken := [(0, b)], tray := some { n := 64, ahead := 4, resLen := 0x40000 }, bufs := [(0, { bus := 0x100000, len := 0x100000, session := 1 })] })]
  letters := [{ src := .host 0 1 0 }]
  serve := { (inCtx b).serve with
    sessions := [(1, { p := 0, f := 1, ctx := 0, okm := if key then zeros 152 else [], hr := zeros 32 })], nextSess := 2
    reqs := [(7, { p := 0, f := 1, ctx := 0, sess := 1, phase := .waiting, outBus := 0x140000, outLen := 4096 })] } }

/-- Decides that a letter of an opcode stands at a source, has its turn and passes every check. -/
def runsB (s : State) (src : LSrc) (op : Nat) (sem : Sem) : Bool :=
  (match src with | .host p f k => decide (p < 2 ∧ f < 32 ∧ k < 64) | .mgmt k => decide (k < 4))
  && (match s.letterAt src with
    | some b => opOf b == op && s.turn src b && (match opRow op with | some row => (s.check op row sem src b).isNone | none => false)
    | none => false)

/-- What `runsB` decides is the hypothesis of the statements about letters. -/
theorem runsB_sound (s : State) (src : LSrc) (op : Nat) (sem : Sem) (h : runsB s src op sem = true) :
    ∃ b, letterRuns s src op sem b ∧ s.letterAt src = some b := by
  unfold runsB at h
  rw [Bool.and_eq_true] at h
  obtain ⟨h1, h2⟩ := h
  cases hb : s.letterAt src with
  | none => simp [hb] at h2
  | some b =>
    cases hr : opRow op with
    | none => simp [hb, hr] at h2
    | some row =>
      simp only [hb, hr, Bool.and_eq_true, beq_iff_eq, Option.isNone_iff_eq_none] at h2
      refine ⟨b, ⟨?_, hb, h2.1.1, h2.1.2, row, hr, h2.2⟩, rfl⟩
      cases src with
      | host p f k => simpa using h1
      | mgmt k => simpa using h1

/-- The checks pass where all but the letter's own conditions pass and those hold. -/
theorem runsB_own (s : State) (src : LSrc) (op : Nat) (sem : Sem) (h : runsB s src op { sem with own := fun _ _ _ => none } = true)
    (ho : ∀ b, s.letterAt src = some b → sem.own s src b = none) : runsB s src op sem = true := by
  unfold runsB at h ⊢
  cases hb : s.letterAt src with
  | none => simp [hb] at h
  | some b =>
    have := ho b hb
    simp only [hb, State.check, this] at h ⊢
    exact h

theorem wit_HostLetters : runsB (inSess (aLetter 0x0105 72 0xFFFF 0 [(32, 8, 0x10000), (40, 4, 64), (48, 8, 0x100000), (56, 4, 0x100000)])) (.host 0 1 0) 0x0105 semTraySet = true
    ∧ runsB (inSess (aLetter 0x0406 64 0xFFFF 1 [(32, 1, 1), (33, 1, 5), (40, 8, 0x300000), (48, 8, 4096)])) (.host 0 1 0) 0x0406 semBounceAdd = true
    ∧ runsB (inSess (aLetter 0x0406 64 0xFFFF 1 [(32, 1, 2), (33, 1, 0)])) (.host 0 1 0) 0x0406 semBounceWithdraw = true
    ∧ runsB (inSess (aLetter 0x0404 72 0 1 [(32, 8, 0x100000), (40, 4, 100), (44, 4, 16), (48, 8, 0x180000), (56, 4, 4096), (60, 2, 8)])) (.host 0 1 0) 0x0404 semSubmit = true
    ∧ runsB (inSess (aLetter 0x0405 48 0xFFFF 1 [(32, 4, 7)])) (.host 0 1 0) 0x0405 semCancel = true
    ∧ runsB (inSess (aLetter 0x0403 40 0xFFFF 1 [])) (.host 0 1 0) 0x0403 semSessionClose = true
    ∧ (opRow 0x0105).bind (fun row => (inSess (aLetter 0x0105 72 0xFFFF 0 [(40, 4, 65)])).check 0x0105 row semTraySet (.host 0 1 0) (aLetter 0x0105 72 0xFFFF 0 [(40, 4, 65)]))
        = some (0x0101, 40)
    ∧ (State.turn { inSess [] with letters := [] } (.host 0 1 0) []) = false := by decide +kernel

/-- A letter of function 0 of port 0 runs on a READY device without a context. -/
def deskRuns (op len : Nat) (sem : Sem) (l : List (Nat × Nat × Nat)) : Bool := runsB (desk (aLetter op len 0xFFFF 0 l)) (.host 0 0 0) op sem
/-- A letter of function 0 of port 0 that names context 0 runs. -/
def ctxRuns (op len : Nat) (sem : Sem) (l : List (Nat × Nat × Nat)) : Bool := runsB (inCtx (aLetter op len 0 0 l)) (.host 0 0 0) op sem
/-- A result letter's fields: RESULT_OFF 0 and RESULT_LEN. -/
def room (n : Nat) : List (Nat × Nat × Nat) := [(40, 4, n)]

theorem wit_SpaceLetters : deskRuns 0x0201 48 semPartitionSet [(32, 1, 2)] = true ∧ deskRuns 0x0507 64 semSpread [(32, 1, 8), (40, 2, 0), (42, 2, 96)] = true
    ∧ deskRuns 0x0501 72 semMemFill [(32, 8, 2 ^ 30), (40, 8, 64), (48, 8, 5)] = true ∧ deskRuns 0x0504 48 semFaultBag [(32, 4, 256)] = true
    ∧ ctxRuns 0x0502 72 semMapRange [(32, 8, hostVirt 0 0x10000), (40, 8, 65536), (48, 8, 0x10000), (56, 1, 1), (57, 1, 3)] = true
    ∧ ctxRuns 0x0503 56 semUnmapRange [(32, 8, 0), (40, 8, 65536)] = true := by decide +kernel

theorem wit_ContextLetters : ctxRuns 0x0204 48 semSchedule [(32, 1, 1), (34, 2, 5)] = true ∧ ctxRuns 0x0203 40 semDestroy [] = true
    ∧ runsB (inCtx (aLetter 0x0202 104 0xFFFF 0 [(32, 4, 1), (42, 2, 1), (44, 4, 100), (48, 4, 8), (56, 8, 1)])) (.host 0 0 0) 0x0202 semContextCreate = true
    ∧ (inCtx []).freeCtx = some 1 ∧ ((inCtx []).ptNew 2 0 0).isSome = true ∧ ((inCtx []).ptGet 1 2 (hostVirt 0 0x10000)).isSome = true
    ∧ runsB { inCtx (aLetter 0x0505 80 0xFFFF 0 [(32, 1, 3), (40, 1, 7), (41, 1, 0xFF), (42, 2, 1), (56, 8, 65536)]) with
        ctxs := [(0, { asid := 1, model := 1, multi := true })] } (.host 0 0 0) 0x0505 semWindow = true
    ∧ runsB (inCtx (aLetter 0x0506 56 0xFFFF 0 [(32, 4, 1024), (36, 4, 100), (40, 8, 1)])) (.host 0 0 0) 0x0506 semMigrate = true
    ∧ State.isBusy { inCtx (aLetter 0x0503 56 0 0 [(40, 8, 65536)]) with letters := [{ src := .host 0 0 0, busy := true }] } (.host 0 0 0) = true
    ∧ (inCtx []).unmapWaits 1 0 65536 = false ∧ (inCtx []).current 0 = false ∧ (inCtx []).slicesOf 0 ≠ []
    ∧ State.unmapWaits { inCtx [] with xlate := [(0, { invals := [{ asid := 1, va := 0, len := 65536, clients := [5] }] })] } 1 0 65536 = true := by decide +kernel

/-- R242: the ASID of a destroyed context is cleared; while an invalidation of it waits, the letter waits. -/
theorem wit_ContextLetters_destroy : (inCtx []).destroyDone 0 = true
    ∧ State.destroyDone { inCtx [] with xlate := [(0, { invals := [{ asid := 1, va := 0, len := 2 ^ 52, clients := [5] }] })] } 0 = false := by decide +kernel

theorem wit_ReportLetters : deskRuns 0x0101 56 (Sem.readFree (fun s _ => s.identity)) (room 8192) = true ∧ deskRuns 0x0102 56 (Sem.read (fun s _ => s.capTable)) (room 16384) = true
    ∧ deskRuns 0x0902 56 (Sem.read (fun s _ => s.bistReport)) (room 1024) = true
    ∧ deskRuns 0x0A02 56 (Sem.readFree (fun s _ => s.thermal)) (room 8192) = true
    ∧ deskRuns 0x0B01 56 (Sem.read (fun s _ => ((List.range 16).map s.linkRec).flatten)) (room 1024) = true
    ∧ deskRuns 0x0B03 56 (Sem.read (fun s _ => ((List.range 12).map s.siteRec).flatten)) (room 1024) = true
    ∧ deskRuns 0x0103 72 semLogRead (room 640 ++ [(56, 4, 8)]) = true ∧ deskRuns 0x0A05 64 semMargin (room 1024) = true
    ∧ deskRuns 0x0A05 64 semMargin (room 1024 ++ [(48, 1, 1)]) = true := by decide +kernel

theorem certEntry_length (k n : Nat) (d : Bytes) (h : d.length ≤ n) : (certEntry k d).length ≤ n + 16 := by
  have : (recOf 8 [(0, 1, k), (4, 4, d.length)]).length = 8 := by simp [recOf, putBytes, le]
  simp only [certEntry, List.length_append, zeros, List.length_replicate, this]
  omega

/-- R408, R464: before the ROM's certificates the chain is the header, an empty entry, and three of the identity area, of 60 KiB in all. -/
theorem wit_ReportLetters_chain : deskRuns 0x0703 56 (Sem.read (fun s _ => s.certChain)) (room 200000) = true := by
  refine runsB_own _ _ _ _ (by decide +kernel) ?_
  intro b hb
  have hn : rd b 40 4 = 200000 := by
    have : (State.letterAt (desk (aLetter 0x0703 56 0xFFFF 0 (room 200000))) (.host 0 0 0)) = some (aLetter 0x0703 56 0xFFFF 0 (room 200000)) := by decide +kernel
    rw [this] at hb; cases hb; decide +kernel
  have ht : ((desk (aLetter 0x0703 56 0xFFFF 0 (room 200000))).fn 0 0).tray = some { n := 64, ahead := 4, resLen := 0x40000 } := by decide +kernel
  have e0 : (certEntry 1 []).length = 8 := by decide +kernel
  have ec : ∀ k, (certEntry k (idCert k)).length ≤ 61440 + 16 := fun k => certEntry_length _ _ _ (by simp only [idCert, List.length_take]; omega)
  have hl : (State.certChain (desk (aLetter 0x0703 56 0xFFFF 0 (room 200000)))).length ≤ 200000 := by
    have h1 := ec 3
    have h2 := ec 4
    have h3 := ec 5
    have : State.certChain (desk (aLetter 0x0703 56 0xFFFF 0 (room 200000)))
        = le 4 4 ++ zeros 4 ++ certEntry 1 [] ++ certEntry 3 (idCert 3) ++ certEntry 4 (idCert 4) ++ certEntry 5 (idCert 5) := by rfl
    rw [this]
    have e1 : (le 4 4 ++ zeros 4).length = 8 := by decide +kernel
    simp only [List.length_append] at e1 ⊢
    omega
  simp only [Sem.read, State.tooSmall, ht, hn]
  rw [if_neg]
  simp; exact hl

theorem wit_ReportLetters_rest : ctxRuns 0x0602 64 semHistogram (room 8192 ++ [(48, 1, 1)]) = true
    ∧ ctxRuns 0x0605 128 semCapacity (room 128 ++ [(48, 4, 1), (52, 1, 1), (56, 4, 128), (60, 2, 10000)]) = true
    ∧ runsB { desk (aLetter 0x0605 128 0xFFFF 0 (room 128 ++ [(48, 4, 1), (52, 1, 1), (56, 4, 128), (60, 2, 10000)])) with
        serve := { State.reset.serve with models := [(1, { loaded := true })] } } (.host 0 0 0) 0x0605 semCapacity = true
    ∧ deskRuns 0x0701 88 semAttest (room 32768) = true ∧ ctxRuns 0x0603 88 semReceipt (room 32768) = true := by decide +kernel

theorem wit_ReportLetters_units : deskRuns 0x0604 64 (Sem.read (fun s b => s.stats b) (fun _ _ => []) (fun _ _ b => firstBad [(!statsKnown (rd b 48 4), 48)])
      (fun s _ b => if statsKnown (rd b 48 4) ∧ s.statsVacant (rd b 48 4) then some 48 else none)) (room 512 ++ [(48, 4, 0x03000000)]) = true
    ∧ deskRuns 0x0104 64 (Sem.read (fun s b => s.nvSlots b) (fun s _ => [BitVec.ofNat 8 s.nvNewest])
          (fun _ _ b => firstBad [(decide (rdb b 48 > 63), 48), (decide (rdb b 49 < 1 ∨ rdb b 49 > 64), 49)])) (room 4096 ++ [(49, 1, 2)]) = true
    ∧ (desk []).serves = true ∧ ((desk []).fn 0 0).tray.isSome = true ∧ ((desk []).site 0).block = [] ∧ State.reset.sec.bistResult = []
    ∧ (desk []).sec.sig = none ∧ (desk []).sec.sigQ = [] ∧ (desk []).sec.unlock = none ∧ (desk []).sec.activate = none ∧ (desk []).board.resetDue = false := by decide +kernel

theorem wit_ManageLetters : deskRuns 0x0A01 48 semPowerCap [(32, 2, 3000)] = true ∧ deskRuns 0x0A03 56 semCalSet [(32, 2, 1), (40, 2, 483), (42, 2, 500)] = true
    ∧ deskRuns 0x0A04 40 semCalSave [] = true ∧ deskRuns 0x0903 88 semFlip [(32, 1, 11), (33, 1, 3)] = true
    ∧ deskRuns 0x0A06 88 semBandwidth [(32, 1, 1), (33, 1, 16), (34, 1, 1), (40, 4, 131071)] = true ∧ deskRuns 0x0803 48 semSettingsSave [(32, 1, 1)] = true
    ∧ deskRuns 0x0B02 80 semLinkRetrain [(34, 1, 1), (35, 1, 9)] = true ∧ deskRuns 0x0B02 80 semLinkRetrain [(32, 2, 8)] = true
    ∧ ctxRuns 0x0601 64 semContractSet [(40, 2, 9000), (42, 2, 9000), (48, 4, 60)] = true ∧ deskRuns 0x0901 48 semBistRun [(32, 1, 3)] = true := by decide +kernel

/-- R495: a run of logic and memory in progress on the desk. -/
def tested : State := { desk [] with works := [{ kind := .bist 3 }], sec := { (desk []).sec with bistStart := 0 } }

theorem wit_ManageLetters_bist : tested.works.find? (fun w => match w.kind with | .bist _ => true | _ => false) = some { kind := .bist 3 }
    ∧ State.reset.dev.saveSecs = [] ∧ ({ (desk []).dev with saveSecs := [1] }).saveSecs ≠ [] ∧ tested.bistTests 12 = true := by decide +kernel

theorem wit_SecurityCommands : runsB (inSess (aLetter 0x0401 96 0 0 (room 65536))) (.host 0 1 0) 0x0401 semSessionOpen = true
    ∧ runsB (inSess (aLetter 0x0402 1640 0xFFFF 1 []) false) (.host 0 1 0) 0x0402 semSessionKey = true
    ∧ (∀ x ∈ [0, 1], deskRuns 0x0702 64 (semUnlock []) [(32, 1, x)] = true) ∧ deskRuns 0x0802 40 semFwActivate [] = false
    ∧ runsB { desk (aLetter 0x0802 40 0xFFFF 0 []) with flash := { State.reset.flash with staged := 2 } } (.host 0 0 0) 0x0802 semFwActivate = true
    ∧ runsB { desk (aLetter 0x0801 56 0xFFFF 0 [(32, 8, 0x100000), (40, 8, 4096)]) with hostFn := [(0, { taken := [(0, aLetter 0x0801 56 0xFFFF 0 [(32, 8, 0x100000), (40, 8, 4096)])], tray := some { n := 64, ahead := 4 }, bufs := [(0, { bus := 0x100000, len := 0x100000 })] })] }
        (.host 0 0 0) 0x0801 semFwStage = true
    ∧ runsB { desk (aLetter 0x0301 96 0xFFFF 0 [(32, 8, 0x100000), (40, 8, 4096)]) with hostFn := [(0, { taken := [(0, aLetter 0x0301 96 0xFFFF 0 [(32, 8, 0x100000), (40, 8, 4096)])], tray := some { n := 64, ahead := 4 }, bufs := [(0, { bus := 0x100000, len := 0x100000 })] })] }
        (.host 0 0 0) 0x0301 semModelLoad = true
    ∧ runsB { desk (aLetter 0x0302 48 0xFFFF 0 [(32, 4, 1)]) with serve := { State.reset.serve with models := [(1, { loaded := true })] } } (.host 0 0 0) 0x0302 semModelUnload = true
    ∧ (desk []).mayDestroyAll = true := by decide +kernel

/-- R371, R420: a staging and a load of model 1 in progress. -/
def loading : State := { desk [] with works := [{ kind := .fwStage }, { kind := .modelLoad 1 }], serve := { State.reset.serve with models := [(1, {})] } }

theorem wit_SecurityCommands_works : loading.works.find? (fun w => w.kind == .fwStage) = some { kind := .fwStage }
    ∧ loading.works.find? (fun w => w.kind == .modelLoad 1) = some { kind := .modelLoad 1 } ∧ (envHeader [] 4096).isSome = true
    ∧ ({ sigOk := false } : FwImage).sigOk = false ∧ ({ sigOk := true, sv := 0 } : FwImage).badPart = none
    ∧ (({ } : SigJob)).mute = false := by decide +kernel

/-- R377: request 7 of the session is being pulled. -/
def pulling : State := { inSess [] with serve := { (inSess []).serve with reqs := [(7, { p := 0, f := 1, ctx := 0, sess := 1, phase := .pulling })] } }

theorem wit_PromptRecords : pulling.req 7 = some { p := 0, f := 1, ctx := 0, sess := 1, phase := .pulling } ∧ (pulling.sess 1).okm ≠ []
    ∧ (∀ r, (inSess []).req 9 = some r → r.phase ≠ .pulling) ∧ (pulling.sess 1).win = []
    ∧ rd (zeros 64) 0 4 ≠ 0x31534C5A := by
  refine ⟨by decide +kernel, by decide +kernel, ?_, by decide +kernel, by decide +kernel⟩
  intro r h
  have : (inSess []).req 9 = none := by decide +kernel
  rw [this] at h; cases h

/-! ## Host interface -/

/-- A letter as the host writes it: with its franking word (R328). -/
def franked (op len sender seq : Nat) (l : List (Nat × Nat × Nat)) : Bytes :=
  let b := recOf len ([(0, 2, len), (2, 2, op), (6, 1, sender), (8, 2, 0xFFFF), (10, 2, seq), (len - 8, 2, seq)] ++ l)
  putBytes b (len - 4) (le 4 (crc32c (b.take (len - 4))))

/-- CAPS_GET of PF0 of port 0. -/
def caps : Bytes := franked 0x0102 56 0 5 [(40, 4, 16384)]

theorem wit_AnswersAndFranking : (desk caps).letterAt (.host 0 0 0) = some caps ∧ ((desk caps).fn 0 0).held = [] ∧ (inSess []).fn 0 0 = {}
    ∧ (∃ t, ((desk caps).fn 0 0).tray = some t ∧ 0 < t.ahead) ∧ rd caps 0 2 = 56 ∧ rd caps 48 2 = rd caps 10 2 ∧ rd caps 52 4 = crc32c (caps.take 52)
    ∧ (opRow 0x0102).isSome = true ∧ opRow 0x0FFF = none ∧ rd caps 6 1 = 0 ∧ (desk caps).frankCheck (.host 0 0 0) caps = none
    ∧ (desk []).frankCheck (.host 0 0 0) (franked 0x0102 56 64 5 []) = some (0x0200, 0)
    ∧ (desk []).frankCheck (.host 0 0 0) (franked 0x0102 56 0 5 [(48, 2, 6)]) = some (0x0103, 0)
    ∧ (inSess []).frankCheck (.host 0 0 0) caps = some (0x0200, 0) :=
  ⟨by decide +kernel, by decide +kernel, by decide +kernel, ⟨_, rfl, by decide⟩, by decide +kernel⟩

theorem wit_HostLetterbox : (desk []).serves = true ∧ ((desk []).hport 0).up = true ∧ tfind ((desk []).fn 0 0).taken 0 ≠ none
    ∧ tfind ((desk []).fn 0 0).taken 1 = none ∧ (zeros 512).length ≤ 512 ∧ rd caps 2 2 ≠ 0x0404
    ∧ unle (mread (mwrite [] 4096 caps) 4096 2) = 56 ∧ tfind (desk []).mgmt.taken 0 = none ∧ (∃ t, ((desk []).fn 0 0).tray = some t ∧ t.full = false)
    ∧ ((desk []).ifRouter 0).isSome = true ∧ (0x41 : Nat) % 4 ≠ 0 ∧ (7 : Nat) ∉ [1, 2, 4, 8] :=
  ⟨by decide +kernel, by decide +kernel, by decide +kernel, by decide +kernel, by decide +kernel, by decide +kernel, by decide +kernel, by decide +kernel,
    ⟨_, rfl, by decide⟩, by decide +kernel, by decide, by decide⟩

/-- R327, R328: the write of byte T − 1 takes the letter, and it enters the order of the letters. -/
theorem test_letter_taken : (match exec (.letterboxWrite 0 0 4096 caps) { desk [] with
      hostFn := [(0, { taken := [(0, [])], tray := some { n := 64, ahead := 4 }, lb := mwrite [] 4096 [56, 0] })] } with
    | .next t => t.letterAt (.host 0 0 1) == some caps && t.letters.length == 2 | _ => false) = true := by decide +kernel

/-- R327: a write to a TAKEN slot is discarded and counted. -/
theorem test_taken_slot : (match exec (.letterboxWrite 0 0 8 [1]) (desk []) with
    | .next t => (t.fn 0 0).discarded == 1 && (t.fn 0 0).lb == [] | _ => false) = true := by decide +kernel

theorem wit_HostLetterbox_full : ∃ s : State, (s.fn 0 0).msiPend = true ∧ (∃ t, (s.fn 0 0).tray = some t ∧ t.full = true ∧ 0 < t.virgin) ∧ (s.fn 0 0).held = []
    ∧ (∀ j, j < 4 → tfind s.mgmt.taken j ≠ none) ∧ s.dev.mode ≠ .off ∧ 3 ≤ s.board.stage :=
  ⟨{ desk [] with hostFn := [(0, { tray := some { n := 64, virgin := 64, full := true }, msiPend := true })], board := { State.reset.board with stage := 12 }, mgmt := { taken := [(0, []), (1, []), (2, []), (3, [])] } },
    by decide, ⟨_, rfl, by decide, by decide⟩, by decide, by decide, by decide, by decide⟩

theorem wit_PortResets : (∃ q, tfind (inSess []).serve.sessions 1 = some q ∧ q.okm ≠ []) ∧ (∃ q, tfind (inSess [] false).serve.sessions 1 = some q ∧ q.okm = [])
    ∧ (∃ b : BoardState, tget false b.perstN 1 = true ∧ 5 ≤ b.stage) :=
  ⟨⟨_, rfl, by decide⟩, ⟨_, rfl, by decide⟩, ⟨{ perstN := [(1, true)], stage := 5 }, by decide, by decide⟩⟩

/-! ## Serving -/

/-- Partition 0 runs a step of request 7, decoding, of context 0; its session's keys are zero. -/
def stepping : State := { inSess [] with serve := { (inSess []).serve with
  reqs := [(7, { p := 0, f := 1, ctx := 0, sess := 1, phase := .decoding, head := zeros 224, maxOut := 4 })], sched := [(0, { run := some { rows := [7] } })] } }

theorem wit_StepsAndSwitches : (inSess []).schedules 0 = true ∧ State.reset.schedules 0 = false ∧ (stepping.sched 0).run = some { rows := [7] }
    ∧ stepping.sec.drbgStop = false ∧ (∃ q, stepping.req 7 = some q ∧ q.phase = .decoding ∧ q.fin = none ∧ rd q.head 4 4 = 0)
    ∧ (stepping.part 0).phase = .none ∧ (stepping.part 0).reports = [] ∧ (stepping.sess 1).tokSeq < 2 ^ 64 - 1 :=
  ⟨by decide +kernel, by decide +kernel, by decide +kernel, by decide +kernel, ⟨_, rfl, by decide +kernel, by decide +kernel, by decide +kernel⟩,
    by decide +kernel, by decide +kernel, by decide +kernel⟩

/-- Context 0 has a runnable request and is next in the round; partition 0 runs no context yet. -/
theorem wit_StepsAndSwitches_switch : ((inSess []).openRound 0).nextPick 0 = some 0 ∧ (inSess []).current 0 = false ∧ (inSess []).currentOf 0 = none := by decide +kernel

/-- R390, R391: three meter events of request 3 of context 0 wait; it has begun. -/
theorem wit_MeterAndContracts : ∃ s : State, s.serve.events = [(.token, 3, 0)] ∧ (∃ r, tfind s.serve.mreqs 3 = some r ∧ r.ctx < 64 ∧ r.lastTok = some 5)
    ∧ s.ctxs = [(0, {})] ∧ (s.mctx 0).contract ≠ [] ∧ ctTtft (s.mctx 0).contract = 0 ∧ ctItl (s.mctx 0).contract = 0 ∧ ctRate (s.mctx 0).contract ≠ 0
    ∧ 1000000000 ≤ ((s.busyTouch 0).mctx 0).cur.busy ∧ ((s.fn 0 0).tray.isSome = true)
    ∧ ((s.busyTouch 0).mctx 0).cur.tokens * 100 * 1000000000 ≤ ctRate (s.mctx 0).contract * (100 + rd (s.mctx 0).contract 20 2) * ((s.busyTouch 0).mctx 0).cur.busy
    ∧ 1 ∉ ((s.busyTouch 0).mctx 0).warned ∧ s.time < ((s.busyTouch 0).mctx 0).cur.start + rd (s.mctx 0).contract 16 4 * 1000000000 :=
  ⟨{ desk [] with ctxs := [(0, {})], serve := { State.reset.serve with events := [(.token, 3, 0)], mreqs := [(3, { lastTok := some 5 })], meter := [(0, { contract := recOf 24 [(0, 4, 7), (16, 4, 60)], cur := { busy := 2000000000 } })] } },
    by decide +kernel, ⟨_, rfl, by decide +kernel, by decide +kernel⟩, by decide +kernel, by decide +kernel, by decide +kernel, by decide +kernel, by decide +kernel,
    by decide +kernel, by decide +kernel, by decide +kernel, by decide +kernel, by decide +kernel⟩

/-- R391: E_8 is 32,000 ns. -/
theorem test_edge : binEdge 8 = 32000 ∧ binOf 31999 = 8 ∧ binOf 32000 = 9 := by decide +kernel

theorem wit_FaultBagAndBatches : ∃ s : State, ∃ m, s.bag.msgs = [m] ∧ m.cause ≠ 0x10 ∧ m.die < 16 ∧ (∃ e, s.bag.openB = some [e] ∧ e.asid = m.asid ∧ e.page = m.page ∧ e.cause ≠ 0x10)
    ∧ s.bag.waiting = [] ∧ s.bag.used + 1 + 1 ≤ s.bag.size ∧ (∃ b rest, s.bag.ring = b :: rest ∧ ∀ e ∈ b.entries, e.cause = 0x10 ∨ nbit e.access 4 = true) :=
  ⟨{ desk [] with bag := { msgs := [{ page := 65536, asid := 1, cause := 1 }], openB := some [{ page := 65536, asid := 1, cause := 1 }], ring := [{ num := 1, entries := [{ page := 65536, cause := 1, access := 16 }] }] } }, { page := 65536, asid := 1, cause := 1 },
    by decide +kernel, by decide, by decide, ⟨_, rfl, by decide, by decide, by decide⟩, by decide +kernel, by decide +kernel, ⟨_, _, rfl, by decide⟩⟩

theorem wit_FaultBag_service : ∃ s : State, ∃ b, s.bag.ring = [b] ∧ (∃ e, b.entries = [e] ∧ nbit e.access 4 = false ∧ e.cause ≠ 0x10 ∧ e.cause ≠ xOffloaded ∧ e.cause ≠ xTableError)
    ∧ s.bag.forward = false :=
  ⟨{ desk [] with bag := { ring := [{ num := 1, entries := [{ page := 65536, cause := 1 }] }], forward := false } }, _, rfl, ⟨_, rfl, by decide, by decide, by decide, by decide⟩, rfl⟩

/-! ## Power -/

theorem wit_RoundsAndComparators : (desk []).dev.mode ≠ .off ∧ (desk []).checked 12 = true ∧ 192 ∈ dieSensors 12 ∧ (192 : Nat) ∉ (desk []).pwr.suspect
    ∧ (∃ x ∈ neighbours 192, x ∉ (desk []).pwr.suspect) ∧ nbMedian [(193, 2700), (198, 2700)] [] 192 = some 2700
    ∧ (State.junction { desk [] with pwr := { State.reset.pwr with vals := [(192, 2544)] } } 12).isSome = true ∧ (desk []).upSites = [] :=
  ⟨by decide +kernel, by decide +kernel, by decide +kernel, by decide +kernel, ⟨193, by decide +kernel, by decide +kernel⟩, by decide +kernel, by decide +kernel, by decide +kernel⟩

/-- R445: 95 °C on a field die is WARNING. -/
theorem test_warning : (match exec (.housekeepingRound [(192, some 2544)]) { desk [] with board := { State.reset.board with stage := 12 } } with
    | .next t => (t.pd 12).warn && !(t.pd 12).thr && t.pwr.rounds == 1 | _ => false) = true := by decide +kernel

theorem wit_PowerMessages : ((desk []).stack 0).refreshNext = none ∧ (∃ x : StackState, x.refreshNext = some 2) ∧ ((ofSite { mode := .up }).site 0).mode = .up
    ∧ (ofSite { mode := .up }).guestSite 0 = false ∧ (ofGuest { mode := .up }).guestSite 0 = true ∧ ((ofGuest { mode := .up }).site 0).mode = .up
    ∧ (desk []).clocksHeld = false ∧ (∃ x : PowerDie, x.kNext = some 3) ∧ (desk []).dev.mode ≠ .off ∧ (∃ x : PowerState, x.measuring = true)
    ∧ (dieSensors 12)[0 + 3]? = some 195 :=
  ⟨by decide +kernel, ⟨{ refreshNext := some 2 }, rfl⟩, by decide +kernel, by decide +kernel, by decide +kernel, by decide +kernel, by decide +kernel,
    ⟨{ kNext := some 3 }, rfl⟩, by decide +kernel, ⟨{ measuring := true }, rfl⟩, by decide +kernel⟩

/-! ## Start, off, resets -/

/-- Before a start: every condition but the inrush holds. -/
def beforeStart : State := { State.reset with
  board := { State.reset.board with pwrEn := true }, flash := { State.reset.flash with slots := [(0, { sigOk := true }), (1, { sigOk := true })] } }

theorem wit_StartOfDevice : startsAt { beforeStart with board := { beforeStart.board with inrush := true } } ∧ ¬ startsAt beforeStart
    ∧ tfind beforeStart.flash.slots beforeStart.flash.active = some { sigOk := true } ∧ beforeStart.flash.trial = false ∧ beforeStart.flash.fusedSv ≤ 0
    ∧ rejects 0 (some { sigOk := false }) ≠ none ∧ rejects 0 none ≠ none :=
  ⟨by unfold startsAt; decide +kernel, by unfold startsAt; decide +kernel, by decide +kernel, by decide +kernel, by decide +kernel, by decide +kernel, by decide +kernel⟩

/-- R468: with the ACTIVE image good, the end of the inrush starts the device and the ROM runs it. -/
theorem test_start : (match exec .inrushComplete beforeStart with
    | .next t => t.dev.mode == .starting && t.board.stage == 4 && t.links.ownInc == 1 | _ => false) = true := by decide +kernel

theorem wit_StartOfDevice_stages : ∃ s : State, s.dev.mode = .starting ∧ s.board.halted = false ∧ s.board.stage = 6 ∧ (s.stack 0).trained = false ∧ (s.stack 0).lost = false
    ∧ (s.stack 1).lost = true ∧ 0 < s.log.dropped ∧ s.board.hotHold = false :=
  ⟨{ State.reset with dev := { State.reset.dev with mode := .starting }, board := { State.reset.board with stage := 6 }, hbm := [(1, { lost := true })], log := { dropped := 2 } },
    by decide +kernel, by decide +kernel, by decide +kernel, by decide +kernel, by decide +kernel, by decide +kernel, by decide +kernel, by decide +kernel⟩

/-- All that READY needs, with stacks that all serve; and the same with stack 0 lost. -/
theorem wit_StartOfDevice_ready : (∀ l ∈ [false, true], ∃ s : State, s.dev.mode = .starting ∧ s.board.halted = false ∧ s.board.hotHold = false ∧ s.board.pllHold = false
    ∧ s.board.tripping = false ∧ 6 ≤ s.board.stage ∧ s.pwr.measuring = false ∧ (∀ n, n < 12 → (s.site n).mode = .up ∨ (s.site n).mode = .down)
    ∧ (∀ k, k < 12 → (s.stack k).fillDone = true ∨ (s.stack k).lost = true) ∧ (s.stack 0).lost = l) := by
  intro l _
  refine ⟨{ State.reset with
    dev := { State.reset.dev with mode := .starting }, board := { State.reset.board with stage := 6 }
    sites := (List.range 12).map (fun n => (n, { mode := .up })), hbm := (List.range 12).map (fun k => (k, { fillDone := true, lost := l && k == 0 })) },
    rfl, rfl, rfl, rfl, rfl, ?_, rfl, ?_, ?_, ?_⟩ <;> cases l <;> decide +kernel

theorem wit_WaysOff : pins State.reset.board = (false, false, true, false, false, false) ∧ pins { State.reset.board with thermtrip := true, pwrEn := true } = (false, true, true, true, false, false)
    ∧ (∃ b : BoardState, b.resetDue = true ∧ b.pllHold = true ∧ b.tripping = true) ∧ State.reset.dev.mode = .off ∧ (desk []).dev.mode ≠ .off :=
  ⟨by decide +kernel, by decide +kernel, ⟨{ resetDue := true, pllHold := true, tripping := true }, rfl, rfl, rfl⟩, by decide +kernel, by decide +kernel⟩

theorem wit_ResetsOfScopes : (desk []).guestCore 0 = false ∧ ((desk []).part 0).phase = .none ∧ ((ofCore { stopped := true }).core 0).stopped = true
    ∧ (ofCore { stopped := true }).clusterStopped 0 = false ∧ State.clusterStopped { State.reset with clusters := [(0, { dma := { stopped := true } })], cores := (List.range 8).map (fun g => (g, { stopped := true })) } 0 = true
    ∧ (State.hdma { State.reset with hubDma := [(0, { stopped := true })] } 0).stopped = true ∧ (State.sv { State.reset with sieve := [(0, { stopped := true })] } 0).stopped = true
    ∧ (State.win { State.reset with winnow := [(0, { stopped := true })] } 0).stopped = true ∧ ((desk []).ifRouter 0).isSome = true
    ∧ (State.xl { State.reset with xlate := [(12, { invals := [{ clients := [uidCore 5] }] })] } 12).invals.any (fun q => q.clients.contains (uidCore 5)) = true := by decide +kernel

theorem wit_ResetsOfScopes_partition : (State.part { State.reset with pstate := [(0, { reports := [(0x0602, 0)] })] } 0).reports ≠ []
    ∧ runsB (desk (aLetter 0x0205 48 0xFFFF 0 [(33, 1, 1)])) (.host 0 0 0) 0x0205 semPartitionReset = true
    ∧ (State.part { State.reset with pstate := [(0, { phase := .stopped })] } 0).phase = .stopped
    ∧ (State.part { State.reset with pstate := [(0, { phase := .cleared })] } 0).phase = .cleared ∧ State.reset.guestsBack 0 = true := by decide +kernel

/-! ## The machine as a whole -/

/-- A queue of two commands, and none. -/
theorem wit_FrontCommand : ({ State.reset with pending := [.logMessage, .pohTick] } : State).pending = .logMessage :: [.pohTick] ∧ State.reset.pending = []
    ∧ State.reset.dev.mode = .off ∧ (desk []).dev.mode ≠ .off ∧ (desk []).pending = [] := by decide +kernel

/-- R435: one edge of TBCLK in a powered device. -/
theorem test_tick : (match step (desk []) with | .next t => t.time == 10 | _ => false) = true := by decide +kernel

/-- The invariant holds at reset, and a step from it answers a next state. -/
theorem wit_StepKeepsInvariant : State.reset.inv ∧ ∃ t, step { State.reset with pending := [.inrushComplete] } = .next t := by
  refine ⟨⟨rfl, by unfold State.intakeWf; decide, fun g => ?_, fun k => ?_, fun i => ?_⟩, _, rfl⟩ <;> rfl

theorem wit_ThermtripLatch : (∃ s : State, s.board.thermtrip = true) ∧ State.reset.board.inrush = false
    ∧ ∃ s : State, s.dev.mode = .starting ∧ s.board.halted = false ∧ s.board.stage = 5 ∧ s.board.hotHold = false :=
  ⟨⟨{ State.reset with board := { State.reset.board with thermtrip := true } }, rfl⟩, rfl,
    ⟨{ State.reset with dev := { State.reset.dev with mode := .starting }, board := { State.reset.board with stage := 5 } }, rfl, rfl, rfl, rfl⟩⟩

theorem wit_LogEntriesPerMillisecond : ({} : LogMsg).count = 1 ∧ ({} : LogState).intake.length + [5, 6].length + 2 ≤ 256 ∧ ({} : LogMsg).cls ≠ 3 ∧ ({} : LogMsg).cls ≠ 4
    ∧ (∀ x ∈ [5, 6], 5 ≤ x ∧ x < 5 + 1000000) ∧ ({ cls := 3 } : LogMsg).cls = 3 ∧ ((7 : Nat), (0 : W32)) ≠ (({} : LogMsg).code, ({} : LogMsg).unit) := by decide +kernel

/-! ## Ill-formed commands -/

/-- R19, R22: a command that names no unit of the package is not well formed: one for each kind of unit. -/
theorem test_ill_formed : ([.inLoad 2016 0, .inLoad 0 4, .vadd 2016, .ccOpDone 252, .copy (.cdma 252) 0, .copy (.hdma 32) 0, .bucketTick 12, .sieveRequestStart 16,
    .winnowTakeToken 4, .pageWalkComplete 16 0 0 0 0 0, .packetData 252, .packetData 392, .packetCircWrite 4 24 {} .good, .barrierArrive 4 1 0 0, .grantOk 12, .powerReport 16 0,
    .bridgeFrame 4 0 0 false 0 false, .linkLoss 16, .portReset 2 .flr, .trayStampRead 0 32 [], .vfFlr 0 0, .stepStart 4, .identify (.host 0 0 64), .identify (.mgmt 4),
    .unitReset (.core 2016), .unitReset (.cluster 252), .unitReset (.eng (.hdma 32)), .unitReset (.sieve 16), .unitReset (.winnow 4), .unitReset (.partition 4),
    .registerWrite (.bar 2 0 0 4) 0] : List Instr).all (fun i => !i.wf) = true := by decide +kernel
end Sys2Proof.Tests
end

section
/-! SUPPORT. What the letterbox, the trays and the register accesses do, and the obligation about them. -/
namespace Sys2Proof.Machine

/-! ## The commands of the host interface -/

@[simp] theorem exec_letterboxWrite (p f off : Nat) (d : Bytes) (s : State) :
    exec (.letterboxWrite p f off d) s = execLetterboxWrite p f off d s := rfl
@[simp] theorem exec_mctpLetter (m : Bytes) (s : State) : exec (.mctpLetter m) s = execMctpLetter m s := rfl
@[simp] theorem exec_trayStampRead (p f : Nat) (z : List Bool) (s : State) :
    exec (.trayStampRead p f z) s = execTrayStampRead p f z s := rfl
@[simp] theorem exec_trayFullReread (p f : Nat) (z : List Bool) (s : State) :
    exec (.trayFullReread p f z) s = execTrayFullReread p f z s := rfl
@[simp] theorem exec_msixModerationExpire (p f : Nat) (s : State) :
    exec (.msixModerationExpire p f) s = execMsixModerationExpire p f s := rfl
@[simp] theorem exec_registerWrite (r : RegAt) (v : W64) (s : State) : exec (.registerWrite r v) s = execRegisterWrite r v s := rfl

theorem atFn_of_lt {p f : Nat} (hp : p < 2) (hf : f < 32) (s : State) : atFn p f s = .next s := if_pos ⟨hp, hf⟩

@[simp] theorem State.setFn_setFn (s : State) (p f : Nat) (x y : HostFunc) : (s.setFn p f x).setFn p f y = s.setFn p f y := by
  simp [State.setFn]

/-! ## Byte strings -/

/-- The number that `n` little-endian bytes spell. -/
theorem unle_le (n : Nat) : ∀ v, unle (le n v) = v % 256 ^ n := by
  induction n with
  | zero => intro v; simp [le, unle, Nat.mod_one]
  | succ n ih =>
    intro v
    have hb : (BitVec.ofNat 8 v).toNat = v % 256 := by simp
    rw [le, unle, ih, hb, Nat.pow_succ', Nat.mod_mul]

@[simp] theorem le_length (n : Nat) : ∀ v, (le n v).length = n := by
  induction n with
  | zero => intro v; rfl
  | succ n ih => intro v; simp [le, ih]

@[simp] theorem putBytes_length (b : Bytes) (o : Nat) (new : Bytes) : (putBytes b o new).length = b.length := by
  simp [putBytes]; omega

/-- A field that ends before the bytes replaced is as it was. -/
theorem rd_putBytes_before {b : Bytes} {o i n : Nat} (new : Bytes) (hi : i + n ≤ o) (ho : o ≤ b.length) :
    rd (putBytes b o new) i n = rd b i n := by
  unfold rd putBytes
  rw [List.take_drop, List.take_drop, List.take_take, List.append_assoc, List.take_append_of_le_length (by simp; omega), List.take_take]
  congr 3; omega

/-- The field just put in. -/
theorem rd_putBytes_same {b : Bytes} {o n : Nat} {new : Bytes} (hn : new.length = n) (h : o + n ≤ b.length) :
    rd (putBytes b o new) o n = unle new := by
  subst hn
  have hl : (b.take o).length = o := by simp; omega
  unfold rd putBytes
  rw [List.take_drop, List.take_take, Nat.min_eq_left h, List.take_left' (by simp [hl]), List.drop_left' hl]

/-- A field of a byte string is one of every string it begins. -/
theorem rd_append {b tail : Bytes} {i n : Nat} (h : i + n ≤ b.length) : rd (b ++ tail) i n = rd b i n := by
  unfold rd; rw [List.take_drop, List.take_drop, List.take_append_of_le_length h]

/-- STATUS of a reply-tray entry (R331). -/
theorem rd_entryBytes_status (typ flags st slot seq cookie ctx sess : Nat) (body tail : Bytes) (h : st < 65536) :
    rd (entryBytes typ flags st slot seq cookie ctx sess body ++ tail) 2 2 = st := by
  rw [rd_append (by simp [entryBytes, recOf])]
  simp only [entryBytes, recOf, List.foldl_cons, List.foldl_nil]
  iterate 6 rw [rd_putBytes_before _ (by omega) (by simp)]
  rw [rd_putBytes_same (le_length 2 st) (by simp), unle_le]; exact Nat.mod_eq_of_lt h

/-! ## Letters (R327–R329, R340) -/

/-- The state in which a letter other than a REQUEST_SUBMIT has entered the order of the letters. -/
def State.queued (s : State) (src : LSrc) : State := { s with letters := s.letters ++ [{ src := src }] }

/-- A letter other than a REQUEST_SUBMIT is answered at once where it fails one of R328's checks, and waits for its turn otherwise. -/
theorem State.takeLetter_eq {s : State} {src : LSrc} {b : Bytes} (hb : rd b 2 2 ≠ 0x0404) :
    s.takeLetter src b = match (s.queued src).frankCheck src b with
      | some (st, de) => (s.queued src).answer src st (le 4 de) []
      | none => s.queued src := by
  have hs : (rd b 2 2 == 0x0404) = false := by simpa using hb
  unfold State.takeLetter
  rw [hs]
  rfl

section letterbox
variable {s : State} {p f k o : Nat} {d : Bytes}

/-- What a host's write within slot k does, by the slot's state and the LENGTH it held (R327, R329; log 78). -/
theorem execLetterboxWrite_eq (hp : p < 2) (hf : f < 32) (hk : k < 64) (hd : d ≠ []) (hl : d.length ≤ 512)
    (ho : o + d.length ≤ 4096) (hs : s.serves = true) (hu : (s.hport p).up = true) :
    execLetterboxWrite p f (4096 * k + o) d s = .next (
      let x := s.fn p f
      let t := min 4096 (unle (mread x.lb (4096 * k) 2))
      let lb := mwrite x.lb (4096 * k + o) d
      if (tfind x.taken k).isSome then s.setFn p f { x with discarded := satAdd x.discarded 1 }
      else if t ≠ 0 ∧ o ≤ t - 1 ∧ t - 1 < o + d.length then
        (s.setFn p f { x with lb := lb, taken := tset x.taken k (mread lb (4096 * k) t) }).takeLetter (.host p f k) (mread lb (4096 * k) t)
      else s.setFn p f { x with lb := lb }) := by
  have hn : 0 < d.length := List.length_pos_iff.mpr hd
  have hq : (4096 * k + o) / 4096 = k := by omega
  have hr : (4096 * k + o) % 4096 = o := by omega
  have hb : slotBase k = 4096 * k := Nat.mul_comm k 4096
  have hg : ¬ (k ≥ 64 ∨ d.length = 0 ∨ d.length > 512 ∨ o + d.length > 4096 ∨ ¬ s.serves ∨ ¬ (s.hport p).up) := by
    simp only [hs, hu, not_true, or_false]; omega
  simp only [execLetterboxWrite, atFn_of_lt hp hf, hq, hr, hb, if_neg hg]

end letterbox

/-- A message of the management path takes the first slot that is free. -/
theorem execMctpLetter_of_free {s : State} {m : Bytes} {k : Nat} (hm : s.dev.mode ≠ .off) (hst : 2 ≤ s.board.stage) (hk : k < 4)
    (hf : tfind s.mgmt.taken k = none) (hj : ∀ j, j < k → tfind s.mgmt.taken j ≠ none) :
    execMctpLetter m s = .next (State.takeLetter { s with mgmt := { s.mgmt with taken := tset s.mgmt.taken k m } } (.mgmt k) m) := by
  have hfind : (List.range 4).find? (fun k => (tfind s.mgmt.taken k).isNone) = some k := by
    rw [List.find?_range_eq_some]
    refine ⟨by simp [hf], by simpa using hk, fun j hlt => ?_⟩
    simpa [Option.isSome_iff_ne_none] using hj j hlt
  have hg : ¬ (s.dev.mode = .off ∨ s.board.stage < 2) := by simp [hm]; omega
  simp only [execMctpLetter, if_neg hg, hfind]

/-- A fifth letter of the management path is answered BUSY (log 99). -/
theorem execMctpLetter_of_full {s : State} {m : Bytes} (hm : s.dev.mode ≠ .off) (hst : 2 ≤ s.board.stage)
    (hj : ∀ j, j < 4 → tfind s.mgmt.taken j ≠ none) :
    execMctpLetter m s = .next (s.mgmtSend (letterEntry m 0xFF 0x0300 (le 4 0)) []) := by
  have hfind : (List.range 4).find? (fun k => (tfind s.mgmt.taken k).isNone) = none := by
    rw [List.find?_eq_none]
    intro j hmem
    simpa using hj j (by simpa using hmem)
  have hg : ¬ (s.dev.mode = .off ∨ s.board.stage < 2) := by simp [hm]; omega
  simp only [execMctpLetter, if_neg hg, hfind]

/-! ## Trays (R333, R334) -/

/-- Without held replies there is nothing to flush. -/
theorem State.flushTray_setFn {s : State} {p f : Nat} {x : HostFunc} (h : x.held = []) :
    (s.setFn p f x).flushTray p f = s.setFn p f x := by
  cases ht : x.tray with
  | none => simp [State.flushTray, ht]
  | some t =>
    have hx : { x with tray := some t, held := [] } = x := by rw [← h, ← ht]
    simp [State.flushTray, ht, h, hx]

section tray
variable {s : State} {p f : Nat} {t : Tray} (ht : (s.fn p f).tray = some t) (hh : (s.fn p f).held = [])
include ht hh

/-- A stamp of the first lap read as zero makes an entry known to be free. -/
theorem State.stampsRead_zero (hv : 0 < t.virgin) : s.stampsRead p f [true] =
    s.setFn p f { s.fn p f with tray := some { t with virgin := t.virgin - 1, ahead := t.ahead + 1, full := false } } := by
  have hz : s.stampZero p f =
      s.setFn p f { s.fn p f with tray := some { t with virgin := t.virgin - 1, ahead := t.ahead + 1, full := false } } := by
    simp [State.stampZero, ht, hv]
  have hr : s.stampsRead p f [true] = (s.stampZero p f).flushTray p f := by
    simp [State.stampsRead, hz]
  rw [hr, hz]; exact State.flushTray_setFn hh

/-- A stamp that is not zero at the next entry makes the tray full. -/
theorem State.stampsRead_nonzero (ha : t.ahead = 0) : s.stampsRead p f [false] =
    s.setFn p f { s.fn p f with tray := some { t with full := true } } := by
  have hr : s.stampsRead p f [false] = (s.setFn p f { s.fn p f with tray := some { t with full := true } }).flushTray p f := by
    simp [State.stampsRead, ht, ha]
  rw [hr]; exact State.flushTray_setFn hh

end tray

/-! ## Interrupts (R324, R335) -/

/-- The end of a moderation interval signals vector 0, or sets its pending bit while it is masked (log 55). -/
theorem execMsixModerationExpire_of_pend {s : State} {p f : Nat} (hp : p < 2) (hf : f < 32) (h : (s.fn p f).msiPend = true) :
    execMsixModerationExpire p f s = .next (
      let x := s.fn p f
      if (tget (1 <<< 32 : W64) x.msix 1).getLsbD 32 = true
      then s.setFn p f { x with msiPend := false, lastMsi := some s.time, pba := x.pba ||| 1 }
      else (s.setFn p f { x with msiPend := false, lastMsi := some s.time }).emit (.msix p f 0)) := by
  simp [execMsixModerationExpire, atFn_of_lt hp hf, h, State.msixSend, HostFunc.masked]

/-! ## Registers (R13, R324, R272) -/

/-- Network interface i's block in the hub register space. -/
theorem hubBlock_nif {i x : Nat} (hi : i < 392) (hx : x < 4096) : hubBlock (0x50000000 + 4096 * i + x) = some (.nif i, x) := by
  have hq : (0x50000000 + 4096 * i + x - 0x50000000) / 0x1000 = i := by omega
  have hr : (0x50000000 + 4096 * i + x - 0x50000000) % 0x1000 = x := by omega
  unfold hubBlock
  simp (disch := omega) only [if_neg, if_pos, hq, hr]
  rfl

/-- An aligned write of 8 bytes writes one whole word of the hub register space. -/
theorem State.hubPut_word (s : State) {o : Nat} (ho : o % 8 = 0) (v : W64) :
    s.hubPut o (le 8 v.toNat) (2 ^ 8 - 1) = s.hubWordWrite o v.toNat (2 ^ 64 - 1) := by
  have hv : rd (le 8 v.toNat) 0 8 = v.toNat := by
    have : rd (le 8 v.toNat) 0 8 = unle (le 8 v.toNat) := rfl
    rw [this, unle_le]; exact Nat.mod_eq_of_lt v.isLt
  have hq : o / 8 * 8 = o := by omega
  have hm : ((List.range 8).filter (fun j => decide (j < 8) && nbit 255 j)).foldl (fun a j => a + 255 * 256 ^ j) 0 = 2 ^ 64 - 1 := by
    decide
  simp only [State.hubPut, ho, hq, zeros, List.replicate_zero, List.nil_append, le_length]
  simp [hm, hv]

/-- ROUTE_ALT after a write of all its bytes: bits 63 and 61–0 are writable. -/
theorem regMerge_routeAlt (old v : W64) : regMerge old.toNat v.toNat (2 ^ 64 - 1) (mbits 63 63 ||| mbits 61 0) =
    (old &&& 0x4000000000000000) ||| (v &&& 0xBFFFFFFFFFFFFFFF) := by
  have hm : (2 ^ 64 - 1) &&& (mbits 63 63 ||| mbits 61 0) = 0xBFFFFFFFFFFFFFFF := by decide
  apply BitVec.eq_of_toNat_eq
  rw [regMerge, Nat.and_assoc, hm]
  simp [BitVec.toNat_or, BitVec.toNat_and]

/-- The write of a route table entry of network interface i (R272). -/
theorem execRegisterWrite_routeAlt {s : State} {i k : Nat} (v : W64) (hi : i < 392) (hr : (s.ifRouter i).isSome = true) (hk : k < 64) :
    execRegisterWrite (.hub (0xF050000000 + 4096 * i + 8 * k) 8) v s =
      .next (s.setNif i { s.nif i with alt := tset (s.nif i).alt k ((tget 0 (s.nif i).alt k &&& 0x4000000000000000) ||| (v &&& 0xBFFFFFFFFFFFFFFF)) }) := by
  have hphys : 0xF050000000 + 4096 * i + 8 * k - 0xF000000000 = 0x50000000 + 4096 * i + 8 * k := by omega
  have hg : 0xF000000000 ≤ 0xF050000000 + 4096 * i + 8 * k ∧ 0xF050000000 + 4096 * i + 8 * k + 8 ≤ 0xF100000000
      ∧ [1, 2, 4, 8].contains 8 ∧ (0xF050000000 + 4096 * i + 8 * k) % 8 = 0 := ⟨by omega, by omega, rfl, by omega⟩
  have hb : hubBlock (0x50000000 + 4096 * i + 8 * k) = some (.nif i, 8 * k) := hubBlock_nif hi (by omega)
  have hoff : 8 * k < 0x200 := by omega
  have hidx : 8 * k / 8 = k := by omega
  simp only [execRegisterWrite, if_pos hg, hphys]
  rw [State.hubPut_word s (by omega)]
  simp only [State.hubWordWrite, hb, if_pos hr, State.nifRegWrite, State.nifReg, if_pos hoff, hidx, regMerge_routeAlt]

/-- Settles O38, command by command: the slot's three cases, the management path, the tray, vector 0 and the registers. -/
theorem hostLetterbox : Obligations.HostLetterbox := by
  intro s p f x hp hf hx
  subst hx
  refine ⟨?slot, ?mgmt, ?tray, ?expire, ?idle, ?bar, ?route, ?hub⟩
  case slot =>
    intro k o d t hk hd hl ho hs hu ht
    subst ht
    rw [exec_letterboxWrite, execLetterboxWrite_eq hp hf hk hd hl ho hs hu]
    refine ⟨fun hn => ?_, fun hn => ⟨fun hT => ?_, fun h0 h1 h2 lb b u hlb hb hu hc => ?_⟩⟩
    · exact congrArg _ (if_pos (Option.isSome_iff_ne_none.mpr hn))
    · simp only [hn, Option.isSome_none, Bool.false_eq_true, if_false]
      rw [if_neg (by omega)]
    · subst hlb hb hu
      simp only [hn, Option.isSome_none, Bool.false_eq_true, if_false]
      rw [if_pos ⟨h0, by omega, by omega⟩, State.takeLetter_eq hc]
      rfl
  case mgmt =>
    intro m k u hm hst
    refine ⟨fun hk hfree hj hc hu => ?_, fun hfull => ?_⟩
    · subst hu
      rw [exec_mctpLetter, execMctpLetter_of_free hm hst hk hfree hj, State.takeLetter_eq hc]
      rfl
    · rw [exec_mctpLetter, execMctpLetter_of_full hm hst hfull]
      exact ⟨_, _, rfl, rfl, rd_entryBytes_status _ _ _ _ _ _ _ _ _ _ (by omega), rfl⟩
  case tray =>
    intro t ht hh
    refine ⟨fun e he hv => ?_, fun ha => ?_, fun hfull l => ?_⟩
    · rcases he with rfl | ⟨rfl, hfull⟩
      · rw [exec_trayStampRead, execTrayStampRead, atFn_of_lt hp hf, State.stampsRead_zero ht hh hv]
      · simp only [exec_trayFullReread, execTrayFullReread, atFn_of_lt hp hf, ht, if_pos hfull, State.stampsRead_zero ht hh hv]
    · rw [exec_trayStampRead, execTrayStampRead, atFn_of_lt hp hf, State.stampsRead_nonzero ht hh ha]
    · simp [execTrayFullReread, atFn_of_lt hp hf, ht, hfull]
  case expire =>
    intro h
    rw [exec_msixModerationExpire, execMsixModerationExpire_of_pend hp hf h]
  case idle =>
    intro h
    simp [execMsixModerationExpire, atFn_of_lt hp hf, h]
  case bar =>
    intro v hs hu
    refine ⟨?_, fun off size hbad => ?_⟩
    · have hv : BitVec.ofNat 16 v.toNat = v.setWidth 16 := by simp
      simp [execRegisterWrite, atFn_of_lt hp hf, hs, hu, State.barWrite, hv]
    · have hg : ¬ (size = 4 ∨ size = 8) ∨ off % size ≠ 0 := by omega
      simp only [exec_registerWrite, execRegisterWrite, atFn_of_lt hp hf, State.barWrite, if_pos hg, ite_self]
  case route =>
    exact fun i k v hi hr hk => execRegisterWrite_routeAlt v hi hr hk
  case hub =>
    intro phys size v hbad
    have hg : ¬ (0xF000000000 ≤ phys ∧ phys + size ≤ 0xF100000000 ∧ [1, 2, 4, 8].contains size ∧ phys % size = 0) := by
      rintro ⟨-, -, hsize, halign⟩
      exact hbad.elim (fun h => h halign) (fun h => h (List.contains_iff_mem.mp hsize))
    simp only [exec_registerWrite, execRegisterWrite, if_neg hg]

end Sys2Proof.Machine
end

section
/-! SUPPORT. What the state at reset is. -/
namespace Sys2Proof.Machine

/-- The invariant of a step holds at reset. -/
theorem State.reset_inv : State.reset.inv := ⟨rfl, Nat.zero_le _, fun _ => rfl, fun _ => rfl, fun _ => rfl⟩

/-- Settles O58: the invariant's parts and the reset values are those of the record's defaults. -/
theorem resetState : Obligations.ResetState :=
  ⟨State.reset_inv, rfl, rfl, rfl, rfl, rfl, rfl, rfl, rfl, rfl, rfl, rfl, rfl, by decide, fun _ => ⟨rfl, rfl⟩⟩

end Sys2Proof.Machine
end

section
/-! SUPPORT. What the start from PWR_EN to READY keeps and changes, and the obligation about it. -/
namespace Sys2Proof.Machine

/-! ## Folds and tables -/

/-- What no step of a fold changes, the fold does not change. -/
theorem foldl_kept {α β γ : Type} (g : α → γ) (f : α → β → α) (h : ∀ x b, g (f x b) = g x) (l : List β) (x : α) :
    g (l.foldl f x) = g x :=
  foldl_rel (fun a b => g b = g a) (fun _ => rfl) (fun _ _ _ h k => k.trans h) f h l x

/-- A fold over numbers, each step of which changes its own entry alone, changes each entry by its own step. -/
theorem foldl_range_each {σ α : Type} (get : σ → Nat → α) (f : σ → Nat → σ) (g : Nat → α → α)
    (hself : ∀ x i, get (f x i) i = g i (get x i)) (hother : ∀ x i j, j ≠ i → get (f x i) j = get x j) (s : σ) (j : Nat) :
    ∀ n, get ((List.range n).foldl f s) j = if j < n then g j (get s j) else get s j := by
  intro n
  induction n with
  | zero => simp
  | succ n ih =>
    rw [List.range_succ, List.foldl_append, List.foldl_cons, List.foldl_nil]
    by_cases hj : j = n
    · subst hj; simp [hself, ih]
    · rw [hother _ _ _ hj, ih]
      have : j < n ↔ j < n + 1 := by omega
      simp only [this]

/-- A table listed from a function. -/
theorem tget_map_pair {α : Type} (d : α) (v : Nat → α) (l : List Nat) (k : Nat) :
    tget d (l.map (fun i => (i, v i))) k = if k ∈ l then v k else d := by
  induction l with
  | nil => rfl
  | cons i l ih =>
    simp only [List.map_cons, tget, ih, List.mem_cons]
    by_cases h : i = k
    · simp [h]
    · simp [h, Ne.symm h]

/-! ## The commands of the start -/

@[simp] theorem exec_inrushComplete (s : State) : exec .inrushComplete s = execInrushComplete s := rfl
@[simp] theorem exec_modResetNRelease (s : State) : exec .modResetNRelease s = execModResetNRelease s := rfl
@[simp] theorem exec_pllRelockHoldEnd (s : State) : exec .pllRelockHoldEnd s = execPllRelockHoldEnd s := rfl
@[simp] theorem exec_powerOnStart (s : State) : exec .powerOnStart s = execPowerOnStart s := rfl
@[simp] theorem exec_bridgeTrained (off : List (BitVec 16)) (s : State) : exec (.bridgeTrained off) s = execBridgeTrained off s := rfl
@[simp] theorem exec_hotStartRecheck (l : List (Nat × Option Int)) (s : State) : exec (.hotStartRecheck l) s = execHotStartRecheck l s := rfl
@[simp] theorem exec_stackTrainingDone (k : Nat) (ok : Bool) (s : State) : exec (.stackTrainingDone k ok) s = execStackTrainingDone k ok s := rfl
@[simp] theorem exec_readyAssert (s : State) : exec .readyAssert s = execReadyAssert s := rfl
@[simp] theorem exec_stackLost (k : Nat) (s : State) : exec (.stackLost k) s = execStackLost k s := rfl
@[simp] theorem exec_logMessage (s : State) : exec .logMessage s = execLogMessage s := rfl

theorem atUnit_of_lt {what : String} {n c : Nat} (h : n < c) (s : State) : atUnit what n c s = .next s := if_pos h

/-! ## Steps 1–4: the ROM and the saved settings (R405, R465–R468) -/

/-- The conditions of a start are those of the pins and latches (R506–R508). -/
theorem State.mayStart_iff (s : State) : s.mayStart = true ↔ startsAt s := by
  simp [State.mayStart, startsAt, and_assoc]

theorem State.tryStart_of_startsAt {s : State} (h : startsAt s) : s.tryStart = s.powerUp := if_pos (s.mayStart_iff.mpr h)

theorem State.tryStart_of_not_startsAt {s : State} (h : ¬ startsAt s) : s.tryStart = s :=
  s.tryStart_of_not (by simpa using (not_congr s.mayStart_iff).mpr h)

theorem rejects_of_good {fused : Nat} {img : FwImage} (hs : img.sigOk = true) (hv : fused ≤ img.sv) (hb : img.badPart = none) :
    rejects fused (some img) = none := by
  simp [rejects, hs, hb]; omega

/-- A slot that holds a good image is taken; without TRIAL nothing changes. -/
theorem State.romTry_of_accepted {s : State} {img : FwImage} (hi : tfind s.flash.slots s.flash.active = some img) (ht : s.flash.trial = false)
    (hr : rejects s.flash.fusedSv (some img) = none) : s.romTry = (some img, s) := by
  have hn : (if s.flash.trial then s.flash.tries + 1 else s.flash.tries) = s.flash.tries := if_neg (by simp [ht])
  have hg : ¬ (s.flash.trial = true ∧ s.flash.tries > 2) := by simp [ht]
  simp only [State.romTry, hn, hi, hr, if_neg hg]

/-- A rejected slot: one event record, and the other slot is ACTIVE with TRIAL clear (R467). -/
theorem State.romTry_of_rejected {s : State} (hr : rejects s.flash.fusedSv (tfind s.flash.slots s.flash.active) ≠ none) :
    ∃ fl : FlashState, s.romTry = (none, { s with flash := fl }) ∧ fl.active = 1 - s.flash.active ∧ fl.trial = false
      ∧ fl.slots = s.flash.slots ∧ fl.fusedSv = s.flash.fusedSv ∧ fl.nvSeq = s.flash.nvSeq + 1 := by
  obtain ⟨⟨i, r⟩, hr⟩ := Option.ne_none_iff_exists'.mp hr
  refine ⟨s.romTry.2.flash, ?_, ?_⟩ <;> simp [State.romTry, hr, State.rejectSlot, State.eventRecord]

/-- What the saved settings leave as it is: the state of the start, the image, INCARNATION, keys, flash and fuses. -/
def State.bootView (s : State) : DevMode × FwImage × BoardState × W32 × SecState × FlashState × FuseState :=
  (s.dev.mode, s.dev.image, s.board, s.links.ownInc, s.sec, s.flash, s.fuse)

@[simp] theorem State.bootView_setStack (s : State) (k : Nat) (x : StackState) : (s.setStack k x).bootView = s.bootView := rfl
@[simp] theorem State.bootView_setPort (s : State) (l : Nat) (x : PortState) : (s.setPort l x).bootView = s.bootView := rfl
@[simp] theorem State.bootView_setBridge (s : State) (b : Nat) (x : BridgeState) : (s.setBridge b x).bootView = s.bootView := rfl
@[simp] theorem State.bootView_logAt (s : State) (c : Nat) (u : W32) (a : Nat) (d : Bytes) : (s.logAt c u a d).bootView = s.bootView := rfl

@[simp] theorem State.bootView_applyFabric (s : State) (b : Bytes) : (s.applyFabric b).bootView = s.bootView := by
  unfold State.applyFabric
  exact foldl_kept State.bootView _ (fun _ _ => by rfl) _ _

@[simp] theorem State.bootView_applyConfig (s : State) (b : Bytes) : (s.applyConfig b).bootView = s.bootView := by
  unfold State.applyConfig
  exact (foldl_kept State.bootView _ (fun _ _ => by rfl) _ _).trans (s.bootView_applyFabric b)

@[simp] theorem State.bootView_applyArrays (s : State) (b : Bytes) : (s.applyArrays b).bootView = s.bootView := rfl

@[simp] theorem State.bootView_applyBridges (s : State) (b : Bytes) : (s.applyBridges b).bootView = s.bootView := by
  unfold State.applyBridges
  exact foldl_kept State.bootView _ (fun _ _ => by rfl) _ _

theorem State.bootView_applySec (s : State) (typ : Nat) (f : State → Bytes → State) (h : ∀ s b, (f s b).bootView = s.bootView) :
    (s.applySec typ f).bootView = s.bootView := by
  unfold State.applySec; split
  · exact h _ _
  · rfl

/-- Step 4: INCARNATION rises and the step is completed; of the rest only settings change (R468). -/
theorem State.bootView_bootStep4 (s : State) : s.bootStep4.bootView =
    (s.dev.mode, s.dev.image, { s.board with stage := 4 }, s.links.ownInc + 1, s.sec, s.flash, s.fuse) := by
  let s1 : State := { s with links := { s.links with ownInc := s.links.ownInc + 1 } }
  have logged (x : State) (c : Prop) [Decidable c] (code : Nat) (d : Bytes) :
      (if c then x.logAt code uidRtp 0 d else x).bootView = x.bootView := by split <;> rfl
  have settings (x : State) : (((x.applySec 1 State.applyConfig).applySec 2 State.applyArrays).applySec 4 State.applyBridges).bootView = x.bootView := by
    rw [State.bootView_applySec _ 4 _ State.bootView_applyBridges, State.bootView_applySec _ 2 _ State.bootView_applyArrays,
      State.bootView_applySec _ 1 _ State.bootView_applyConfig]
  have h : ∀ x : State, x.bootView = s1.bootView → State.bootView { x with board := { x.board with stage := 4 } } =
      (s.dev.mode, s.dev.image, { s.board with stage := 4 }, s.links.ownInc + 1, s.sec, s.flash, s.fuse) := by
    intro x hx
    simp only [State.bootView, Prod.mk.injEq] at hx ⊢
    obtain ⟨hm, hi, hb, ho, hs, hf, hu⟩ := hx
    exact ⟨hm, hi, by rw [hb], ho, hs, hf, hu⟩
  exact h _ (((logged _ _ _ _).trans (settings _)).trans (logged _ _ _ _))

/-- An image accepted: its keys are derived and step 4 runs (R405, R406, R468). -/
def State.booted (s : State) (img : FwImage) : State := (State.deriveKeys { s with dev := { s.dev with image := img } } img).bootStep4

theorem State.booted_kept (s : State) (img : FwImage) : (s.booted img).dev.mode = s.dev.mode ∧ (s.booted img).dev.image = img
    ∧ (s.booted img).board = { s.board with stage := 4 } ∧ (s.booted img).links.ownInc = s.links.ownInc + 1
    ∧ (s.booted img).sec.udsLock = true ∧ (s.booted img).flash = s.flash ∧ (s.booted img).fuse = s.fuse := by
  have h := State.bootView_bootStep4 (State.deriveKeys { s with dev := { s.dev with image := img } } img)
  simp only [State.bootView, Prod.mk.injEq] at h
  obtain ⟨hm, hi, hb, ho, hs, hf, hu⟩ := h
  exact ⟨hm, hi, hb, ho, (congrArg SecState.udsLock hs).trans rfl, hf, hu⟩

/-- Steps 1 and 2: the device starts and the ROM runs. -/
def State.romRuns (s : State) : State := { s.setMode .starting with board := { s.board with pwrGood := true, stage := 2 } }

/-- The ROM tries the ACTIVE slot, then the other, then ends the start (R467). -/
theorem State.powerUp_eq (s : State) : s.powerUp = match s.romRuns.romTry with
    | (some img, t) => t.booted img
    | (none, t) => match t.romTry with
      | (some img, u) => u.booted img
      | (none, u) => { u with board := { u.board with halted := true } } := rfl

/-- A start with a good image in the ACTIVE slot. -/
theorem State.powerUp_of_accepted {s : State} {img : FwImage} (hi : tfind s.flash.slots s.flash.active = some img) (ht : s.flash.trial = false)
    (hr : rejects s.flash.fusedSv (some img) = none) : s.powerUp = s.romRuns.booted img := by
  rw [State.powerUp_eq, State.romTry_of_accepted (s := s.romRuns) hi ht hr]

/-- A start whose ACTIVE slot is rejected and whose other slot holds a good image (R467). -/
theorem State.powerUp_of_other {s : State} {img : FwImage} (hr : rejects s.flash.fusedSv (tfind s.flash.slots s.flash.active) ≠ none)
    (hi : tfind s.flash.slots (1 - s.flash.active) = some img) (hg : rejects s.flash.fusedSv (some img) = none) :
    ∃ fl : FlashState, s.powerUp = State.booted { s.romRuns with flash := fl } img ∧ fl.active = 1 - s.flash.active ∧ fl.trial = false
      ∧ fl.nvSeq = s.flash.nvSeq + 1 := by
  obtain ⟨fl, htry, hact, htrial, hslots, hsv, hseq⟩ := State.romTry_of_rejected (s := s.romRuns) hr
  have htry2 : State.romTry { s.romRuns with flash := fl } = (some img, { s.romRuns with flash := fl }) := by
    refine State.romTry_of_accepted ?_ htrial ?_
    · change tfind fl.slots fl.active = some img
      rw [hslots, hact]; exact hi
    · exact (congrArg (rejects · (some img)) hsv).trans hg
  refine ⟨fl, ?_, hact, htrial, hseq⟩
  rw [State.powerUp_eq, htry]
  simp only [htry2]

/-- A start with both slots rejected ends with the ROM running (R467). -/
theorem State.powerUp_of_rejected {s : State} (hr : rejects s.flash.fusedSv (tfind s.flash.slots s.flash.active) ≠ none)
    (hr2 : rejects s.flash.fusedSv (tfind s.flash.slots (1 - s.flash.active)) ≠ none) :
    ∃ fl : FlashState, s.powerUp = { s.romRuns with flash := fl, board := { s.romRuns.board with halted := true } }
      ∧ fl.nvSeq = s.flash.nvSeq + 2 := by
  obtain ⟨fl, htry, hact, -, hslots, hsv, hseq⟩ := State.romTry_of_rejected (s := s.romRuns) hr
  have hr2' : rejects fl.fusedSv (tfind fl.slots fl.active) ≠ none := by rw [hact, hslots, hsv]; exact hr2
  obtain ⟨fl2, htry2, -, -, -, -, hseq2⟩ := State.romTry_of_rejected (s := { s.romRuns with flash := fl }) hr2'
  refine ⟨fl2, ?_, hseq2.trans (congrArg (· + 1) hseq)⟩
  rw [State.powerUp_eq, htry]
  simp only [htry2]

/-! ## Step 5: bridges, fuses and population (R6, R277, R279) -/

/-- What training does at one bridge: the modules found beyond repair are disabled, and logged. -/
def State.trainBridge (off : List (BitVec 16)) (s : State) (br : Nat) : State :=
  let x := s.bridge br
  let m := (off.getD br 0) &&& ~~~x.disabled
  let s := s.setBridge br { x with trained := true, disabled := x.disabled ||| m }
  ((List.range 16).filter (fun i => m.getLsbD i)).foldl (fun s i =>
    s.logAt 0x0404 (uid 0x10 br) 0 [BitVec.ofNat 8 i, BitVec.ofNat 8 (s.bridge br).working]) s

theorem State.trainBridge_bridges (off : List (BitVec 16)) (s : State) (br : Nat) : (s.trainBridge off br).bridges =
    (s.setBridge br { s.bridge br with trained := true, disabled := (s.bridge br).disabled ||| off.getD br 0 }).bridges := by
  have hd : (s.bridge br).disabled ||| (off.getD br 0 &&& ~~~(s.bridge br).disabled) = (s.bridge br).disabled ||| off.getD br 0 := by
    apply BitVec.eq_of_getLsbD_eq
    intro i hi
    simp only [BitVec.getLsbD_or, BitVec.getLsbD_and, BitVec.getLsbD_not]
    cases (s.bridge br).disabled.getLsbD i <;> simp [hi]
  unfold State.trainBridge
  rw [foldl_kept State.bridges _ (fun _ _ => by rfl), hd]

/-- What training the bridges leaves as it is. -/
theorem State.trainBridge_kept (off : List (BitVec 16)) (s : State) (br : Nat) :
    ((s.trainBridge off br).dev, (s.trainBridge off br).board, (s.trainBridge off br).flash, (s.trainBridge off br).fuse)
      = (s.dev, s.board, s.flash, s.fuse) := by
  unfold State.trainBridge
  exact foldl_kept (fun s : State => (s.dev, s.board, s.flash, s.fuse)) _ (fun _ _ => by rfl) _ _

/-- Every bridge trained. -/
def State.bridgesUp (s : State) (off : List (BitVec 16)) : State := (List.range 4).foldl (State.trainBridge off) s

theorem State.bridgesUp_bridge (s : State) (off : List (BitVec 16)) {br : Nat} (h : br < 4) : (s.bridgesUp off).bridge br =
    { s.bridge br with trained := true, disabled := (s.bridge br).disabled ||| off.getD br 0 } := by
  have hf := foldl_range_each State.bridge (State.trainBridge off)
    (fun i b => { b with trained := true, disabled := b.disabled ||| off.getD i 0 })
    (fun x i => by
      rw [State.bridge, State.trainBridge_bridges]; exact State.bridge_setBridge _ _ _)
    (fun x i j hj => by
      rw [State.bridge, State.trainBridge_bridges]; exact State.bridge_setBridge_ne _ _ hj)
    s br 4
  rw [State.bridgesUp, hf, if_pos h]

theorem State.bridgesUp_kept (s : State) (off : List (BitVec 16)) :
    (s.bridgesUp off).board = s.board ∧ (s.bridgesUp off).flash = s.flash ∧ (s.bridgesUp off).fuse = s.fuse := by
  have h := foldl_kept (fun s : State => (s.dev, s.board, s.flash, s.fuse)) (State.trainBridge off) (State.trainBridge_kept off) (List.range 4) s
  simp only [Prod.mk.injEq] at h
  exact h.2

/-- The checks after the bridges' training: working modules, fuses of the four field dies, and the population code. -/
def State.startOk (s : State) : Prop :=
  (∀ br, br < 4 → 12 ≤ (s.bridge br).working)
    ∧ (∀ f, f < 4 → tget f s.fuse.field f = f ∧ tget s.fuse.population.toNat s.fuse.popCopy f = s.fuse.population.toNat)
    ∧ popOk s.fuse.population = true

/-- A valid population code (R6). -/
theorem popOk_iff (p : W32) : popOk p = true ↔ bf p 31 28 = 1 ∧ ones 12 (bf p 27 16) ≤ 4 ∧ (bf p 15 0 = 0 ↔ bf p 27 16 = 0) := by
  rw [popOk, Bool.and_eq_true, Bool.and_eq_true, beq_iff_eq, decide_eq_true_iff, and_assoc, beq_iff_eq, Bool.eq_iff_iff, beq_iff_eq, beq_iff_eq]

theorem State.bridgesTrained_of_not {s : State} (off : List (BitVec 16)) (h : s.dev.mode ≠ .starting ∨ s.board.halted = true ∨ s.board.stage ≠ 4) :
    s.bridgesTrained off = s := if_pos h

/-- The checks that can end the start, after the bridges' training (R6, R277, R279; order: log 87). -/
def State.startChecks (s : State) : State :=
  match (List.range 4).find? (fun br => decide ((s.bridge br).working < 12)) with
  | some br => s.haltStart 6 (uid 0x10 br) [BitVec.ofNat 8 br, BitVec.ofNat 8 (s.bridge br).working, 0]
  | none =>
    match (List.range 4).find? (fun f => tget f s.fuse.field f != f || tget s.fuse.population.toNat s.fuse.popCopy f != s.fuse.population.toNat) with
    | some f => s.haltStart 5 (uid 0x01 f) [BitVec.ofNat 8 f, BitVec.ofNat 8 (tget f s.fuse.field f), BitVec.ofNat 8 f]
    | none =>
      if popOk s.fuse.population then { s with board := { s.board with stage := 5 } }
      else s.haltStart 4 uidRtp (((List.range 4).map (fun f => le 4 (tget s.fuse.population.toNat s.fuse.popCopy f))).flatten)

theorem State.bridgesTrained_eq {s : State} (off : List (BitVec 16)) (hm : s.dev.mode = .starting) (hh : s.board.halted = false)
    (hs : s.board.stage = 4) : s.bridgesTrained off = (s.bridgesUp off).startChecks := by
  have hg : ¬ (s.dev.mode ≠ .starting ∨ s.board.halted = true ∨ s.board.stage ≠ 4) := by simp [hm, hh, hs]
  exact if_neg hg

/-- A start that fails a check has ended with one event record. -/
def State.haltedFrom (s t : State) : Prop :=
  t.bridges = s.bridges ∧ t.board = { s.board with halted := true } ∧ t.flash.nvSeq = s.flash.nvSeq + 1

theorem State.haltStart_haltedFrom (s : State) (c : Nat) (u : W32) (d : Bytes) : s.haltedFrom (s.haltStart c u d) := ⟨rfl, rfl, rfl⟩

/-- The start goes on exactly when every check holds. -/
theorem State.startChecks_cases (s : State) :
    s.startOk ∧ s.startChecks = { s with board := { s.board with stage := 5 } } ∨ ¬ s.startOk ∧ s.haltedFrom s.startChecks := by
  unfold State.startChecks
  split
  next br hbr =>
    refine .inr ⟨fun hok => ?_, s.haltStart_haltedFrom _ _ _⟩
    have hlt : br < 4 := List.mem_range.mp (List.mem_of_find?_eq_some hbr)
    have hw : (s.bridge br).working < 12 := by simpa using List.find?_some hbr
    have := hok.1 br hlt
    omega
  next hbridges =>
    have hw : ∀ br, br < 4 → 12 ≤ (s.bridge br).working := by
      intro br hbr; simpa using List.find?_eq_none.mp hbridges br (List.mem_range.mpr hbr)
    split
    next f hf =>
      refine .inr ⟨fun hok => ?_, s.haltStart_haltedFrom _ _ _⟩
      have hlt : f < 4 := List.mem_range.mp (List.mem_of_find?_eq_some hf)
      have hbad := List.find?_some hf
      simp [hok.2.1 f hlt] at hbad
    next hfuses =>
      have hf : ∀ f, f < 4 → tget f s.fuse.field f = f ∧ tget s.fuse.population.toNat s.fuse.popCopy f = s.fuse.population.toNat := by
        intro f hlt; simpa using List.find?_eq_none.mp hfuses f (List.mem_range.mpr hlt)
      split
      next hp => exact .inl ⟨⟨hw, hf, hp⟩, rfl⟩
      next hp => exact .inr ⟨fun hok => hp hok.2.2, s.haltStart_haltedFrom _ _ _⟩

end Sys2Proof.Machine
end

section
/-! SUPPORT. The start's step 6: what a housekeeping round leaves as it is, and the check of the temperatures. -/
namespace Sys2Proof.Machine

/-! ## A round without a thermal shutdown -/

/-- What the parts of a housekeeping round leave as it is: the device, the contacts, the boot flash and the count of rounds. -/
def State.view (s : State) : DevState × BoardState × FlashState × Nat := (s.dev, s.board, s.flash, s.pwr.rounds)

@[simp] theorem State.view_setStack (s : State) (k : Nat) (x : StackState) : (s.setStack k x).view = s.view := rfl
@[simp] theorem State.view_setSite (s : State) (n : Nat) (x : SiteState) : (s.setSite n x).view = s.view := rfl
@[simp] theorem State.view_setPd (s : State) (d : Nat) (x : PowerDie) : (s.setPd d x).view = s.view := rfl
@[simp] theorem State.view_setFn (s : State) (p f : Nat) (x : HostFunc) : (s.setFn p f x).view = s.view := rfl
@[simp] theorem State.view_emit (s : State) (m : OutMsg) : (s.emit m).view = s.view := rfl
@[simp] theorem State.view_logAt (s : State) (c : Nat) (u : W32) (a : Nat) (d : Bytes) : (s.logAt c u a d).view = s.view := rfl
@[simp] theorem State.view_siteErr (s : State) (n i k : Nat) : (s.siteErr n i k).view = s.view := rfl
@[simp] theorem State.view_sendGrant (s : State) (n : Nat) : (s.sendGrant n).view = s.view := rfl
@[simp] theorem State.view_markSuspect (s : State) (c : Nat) (v m : Int) : (s.markSuspect c v m).view = s.view := rfl
@[simp] theorem State.view_throttleGuest (s : State) (n w : Nat) : (s.throttleGuest n w).view = s.view := rfl

@[simp] theorem State.view_ite (c : Prop) [Decidable c] (a b : State) : (if c then a else b).view = if c then a.view else b.view :=
  apply_ite State.view c a b

@[simp] theorem State.view_regrant (s : State) (n w : Nat) : (s.regrant n w).view = s.view := by
  unfold State.regrant; dsimp only; split <;> rfl

@[simp] theorem State.view_msixSend (s : State) (p f v : Nat) : (s.msixSend p f v).view = s.view := by
  unfold State.msixSend; dsimp only; split <;> rfl

@[simp] theorem State.view_msi1 (s : State) : s.msi1.view = s.view := by
  unfold State.msi1
  exact foldl_kept State.view _ (fun x i => by split <;> simp) _ _

@[simp] theorem State.view_alertFrom (s : State) (was : Bool) : (s.alertFrom was).view = s.view := by
  unfold State.alertFrom; split <;> simp

theorem State.view_crossCheck (s : State) (vals : Tbl Int) (old : List Nat) (c : Nat) : (s.crossCheck vals old c).view = s.view := by
  unfold State.crossCheck; dsimp only
  split
  · rfl
  · split
    · split <;> rfl
    · split
      · rfl
      · split
        · split <;> rfl
        · rfl

@[simp] theorem State.view_siteRound (s : State) (n : Nat) : (s.siteRound n).view = s.view := by
  simp [State.siteRound]

@[simp] theorem State.view_fieldThrottle (s : State) (f lvl : Nat) : (s.fieldThrottle f lvl).view = s.view := by
  unfold State.fieldThrottle
  exact foldl_kept State.view _ (fun _ _ => by rfl) _ _

@[simp] theorem State.view_enterThrottle (s : State) (d code : Nat) : (s.enterThrottle d code).view = s.view := by
  simp [State.enterThrottle]

@[simp] theorem State.view_inThrottle (s : State) (d : Nat) : (s.inThrottle d).view = s.view := by
  simp [State.inThrottle]

@[simp] theorem State.view_thresholds (s : State) (d : Nat) : (s.thresholds d).view = s.view := by
  unfold State.thresholds; dsimp only
  split <;> simp

@[simp] theorem State.view_refreshRound (s : State) (k : Nat) : (s.refreshRound k).view = s.view := by
  unfold State.refreshRound; dsimp only
  split
  · rfl
  · simp

@[simp] theorem State.view_cutRound (s : State) : s.cutRound.view = s.view := by
  unfold State.cutRound
  exact foldl_kept State.view _ (fun _ _ => by rfl) _ _

@[simp] theorem State.view_shortRound (s : State) : s.shortRound.view = s.view := by
  unfold State.shortRound; dsimp only
  refine (foldl_kept State.view _ (fun x k => by simp) _ _).trans ?_
  split <;> rfl

@[simp] theorem State.view_giveShares (s : State) (l : Tbl Nat) : (s.giveShares l).view = s.view := by
  unfold State.giveShares
  refine foldl_kept State.view _ (fun x e => ?_) _ _
  dsimp only
  split
  · split <;> simp
  · rfl

@[simp] theorem State.view_divide (s : State) : s.divide.view = s.view := by
  unfold State.divide; split <;> simp

/-! ## Thermal shutdown in a round (R445, R447) -/

/-- A thermal shutdown proceeds after it has been begun; the count of rounds stays. -/
theorem State.thermalTrip_kept (s : State) (u : W32) (d : Bytes) :
    (s.thermalTrip u d).board.tripping = true ∧ (s.thermalTrip u d).pwr.rounds = s.pwr.rounds := by
  unfold State.thermalTrip
  split
  next h => exact ⟨h, rfl⟩
  next h =>
    refine ⟨rfl, ?_⟩
    have hstop : (s.stopCompute).pwr.rounds = s.pwr.rounds := foldl_kept (fun s : State => s.pwr.rounds) _ (fun _ _ => by rfl) _ _
    have hguests (m : Nat → SiteMsg) (x : State) : (x.toGuests m).pwr = x.pwr := by
      unfold State.toGuests
      exact foldl_kept State.pwr _ (fun x n => by split <;> rfl) _ _
    have hfare (x : State) : (x.sendFarewell 4).pwr = x.pwr := by
      have h : x.sendFarewell 4 = { x with links := _, out := _ } := (x.sendFarewell_linkRel 4).1
      rw [h]
    have hmsi (x : State) : x.msi1.pwr = x.pwr := by rw [x.msi1_replyRel.frame]
    dsimp only
    rw [hfare, hmsi, State.bumpGen_pwr, State.setMode_pwr, hguests, hstop]

theorem State.roundTrips_cases (s : State) :
    s.roundTrips = s ∨ s.roundTrips.board.tripping = true ∧ s.roundTrips.pwr.rounds = s.pwr.rounds := by
  unfold State.roundTrips
  split
  · exact .inr (s.thermalTrip_kept _ _)
  · split
    · exact .inr (s.thermalTrip_kept _ _)
    · exact .inl rfl

/-- The values of a round are taken and the round is counted (R441). -/
theorem State.view_counted (s : State) (v : Tbl Int) (t : Nat) :
    State.view { s with pwr := { s.pwr with vals := v, rounds := s.pwr.rounds + 1, roundTime := t } } = (s.dev, s.board, s.flash, s.pwr.rounds + 1) := rfl

/-- A housekeeping round: one round more; unless a thermal shutdown proceeds after it, device and contacts are as they were. -/
theorem State.houseRound_kept (s : State) (rd : List (Nat × Option Int)) :
    (s.houseRound rd).pwr.rounds = s.pwr.rounds + 1
      ∧ ((s.houseRound rd).board.tripping = false → (s.houseRound rd).dev = s.dev ∧ (s.houseRound rd).board = s.board) := by
  suffices H : ∃ x y : State, (s.houseRound rd).view = x.roundTrips.view ∧ x.view = (y.dev, y.board, y.flash, y.pwr.rounds + 1) ∧ y.view = s.view by
    obtain ⟨x, y, hv, hx, hy⟩ := H
    simp only [State.view, Prod.mk.injEq] at hv hx hy
    obtain ⟨hd, hb, -, hr⟩ := hv
    obtain ⟨hxd, hxb, -, hxr⟩ := hx
    obtain ⟨hyd, hyb, -, hyr⟩ := hy
    rw [hyd] at hxd; rw [hyb] at hxb; rw [hyr] at hxr
    rcases x.roundTrips_cases with h | ⟨h, hrounds⟩
    · rw [h] at hd hb hr
      exact ⟨hr.trans hxr, fun _ => ⟨hd.trans hxd, hb.trans hxb⟩⟩
    · refine ⟨hr.trans (hrounds.trans hxr), fun hf => ?_⟩
      rw [hb, h] at hf; exact absurd hf (by simp)
  unfold State.houseRound
  refine ⟨_, _,
    (State.view_alertFrom _ _).trans ((State.view_divide _).trans ((State.view_shortRound _).trans ((State.view_cutRound _).trans
      (foldl_kept State.view _ State.view_refreshRound _ _)))),
    (foldl_kept State.view _ State.view_thresholds _ _).trans ((foldl_kept State.view _ State.view_siteRound _ _).trans (State.view_counted _ _ _)), ?_⟩
  refine (foldl_kept State.view _ (fun _ _ => by rfl) _ _).trans ?_
  exact (foldl_kept State.view _ (fun x d => foldl_kept State.view _ (fun x c => State.view_crossCheck x _ _ c) _ x) _ _).trans rfl

/-! ## Sites start (R283, R448) -/

/-- What the recomputation of the reserves leaves as it is. -/
theorem State.recheck_kept (s : State) : (s.recheck.sites, s.recheck.board, s.recheck.pwr) = (s.sites, s.board, s.pwr) := by
  unfold State.recheck
  refine foldl_kept (fun s : State => (s.sites, s.board, s.pwr)) _ (fun x p => ?_) _ _
  unfold State.recheckPart; dsimp only; split <;> rfl

/-- A change of a site's STATE changes that site and leaves contacts and readings. -/
theorem State.setSiteMode_kept (s : State) (n : Nat) (m : SiteMode) :
    ((s.setSiteMode n m).sites, (s.setSiteMode n m).board, (s.setSiteMode n m).pwr) = ((s.setSite n { s.site n with mode := m }).sites, s.board, s.pwr) := by
  unfold State.setSiteMode; dsimp only
  split
  · rfl
  · rw [State.recheck_kept]; split <;> rfl

theorem State.siteStart_kept (s : State) (n : Nat) : (s.siteStart n).board = s.board ∧ (s.siteStart n).pwr = s.pwr := by
  have h := s.setSiteMode_kept n .negotiating
  simp only [Prod.mk.injEq] at h
  exact h.2

theorem State.setSiteMode_site (s : State) (n : Nat) (m : SiteMode) (j : Nat) :
    (s.setSiteMode n m).site j = (s.setSite n { s.site n with mode := m }).site j := by
  have h := s.setSiteMode_kept n m
  simp only [Prod.mk.injEq] at h
  exact congrArg (fun t => tget ({} : SiteState) t j) h.1

theorem State.siteStart_mode (s : State) (n : Nat) : ((s.siteStart n).site n).mode = .negotiating := by
  have hs : ((s.siteStart n).site n).mode = ((s.setSiteMode n .negotiating).site n).mode := by
    unfold State.siteStart
    simp [State.site, State.setSite, State.emit]
  rw [hs, State.setSiteMode_site, State.site_setSite]

theorem State.siteStart_site_ne (s : State) {n j : Nat} (hj : j ≠ n) : (s.siteStart n).site j = s.site j := by
  have hs : (s.siteStart n).site j = (s.setSiteMode n .negotiating).site j := by
    unfold State.siteStart
    simp [State.site, State.setSite, State.emit, tget_tset_ne _ _ hj]
  rw [hs, State.setSiteMode_site, State.site_setSite_ne _ _ hj]

/-- Every site starts. -/
def State.sitesStart (s : State) : State := (List.range 12).foldl State.siteStart s

theorem State.sitesStart_kept (s : State) : s.sitesStart.board = s.board ∧ s.sitesStart.pwr = s.pwr := by
  have h := foldl_kept (fun s : State => (s.board, s.pwr)) State.siteStart
    (fun x n => Prod.ext (x.siteStart_kept n).1 (x.siteStart_kept n).2) (List.range 12) s
  simp only [Prod.mk.injEq] at h
  exact h

theorem State.sitesStart_mode (s : State) {n : Nat} (hn : n < 12) : (s.sitesStart.site n).mode = .negotiating := by
  have h := foldl_range_each (fun s n => (State.site s n).mode) State.siteStart (fun _ _ => .negotiating)
    State.siteStart_mode (fun x i j hj => congrArg SiteState.mode (x.siteStart_site_ne hj)) s n 12
  exact h.trans (if_pos hn)

/-! ## The hot start (R448) -/

/-- A die sensor at 95 °C or more in the last round's values. -/
def State.hot (s : State) : Prop := ∃ c v, c < 288 ∧ s.chan c = some v ∧ 2544 ≤ v

/-- The check of R448 is for a start that has passed step 5. -/
def State.hotDue (s : State) : Prop := s.dev.mode = .starting ∧ s.board.halted = false ∧ s.board.stage = 5

theorem State.hotDue.guard {s : State} (h : s.hotDue) : ¬ (s.dev.mode ≠ .starting ∨ s.board.halted = true ∨ s.board.stage ≠ 5) := by
  obtain ⟨hm, hh, hs⟩ := h
  simp [hm, hh, hs]

theorem State.hotCheck_of_not_due {s : State} (h : ¬ s.hotDue) : s.hotCheck = s := by
  refine if_pos (Decidable.byContradiction fun hn => h ?_)
  obtain ⟨hm, hn⟩ := not_or.mp hn
  obtain ⟨hh, hs⟩ := not_or.mp hn
  exact ⟨Decidable.not_not.mp hm, Bool.eq_false_iff.mpr hh, Decidable.not_not.mp hs⟩

/-- A channel is a sensor at 95 °C or more as the check tests it. -/
theorem State.hotChan_iff (s : State) (c : Nat) :
    (match s.chan c with | some v => decide (v ≥ (tcode 95 : Nat)) | none => false) = true ↔ ∃ v, s.chan c = some v ∧ 2544 ≤ v := by
  cases s.chan c with
  | none => simp
  | some v => simp [tcode]

/-- A hot sensor holds the start, with one event record where none has been written. -/
theorem State.hotCheck_of_hot {s : State} (hd : s.hotDue) (hot : s.hot) :
    s.hotCheck.board = { s.board with hotHold := true, hotRec := true } ∧ s.hotCheck.pwr = s.pwr := by
  obtain ⟨c, v, hlt, hv, hle⟩ := hot
  unfold State.hotCheck
  rw [if_neg hd.guard]
  split
  next => dsimp only; split <;> exact ⟨rfl, rfl⟩
  next hc => exact absurd ((s.hotChan_iff c).mpr ⟨v, hv, hle⟩) (List.find?_eq_none.mp hc c (List.mem_range.mpr hlt))

/-- Without a hot sensor the sites start and the gauges' measurement begins. -/
theorem State.hotCheck_of_not_hot {s : State} (hd : s.hotDue) (cool : ¬ s.hot) :
    s.hotCheck = State.sitesStart { s with board := { s.board with hotHold := false, stage := 6 }, pwr := { s.pwr with measuring := true } } := by
  unfold State.hotCheck
  rw [if_neg hd.guard]
  split
  next c hc =>
    have hp := List.find?_some hc
    obtain ⟨v, hv, hle⟩ := (s.hotChan_iff c).mp hp
    exact absurd ⟨c, v, List.mem_range.mp (List.mem_of_find?_eq_some hc), hv, hle⟩ cool
  next => rfl

/-- What the check keeps of a round: its count and values, and whether a thermal shutdown proceeds. -/
theorem State.hotCheck_kept (s : State) : s.hotCheck.pwr.rounds = s.pwr.rounds ∧ s.hotCheck.pwr.vals = s.pwr.vals
    ∧ s.hotCheck.board.tripping = s.board.tripping := by
  by_cases hd : s.hotDue
  · by_cases hot : s.hot
    · obtain ⟨hb, hp⟩ := State.hotCheck_of_hot hd hot
      rw [hb, hp]; exact ⟨rfl, rfl, rfl⟩
    · rw [State.hotCheck_of_not_hot hd hot]
      obtain ⟨hb, hp⟩ := State.sitesStart_kept { s with board := { s.board with hotHold := false, stage := 6 }, pwr := { s.pwr with measuring := true } }
      rw [hb, hp]; exact ⟨rfl, rfl, rfl⟩
  · rw [State.hotCheck_of_not_due hd]; exact ⟨rfl, rfl, rfl⟩

/-- A recheck of a held start: one round more, and unless a thermal shutdown proceeds the start stays held exactly while a sensor
is hot. -/
theorem State.hotRecheck_kept {s r : State} (hd : s.hotDue) (l : List (Nat × Option Int)) (hr : s.houseRound l = r) :
    r.hotCheck.pwr.rounds = s.pwr.rounds + 1 ∧ (r.hotCheck.board.tripping = false →
      (r.hotCheck.hot → r.hotCheck.board.hotHold = true ∧ r.hotCheck.board.stage = 5)
      ∧ (¬ r.hotCheck.hot → r.hotCheck.board.hotHold = false ∧ r.hotCheck.board.stage = 6 ∧ r.hotCheck.pwr.measuring = true
        ∧ ∀ n, n < 12 → (r.hotCheck.site n).mode = .negotiating)) := by
  obtain ⟨hm, hh, hs⟩ := hd
  obtain ⟨hrounds, hround⟩ := s.houseRound_kept l
  rw [hr] at hrounds hround
  obtain ⟨hcount, hvals, htrip⟩ := r.hotCheck_kept
  have hhot : r.hotCheck.hot ↔ r.hot := by simp only [State.hot, State.chan, hvals]
  refine ⟨hcount.trans hrounds, fun hno => ?_⟩
  obtain ⟨hdev, hboard⟩ := hround (htrip.symm.trans hno)
  have hdue : r.hotDue := ⟨by rw [hdev, hm], by rw [hboard, hh], by rw [hboard, hs]⟩
  rw [hhot]
  refine ⟨fun hot => ?_, fun cool => ?_⟩
  · rw [(State.hotCheck_of_hot hdue hot).1]; exact ⟨rfl, hdue.2.2⟩
  · rw [State.hotCheck_of_not_hot hdue cool]
    obtain ⟨hb, hp⟩ := State.sitesStart_kept { r with board := { r.board with hotHold := false, stage := 6 }, pwr := { r.pwr with measuring := true } }
    rw [hb, hp]; exact ⟨rfl, rfl, rfl, fun n hn => State.sitesStart_mode _ hn⟩

end Sys2Proof.Machine
end

section
/-! SUPPORT. The start's steps 9 to 12, the loss of a stack, the logbook controller, and the obligation about the start. -/
namespace Sys2Proof.Machine

/-! ## Stacks train (R130, R177) -/

/-- A command for a stack that is not due leaves everything. -/
theorem execStackTrainingDone_of_not {s : State} {k : Nat} (ok : Bool) (hk : k < 12)
    (h : s.dev.mode ≠ .starting ∨ s.board.halted = true ∨ s.board.stage < 6 ∨ (s.stack k).trained = true ∨ (s.stack k).lost = true) :
    execStackTrainingDone k ok s = .next s := by
  unfold execStackTrainingDone
  rw [atUnit_of_lt hk]; exact congrArg _ (if_pos h)

section training
variable {s : State} {k : Nat} (hm : s.dev.mode = .starting) (hh : s.board.halted = false) (hs : 6 ≤ s.board.stage)
  (ht : (s.stack k).trained = false) (hl : (s.stack k).lost = false)
include hm hh hs ht hl

theorem stack_training_due :
    ¬ (s.dev.mode ≠ .starting ∨ s.board.halted = true ∨ s.board.stage < 6 ∨ (s.stack k).trained = true ∨ (s.stack k).lost = true) := by
  simp [hm, hh, ht, hl]; omega

/-- A stack that has trained holds its saved remap entries. -/
theorem execStackTrainingDone_ok (hk : k < 12) : execStackTrainingDone k true s =
    .next (s.setStack k { (s.stack k).applyRemap k ((s.savedSection 5).getD []) with trained := true }) := by
  unfold execStackTrainingDone
  rw [atUnit_of_lt hk]; exact congrArg _ (if_neg (stack_training_due hm hh hs ht hl))

/-- A stack that fails to train is lost. -/
theorem execStackTrainingDone_fail (hk : k < 12) : execStackTrainingDone k false s =
    .next ((s.setStack k { s.stack k with lost := true, lossCause := 1 }).logAt 0x010A (uidStack k) 0 [1]) := by
  unfold execStackTrainingDone
  rw [atUnit_of_lt hk]; exact congrArg _ (if_neg (stack_training_due hm hh hs ht hl))

end training

/-- The saved remap entries of a stack. -/
theorem StackState.applyRemap_remap (x : StackState) (k : Nat) (b : Bytes) {i : Nat} (hi : i < 32) :
    tget ({} : RemapEnt) (x.applyRemap k b).remap i = if rdb b (256 * k + 8 * i + 7) = 1 then
      { valid := true, sector := rd b (256 * k + 8 * i) 4 % 2 ^ 31, spareRow := rd b (256 * k + 8 * i + 4) 3 % 2 ^ 19, check := 0 } else {} := by
  unfold StackState.applyRemap
  rw [tget_map_pair]
  simp [hi]

/-! ## Requests that end (R184) -/

theorem State.busyTouch_replyRel (s : State) (c : Nat) : s.replyRel (s.busyTouch c) := by
  unfold State.busyTouch; dsimp only
  split
  · exact s.replyRel_refl
  · split
    · split
      · exact s.setServe_replyRel _
      · exact s.replyRel_refl
    · exact State.replyRel_trans _ _ _ (s.meterUpd_replyRel _ _) (State.setServe_replyRel _ _)

theorem State.putReq_replyRel (s : State) (id : Nat) (r : ReqState) : s.replyRel (s.putReq id r) :=
  State.replyRel_trans _ _ _ (s.setServe_replyRel _) (State.busyTouch_replyRel _ _)

theorem State.endReq_replyRel (s : State) (id st : Nat) : s.replyRel (s.endReq id st) := by
  unfold State.endReq
  split
  · exact s.replyRel_refl
  · rename_i r _
    split
    · exact s.replyRel_refl
    · have held : s.replyRel (if r.held then s.postEvent .unhold r.serial r.ctx else s) := by
        split
        · exact s.postEvent_replyRel _ _ _
        · exact s.replyRel_refl
      exact State.replyRel_trans _ _ _ (State.replyRel_trans _ _ _ held (State.putReq_replyRel _ _ _)) (State.pushReply_replyRel _ _ _ _)

theorem State.abortReqs_replyRel (s : State) (p : ReqState → Bool) : s.replyRel (s.abortReqs p) := by
  unfold State.abortReqs
  exact foldl_rel State.replyRel State.replyRel_refl State.replyRel_trans _ (fun x id => x.endReq_replyRel id _) _ _

/-! ## UNFIT (R183, R184) -/

/-- What a loss leaves as it is: the contacts, the trial and the security version of the image, and the stacks. -/
def State.lossView (s : State) : BoardState × Bool × Nat × Tbl StackState := (s.board, s.flash.trial, s.flash.fusedSv, s.hbm)

theorem State.msi1_kept (s : State) : s.msi1.dev = s.dev ∧ s.msi1.serve = s.serve ∧ s.msi1.links = s.links ∧ s.msi1.lossView = s.lossView := by
  have h := foldl_kept (fun s : State => (s.dev, s.serve, s.links, s.lossView)) (fun s i => if (s.hport (i / 32)).up then s.msixSend (i / 32) (i % 32) 1 else s)
    (fun x i => by
      split
      · unfold State.msixSend; dsimp only; split <;> rfl
      · rfl) (List.range 64) s
  simp only [Prod.mk.injEq] at h
  exact h

theorem State.sendFarewell_kept (s : State) (c : Nat) : (s.sendFarewell c).dev = s.dev ∧ (s.sendFarewell c).serve = s.serve
    ∧ (s.sendFarewell c).links.farewell = true ∧ (s.sendFarewell c).lossView = s.lossView := by
  obtain ⟨hframe, hfare⟩ := s.sendFarewell_linkRel c
  have h : s.sendFarewell c = { s with links := _, out := _ } := hframe
  exact ⟨by rw [h], by rw [h], hfare, by rw [h]; rfl⟩

theorem State.abortReqs_kept (s : State) (p : ReqState → Bool) : (s.abortReqs p).dev = s.dev ∧ (s.abortReqs p).lossView = s.lossView := by
  have h := (s.abortReqs_replyRel p).frame
  exact ⟨by rw [h], by rw [h]; rfl⟩

/-- A device that is UNFIT already writes the record of the further loss alone (log 111). -/
theorem State.enterUnfit_of_unfit {s : State} (h : s.dev.mode = .unfit) (c : BitVec 8) (rc : Nat) (u : W32) (d : Bytes) :
    s.enterUnfit c rc u d = s.eventRecord rc u d true := if_pos h

/-- The state in which a device that becomes UNFIT has ended its requests, stopped scheduling, sent FAREWELL and written the record. -/
def State.unfitRecorded (s : State) (rc : Nat) (u : W32) (d : Bytes) : State :=
  let s := s.abortReqs ReqState.inProgress
  let s := s.setServe { s.serve with stopped := true }
  (s.sendFarewell 3).eventRecord rc u d true

theorem State.unfitRecorded_kept (s : State) (rc : Nat) (u : W32) (d : Bytes) : (s.unfitRecorded rc u d).dev = s.dev
    ∧ (s.unfitRecorded rc u d).serve.stopped = true ∧ (s.unfitRecorded rc u d).links.farewell = true
    ∧ (s.unfitRecorded rc u d).lossView = s.lossView := by
  obtain ⟨hdev, hview⟩ := s.abortReqs_kept ReqState.inProgress
  obtain ⟨fdev, fserve, ffare, fview⟩ := State.sendFarewell_kept ((s.abortReqs ReqState.inProgress).setServe
    { (s.abortReqs ReqState.inProgress).serve with stopped := true }) 3
  exact ⟨fdev.trans hdev, congrArg ServeState.stopped fserve, ffare, fview.trans hview⟩

/-- A device that enters UNFIT: its mode and cause, GENERATION, the schedule and FAREWELL. -/
theorem State.enterUnfit_of_fit {s : State} (h : s.dev.mode ≠ .unfit) (c : BitVec 8) (rc : Nat) (u : W32) (d : Bytes) :
    (s.enterUnfit c rc u d).dev = { s.dev with mode := .unfit, unfitCause := c, generation := s.dev.generation + 1 }
      ∧ (s.enterUnfit c rc u d).serve.stopped = true ∧ (s.enterUnfit c rc u d).links.farewell = true
      ∧ (s.enterUnfit c rc u d).lossView = s.lossView := by
  obtain ⟨rdev, rstop, rfare, rview⟩ := s.unfitRecorded_kept rc u d
  have he : s.enterUnfit c rc u d = State.msi1 { s.unfitRecorded rc u d with
      dev := { (s.unfitRecorded rc u d).dev with mode := .unfit, unfitCause := c, generation := (s.unfitRecorded rc u d).dev.generation + 1 } } := if_neg h
  obtain ⟨mdev, mserve, mlinks, mview⟩ := State.msi1_kept { s.unfitRecorded rc u d with
      dev := { (s.unfitRecorded rc u d).dev with mode := .unfit, unfitCause := c, generation := (s.unfitRecorded rc u d).dev.generation + 1 } }
  rw [he, mdev, mserve, mlinks, mview, rdev]
  exact ⟨rfl, rstop, rfare, rview⟩

/-- A lost stack's dirty lines and held writes are discarded (R183). -/
def State.dropLines (s : State) (k : Nat) : State := s.setStack k { s.stack k with lines := [], held := [] }

theorem State.loseStack_eq (s : State) (k : Nat) : ∃ d : Bytes, s.loseStack k = (s.dropLines k).enterUnfit 1 3 (uidStack k) d := ⟨_, rfl⟩

/-- A further loss of an UNFIT device changes nothing of it. -/
theorem State.loseStack_of_unfit {s : State} (h : s.dev.mode = .unfit) (k : Nat) :
    (s.loseStack k).dev = s.dev ∧ (s.loseStack k).lossView = (s.dropLines k).lossView := by
  obtain ⟨d, he⟩ := s.loseStack_eq k
  have hd : (s.dropLines k).dev.mode = .unfit := h
  rw [he, State.enterUnfit_of_unfit hd]; exact ⟨rfl, rfl⟩

/-- The first loss makes the device UNFIT with cause 1. -/
theorem State.loseStack_of_fit {s : State} (h : s.dev.mode ≠ .unfit) (k : Nat) :
    (s.loseStack k).dev = { s.dev with mode := .unfit, unfitCause := 1, generation := s.dev.generation + 1 }
      ∧ (s.loseStack k).serve.stopped = true ∧ (s.loseStack k).links.farewell = true
      ∧ (s.loseStack k).lossView = (s.dropLines k).lossView := by
  obtain ⟨d, he⟩ := s.loseStack_eq k
  have hd : (s.dropLines k).dev.mode ≠ .unfit := h
  rw [he]; exact State.enterUnfit_of_fit hd _ _ _ _

/-- The contacts, the trial and the security version stay as they are when a loss is handled; of the stacks that one changes. -/
theorem State.loseStack_kept (s : State) (k : Nat) : (s.loseStack k).board = s.board ∧ (s.loseStack k).flash.trial = s.flash.trial
    ∧ (s.loseStack k).flash.fusedSv = s.flash.fusedSv ∧ ∀ j, (s.loseStack k).stack j = (s.dropLines k).stack j := by
  have hview : (s.loseStack k).lossView = (s.dropLines k).lossView := by
    by_cases hu : s.dev.mode = .unfit
    · exact (State.loseStack_of_unfit hu k).2
    · exact (State.loseStack_of_fit hu k).2.2.2
  simp only [State.lossView, Prod.mk.injEq] at hview
  obtain ⟨hb, ht, hv, hs⟩ := hview
  exact ⟨hb, ht, hv, fun j => congrArg (fun t => tget ({} : StackState) t j) hs⟩

theorem State.loseStack_lost (s : State) (k j : Nat) : ((s.loseStack k).stack j).lost = (s.stack j).lost := by
  rw [(s.loseStack_kept k).2.2.2 j, State.dropLines]
  by_cases hj : j = k
  · subst hj; rw [State.stack_setStack]
  · rw [State.stack_setStack_ne _ _ hj]

/-- Several losses at once: lost stacks stay lost, and contacts, trial and security version stay. -/
theorem State.loseStacks_kept (s : State) (l : List Nat) : (l.foldl State.loseStack s).board = s.board
    ∧ (l.foldl State.loseStack s).flash.trial = s.flash.trial ∧ (l.foldl State.loseStack s).flash.fusedSv = s.flash.fusedSv
    ∧ ∀ j, ((l.foldl State.loseStack s).stack j).lost = (s.stack j).lost := by
  have h := foldl_kept (fun s : State => (s.board, s.flash.trial, s.flash.fusedSv, fun j => (s.stack j).lost)) State.loseStack
    (fun x k => by
      obtain ⟨hb, ht, hv, -⟩ := x.loseStack_kept k
      simp only [hb, ht, hv, State.loseStack_lost]) l s
  simp only [Prod.mk.injEq] at h
  exact ⟨h.1, h.2.1, h.2.2.1, fun j => congrFun h.2.2.2 j⟩

/-- A device that loses a stack is UNFIT with cause 1, however many it loses. -/
theorem State.loseStacks_unfit {s : State} (h : s.dev.mode ≠ .unfit) {l : List Nat} (hl : l ≠ []) :
    (l.foldl State.loseStack s).dev.mode = .unfit ∧ (l.foldl State.loseStack s).dev.unfitCause = 1 := by
  cases l with
  | nil => exact absurd rfl hl
  | cons k l =>
    have hfirst := (State.loseStack_of_fit h k).1
    have hrest := foldl_rel (fun a b : State => a.dev.mode = .unfit → b.dev = a.dev) (fun _ _ => rfl)
      (fun x y z hxy hyz hx => (hyz (by rw [hxy hx]; exact hx)).trans (hxy hx)) State.loseStack
      (fun x k hx => (State.loseStack_of_unfit hx k).1) l (s.loseStack k) (by rw [hfirst])
    rw [List.foldl_cons, hrest, hfirst]
    exact ⟨rfl, rfl⟩

/-- A stack in operation that is declared lost (R184). -/
theorem State.stackLost_of_not {s : State} {k : Nat} (h : (s.stack k).lost = false ∨ (s.dev.mode ≠ .ready ∧ s.dev.mode ≠ .unfit)) :
    s.stackLost k = s := by
  refine if_neg ?_
  rintro ⟨hl, hm⟩
  rcases h with h | ⟨hr, hu⟩
  · rw [h] at hl; exact absurd hl (by simp)
  · exact hm.elim hr hu

theorem State.stackLost_of_lost {s : State} {k : Nat} (hl : (s.stack k).lost = true) (hm : s.dev.mode = .ready ∨ s.dev.mode = .unfit) :
    s.stackLost k = (s.logAt 0x010A (uidStack k) 0 [(s.stack k).lossCause]).loseStack k := if_pos ⟨hl, hm⟩

/-! ## READY (R422, R467, R468) -/

@[simp] theorem State.view_setXl (s : State) (d : Nat) (x : XlateState) : (s.setXl d x).view = s.view := rfl
@[simp] theorem State.view_defaultRoutes (s : State) : s.defaultRoutes.view = s.view := rfl
@[simp] theorem State.view_dropRoutes (s : State) (n : Nat) : (s.dropRoutes n).view = s.view := rfl

@[simp] theorem State.view_moveRoutes (s : State) (br m : Nat) : (s.moveRoutes br m).view = s.view := by
  unfold State.moveRoutes; dsimp only; split <;> rfl

theorem State.view_memRel {s t : State} (h : s.memRel t) : t.view = s.view := by rw [h.frame]; rfl

@[simp] theorem State.view_fwWrite (s : State) (a : Nat) (b : Bytes) : (s.fwWrite a b).view = s.view :=
  (State.view_memRel (State.devWrite_memRel _ _ _ _ _)).trans (State.view_memRel (State.devWrite_memRel _ _ _ _ _))

@[simp] theorem State.view_clearAsids (s : State) : s.clearAsids.view = s.view := by
  unfold State.clearAsids
  exact foldl_kept State.view _ (fun _ _ => State.view_fwWrite _ _ _) _ _

/-- The tables for READY leave the device, the contacts and the boot flash. -/
theorem State.view_readyTables (s : State) : s.readyTables.view = s.view := by
  unfold State.readyTables
  refine (foldl_kept State.view _ (fun x d => by simp) _ _).trans ((State.view_clearAsids _).trans ?_)
  refine (foldl_kept State.view _ (fun x n => State.view_dropRoutes x n) _ _).trans ?_
  exact (foldl_kept State.view _ (fun x br => foldl_kept State.view _ (fun y m => State.view_moveRoutes y br m) _ x) _ _).trans
    (State.view_defaultRoutes s)

end Sys2Proof.Machine
end

section
/-! SUPPORT. READY, the logbook controller, and the obligation about the start. -/
namespace Sys2Proof.Machine

/-! ## READY is asserted (R422, R467, R468) -/

/-- What READY waits for (R434, R448, R468). -/
theorem State.mayReady_iff (s : State) : s.mayReady = true ↔ s.dev.mode = .starting ∧ s.board.halted = false ∧ s.board.hotHold = false
    ∧ s.board.pllHold = false ∧ s.board.tripping = false ∧ 6 ≤ s.board.stage ∧ s.pwr.measuring = false
    ∧ (∀ n, n < 12 → (s.site n).mode = .up ∨ (s.site n).mode = .down) ∧ ∀ k, k < 12 → (s.stack k).fillDone = true ∨ (s.stack k).lost = true := by
  simp [State.mayReady, and_assoc]

/-- READY, GENERATION 1 and the trial's end. -/
def State.readyBegun (s : State) : State :=
  let s : State := { s.setMode .ready with board := { s.board with ready := true, stage := 12 } }
  let s : State := { s with dev := { s.dev with generation := 1 } }
  if s.flash.trial then { s with flash := { s.flash with trial := false, tries := 0, fusedSv := max s.flash.fusedSv s.dev.image.sv } } else s

theorem State.readyBegun_kept (s : State) : s.readyBegun.dev = { s.dev with mode := .ready, generation := 1 }
    ∧ s.readyBegun.board = { s.board with ready := true, stage := 12 } ∧ s.readyBegun.flash.trial = false
    ∧ s.readyBegun.flash.fusedSv = if s.flash.trial then max s.flash.fusedSv s.dev.image.sv else s.flash.fusedSv := by
  unfold State.readyBegun State.setMode
  dsimp only
  split
  next => exact ⟨rfl, rfl, rfl, rfl⟩
  next ht => exact ⟨rfl, rfl, by simpa using ht, rfl⟩

theorem State.readyAssert_of_not {s : State} (h : ¬ s.mayReady = true) : s.readyAssert = s := if_pos (by simpa using h)

theorem State.readyAssert_eq {s : State} (h : s.mayReady = true) : s.readyAssert =
    ((List.range 12).filter (fun k => (s.readyTables.readyBegun.divide.stack k).lost)).foldl State.loseStack s.readyTables.readyBegun.divide := by
  have hg : ¬ (!s.mayReady) = true := by simp [h]
  unfold State.readyAssert
  rw [if_neg hg]
  rfl

/-- READY over the stacks that are there; each one lost in the start is then handled as a loss. -/
theorem State.readyAssert_of_may {s : State} (h : s.mayReady = true) : ∃ x : State,
    s.readyAssert = ((List.range 12).filter (fun k => (x.stack k).lost)).foldl State.loseStack x
      ∧ x.dev = { s.dev with mode := .ready, generation := 1 } ∧ x.board = { s.board with ready := true, stage := 12 }
      ∧ x.flash.trial = false ∧ x.flash.fusedSv = if s.flash.trial then max s.flash.fusedSv s.dev.image.sv else s.flash.fusedSv := by
  refine ⟨s.readyTables.readyBegun.divide, State.readyAssert_eq h, ?_⟩
  have hview := State.view_divide s.readyTables.readyBegun
  have htables := s.view_readyTables
  simp only [State.view, Prod.mk.injEq] at hview htables
  obtain ⟨vdev, vboard, vflash, -⟩ := hview
  obtain ⟨tdev, tboard, tflash, -⟩ := htables
  have hbegun := s.readyTables.readyBegun_kept
  rw [tdev, tboard, tflash] at hbegun
  rwa [vdev, vboard, vflash]

/-- What READY leaves: a device that is READY with GENERATION 1, or UNFIT where a stack is lost. -/
theorem State.readyAssert_kept {s t : State} (h : s.mayReady = true) (ht : s.readyAssert = t) :
    t.board.ready = true ∧ t.board.stage = 12 ∧ t.flash.trial = false
      ∧ t.flash.fusedSv = (if s.flash.trial then max s.flash.fusedSv s.dev.image.sv else s.flash.fusedSv)
      ∧ ((∀ k, k < 12 → (t.stack k).lost = false) → t.dev.mode = .ready ∧ t.dev.generation = 1)
      ∧ ((∃ k, k < 12 ∧ (t.stack k).lost = true) → t.dev.mode = .unfit ∧ t.dev.unfitCause = 1) := by
  obtain ⟨x, hx, hdev, hboard, htrial, hsv⟩ := State.readyAssert_of_may h
  obtain ⟨kboard, ktrial, ksv, klost⟩ := x.loseStacks_kept ((List.range 12).filter (fun k => (x.stack k).lost))
  rw [hx] at ht
  rw [ht] at kboard ktrial ksv klost
  refine ⟨by rw [kboard, hboard], by rw [kboard, hboard], ktrial.trans htrial, ksv.trans hsv, fun hnone => ?_, fun hsome => ?_⟩
  · have hempty : (List.range 12).filter (fun k => (x.stack k).lost) = [] := by
      rw [List.filter_eq_nil_iff]
      intro k hk
      rw [← klost k, hnone k (List.mem_range.mp hk)]; simp
    rw [hempty, List.foldl_nil] at ht
    rw [← ht, hdev]; exact ⟨rfl, rfl⟩
  · obtain ⟨k, hk, hl⟩ := hsome
    have hmem : k ∈ (List.range 12).filter (fun k => (x.stack k).lost) :=
      List.mem_filter.mpr ⟨List.mem_range.mpr hk, by rw [← klost k]; exact hl⟩
    have hfit : x.dev.mode ≠ .unfit := by rw [hdev]; simp
    have hunfit := State.loseStacks_unfit hfit (List.ne_nil_of_mem hmem)
    rw [ht] at hunfit
    exact hunfit

/-! ## A stack is lost in operation (R183, R184) -/

/-- What the loss of a stack in operation leaves. -/
theorem State.stackLost_kept {s : State} {k : Nat} (hl : (s.stack k).lost = true) (hm : s.dev.mode = .ready ∨ s.dev.mode = .unfit) :
    (s.stackLost k).dev.mode = .unfit ∧ ((s.stackLost k).stack k).lines = [] ∧ ((s.stackLost k).stack k).held = []
      ∧ (s.dev.mode = .ready → (s.stackLost k).dev.unfitCause = 1 ∧ (s.stackLost k).serve.stopped = true
        ∧ (s.stackLost k).links.farewell = true ∧ s.dev.generation < (s.stackLost k).dev.generation) := by
  rw [State.stackLost_of_lost hl hm]
  obtain ⟨x, hx⟩ : ∃ x, s.logAt 0x010A (uidStack k) 0 [(s.stack k).lossCause] = x := ⟨_, rfl⟩
  have hdev : x.dev = s.dev := by rw [← hx, State.logAt_dev]
  rw [hx]
  have hstack := (x.loseStack_kept k).2.2.2 k
  rw [State.dropLines, State.stack_setStack] at hstack
  have hmode : (x.loseStack k).dev.mode = .unfit := by
    by_cases hu : x.dev.mode = .unfit
    · rw [(State.loseStack_of_unfit hu k).1, hu]
    · rw [(State.loseStack_of_fit hu k).1]
  refine ⟨hmode, by rw [hstack], by rw [hstack], fun hready => ?_⟩
  have hfit : x.dev.mode ≠ .unfit := by rw [hdev, hready]; simp
  obtain ⟨fdev, fstop, ffare, -⟩ := State.loseStack_of_fit hfit k
  rw [fdev, hdev]
  exact ⟨rfl, fstop, ffare, Nat.lt_succ_self _⟩

/-! ## The logbook controller (R490) -/

/-- The controller numbers a message and writes it to the ring; the rest of the log stays. -/
theorem State.logTake_log (s : State) (m : LogMsg) : ∃ e : LogEntry, e.seq = s.log.nextSeq ∧ e.msg = m
    ∧ (s.logTake m).log = { s.log with
        ring := if s.log.ring.length < 16384 then s.log.ring ++ [e] else (s.log.ring ++ [e]).drop 1, nextSeq := s.log.nextSeq + 1 } := by
  refine ⟨{ seq := s.log.nextSeq, event := logEvent m.code && ((s.fn 0 0).tray.isSome || (s.fn 1 0).tray.isSome), msg := m }, rfl, rfl, ?_⟩
  have hring (e : LogEntry) : (if (s.log.ring ++ [e]).length > 16384 then (s.log.ring ++ [e]).drop 1 else s.log.ring ++ [e])
      = if s.log.ring.length < 16384 then s.log.ring ++ [e] else (s.log.ring ++ [e]).drop 1 := by
    have hlen : (s.log.ring ++ [e]).length > 16384 ↔ ¬ s.log.ring.length < 16384 := by
      rw [List.length_append, List.length_singleton]; omega
    simp only [hlen, ite_not]
  have hsent (x : State) (b : Bytes) (c : Bool) : (if c then x.toOperators b else x).log = x.log := by
    split
    · rw [(x.toOperators_replyRel b).frame]
    · rfl
  unfold State.logTake
  exact (hsent _ _ _).trans (congrArg (fun r => { s.log with ring := r, nextSeq := s.log.nextSeq + 1 }) (hring _))

/-- After a discard the next entry is LOG_OVERFLOW with their count. -/
theorem execLogMessage_of_dropped {s : State} (h : 0 < s.log.dropped) : execLogMessage s = .next (State.logTake
    { s with log := { s.log with dropped := 0 } } { mkMsg 0x0703 (uid 0x01 0) 0 [] with count := s.log.dropped, time := s.time }) :=
  congrArg _ (if_pos h)

/-- Otherwise the oldest message of the intake is written. -/
theorem execLogMessage_of_intake {s : State} {m : LogMsg} {rest : List LogMsg} (h : s.log.dropped = 0) (hi : s.log.intake = m :: rest) :
    execLogMessage s = .next (State.logTake { s with log := { s.log with intake := rest } } m) := by
  unfold execLogMessage
  rw [if_neg (by omega), hi]

theorem execLogMessage_of_empty {s : State} (h : s.log.dropped = 0) (hi : s.log.intake = []) : execLogMessage s = .next s := by
  unfold execLogMessage
  rw [if_neg (by omega), hi]

/-! ## The start -/

/-- Each command that makes a condition of a start come true is followed by the start where the others hold (R506–R508). -/
theorem exec_startCondition {s u : State} {i : Instr} (h : (i = .inrushComplete ∧ u = { s with board := { s.board with inrush := true } })
    ∨ (i = .modResetNRelease ∧ u = { s with board := { s.board with modResetN := true } })
    ∨ (i = .pllRelockHoldEnd ∧ u = { s with board := { s.board with pllHold := false } })
    ∨ (i = .powerOnStart ∧ s.board.pwrEn = false ∧ u = { s with board := { s.board with pwrEn := true } })) :
    exec i s = .next u.tryStart ∧ u.flash = s.flash ∧ u.fuse = s.fuse ∧ u.links = s.links
      ∧ u.board.halted = s.board.halted ∧ u.board.ready = s.board.ready := by
  rcases h with ⟨rfl, rfl⟩ | ⟨rfl, rfl⟩ | ⟨rfl, rfl⟩ | ⟨rfl, hp, rfl⟩
  · exact ⟨rfl, rfl, rfl, rfl, rfl, rfl⟩
  · exact ⟨rfl, rfl, rfl, rfl, rfl, rfl⟩
  · exact ⟨rfl, rfl, rfl, rfl, rfl, rfl⟩
  · refine ⟨?_, rfl, rfl, rfl, rfl, rfl⟩
    rw [exec_powerOnStart, execPowerOnStart, hp]; rfl

/-- Settles O52, command by command: the ROM's two tries, the checks after the bridges' training, the round before the sites start,
the stacks, READY, a loss in operation and the logbook controller. -/
theorem startOfDevice : Obligations.StartOfDevice := by
  intro s
  refine ⟨?conditions, ?on, ?noBridge, ?bridge, ?noHold, ?hold, ?noStack, ?stack, ?ready, ?noLoss, ?loss, ?noMessage, ?message⟩
  case conditions =>
    intro i u h
    obtain ⟨he, hflash, hfuse, hlinks, hhalted, hready⟩ := exec_startCondition h
    refine ⟨fun hn => ?_, fun hst img hi ht hsig hsv hbad => ?_, fun hst hr img hi hsig hsv hbad => ?_, fun hst hr hr2 => ?_⟩
    · rw [he, State.tryStart_of_not_startsAt hn]
    · rw [he, State.tryStart_of_startsAt hst]
      rw [← hflash] at hi ht hsv
      rw [State.powerUp_of_accepted hi ht (rejects_of_good hsig hsv hbad)]
      obtain ⟨hm, himg, hboard, hinc, huds, hfl, hfu⟩ := u.romRuns.booted_kept img
      refine ⟨_, rfl, hm, himg, by rw [hboard]; rfl, by rw [hboard], ?_, ?_, huds, hfl.trans hflash, hfu.trans hfuse, ?_⟩
      · rw [hboard]; exact hhalted
      · exact hinc.trans (congrArg (fun l => l.ownInc + 1) hlinks)
      · rw [hboard]; exact hready
    · rw [he, State.tryStart_of_startsAt hst]
      rw [← hflash] at hr hi hsv ⊢
      obtain ⟨fl, hup, hact, htrial, hseq⟩ := State.powerUp_of_other hr hi (rejects_of_good hsig hsv hbad)
      obtain ⟨-, himg, hboard, -, -, hfl, -⟩ := State.booted_kept { u.romRuns with flash := fl } img
      rw [hup]
      refine ⟨_, rfl, himg, by rw [hboard], ?_, ?_, ?_⟩ <;> rw [hfl]
      · exact hact
      · exact htrial
      · exact hseq
    · rw [he, State.tryStart_of_startsAt hst]
      rw [← hflash] at hr hr2 ⊢
      obtain ⟨fl, hup, hseq⟩ := State.powerUp_of_rejected hr hr2
      rw [hup]
      exact ⟨_, rfl, rfl, rfl, hready, hseq⟩
  case on =>
    intro hp
    exact congrArg _ (if_pos hp)
  case noBridge =>
    intro h off
    rw [exec_bridgeTrained, execBridgeTrained, State.bridgesTrained_of_not off h]
  case bridge =>
    intro hm hh hs off
    obtain ⟨hboard, hflash, hfuse⟩ := s.bridgesUp_kept off
    have hbr : (s.bridgesTrained off).bridges = (s.bridgesUp off).bridges := by
      rw [State.bridgesTrained_eq off hm hh hs]
      rcases (s.bridgesUp off).startChecks_cases with ⟨-, h⟩ | ⟨-, h, -⟩
      · rw [h]
      · exact h
    have hb : ∀ br, (s.bridgesTrained off).bridge br = (s.bridgesUp off).bridge br :=
      fun br => congrArg (fun t => tget ({} : BridgeState) t br) hbr
    refine ⟨_, rfl, fun br hlt => ?_, fun ok p hp hok => ?_⟩
    · rw [hb, State.bridgesUp_bridge s off hlt]; exact ⟨rfl, rfl⟩
    · have hiff : ok ↔ (s.bridgesUp off).startOk := by
        rw [hok, State.startOk, popOk_iff, hfuse, ← hp]
        simp only [hb]
      rw [hiff]
      rw [State.bridgesTrained_eq off hm hh hs, ← hflash]
      rcases (s.bridgesUp off).startChecks_cases with ⟨hgood, h⟩ | ⟨hbad, -, hhalt, hseq⟩
      · refine ⟨fun _ => ?_, fun hn => absurd hgood hn⟩
        rw [h]; exact ⟨(congrArg BoardState.halted hboard).trans hh, rfl⟩
      · refine ⟨fun hg => absurd hg hbad, fun _ => ?_⟩
        rw [hhalt]; exact ⟨rfl, (congrArg BoardState.stage hboard).trans hs, hseq⟩
  case noHold =>
    intro h l
    simp [execHotStartRecheck, h]
  case hold =>
    intro hhold hm hh hs l
    have he : exec (.hotStartRecheck l) s = .next (s.houseRound l).hotCheck := by
      rw [exec_hotStartRecheck, execHotStartRecheck, if_pos hhold]
    obtain ⟨hrounds, hkept⟩ := State.hotRecheck_kept ⟨hm, hh, hs⟩ l rfl
    refine ⟨_, he, hrounds, fun htrip => ?_⟩
    obtain ⟨hhot, hcool⟩ := hkept htrip
    refine ⟨hhot, fun hall => hcool ?_⟩
    rintro ⟨c, v, hc, hv, hle⟩
    have := hall c v hc hv
    omega
  case noStack =>
    intro k ok hk h
    exact execStackTrainingDone_of_not ok hk h
  case stack =>
    intro k b hk hb hm hh hs ht hl
    refine ⟨⟨_, execStackTrainingDone_ok hm hh hs ht hl hk, ?_, fun j hj => State.stack_setStack_ne _ _ hj, fun i hi => ?_⟩,
      ⟨_, execStackTrainingDone_fail hm hh hs ht hl hk, ?_, fun j hj => ?_⟩⟩
    · rw [State.stack_setStack]; rfl
    · rw [State.stack_setStack, hb]; exact StackState.applyRemap_remap (s.stack k) k _ hi
    · exact State.stack_setStack _ _ _
    · exact State.stack_setStack_ne _ _ hj
  case ready =>
    intro ready hready
    rw [← s.mayReady_iff] at hready
    rw [hready]
    refine ⟨fun hn => ?_, fun hmay => ⟨_, rfl, State.readyAssert_kept hmay rfl⟩⟩
    rw [exec_readyAssert, execReadyAssert, State.readyAssert_of_not hn]
  case noLoss =>
    intro k hk h
    rw [exec_stackLost, execStackLost, atUnit_of_lt hk, State.stackLost_of_not h]
  case loss =>
    intro k hk hl hm
    rw [exec_stackLost, execStackLost, atUnit_of_lt hk]
    exact ⟨_, rfl, State.stackLost_kept hl hm⟩
  case noMessage =>
    intro hd hi
    exact execLogMessage_of_empty hd hi
  case message =>
    intro m rest h
    rcases h with ⟨hd, hrest, hcode, hcount, htime, hunit⟩ | ⟨hd, hi⟩
    · obtain ⟨e, hseq, hmsg, hlog⟩ := State.logTake_log { s with log := { s.log with dropped := 0 } }
        { mkMsg 0x0703 (uid 0x01 0) 0 [] with count := s.log.dropped, time := s.time }
      refine ⟨_, e, execLogMessage_of_dropped hd, ?_, ?_, ?_, ?_, hseq, ?_⟩
      · rw [hlog, hrest]
      · rw [hlog]
      · rw [hlog]
      · rw [hlog]
      · rw [hmsg, hcode, hcount, htime, hunit]; exact ⟨rfl, rfl, rfl, rfl⟩
    · obtain ⟨e, hseq, hmsg, hlog⟩ := State.logTake_log { s with log := { s.log with intake := rest } } m
      refine ⟨_, e, execLogMessage_of_intake hd hi, ?_, ?_, ?_, ?_, hseq, ?_⟩
      · rw [hlog]
      · rw [hlog]; exact hd
      · rw [hlog]
      · rw [hlog]
      · rw [hmsg]; exact ⟨rfl, rfl, rfl, rfl⟩

end Sys2Proof.Machine
end

section
/-! SUPPORT. When a command completes: each command's meaning answers through the check of the unit that it names, and the
obligation about that. -/
namespace Sys2Proof.Machine

/-! ## Answers -/

/-- How a command answers, by whether the unit it names exists: with a next state, or with the fault that names the unit. -/
inductive AnswersBy : Bool → Out → Prop where
  | next (t : State) : AnswersBy true (.next t)
  | noSuchUnit (what : String) (n : Nat) : AnswersBy false (.fault (.noSuchUnit what n))

/-- The answer tells whether the unit exists, and is never a refusal. -/
theorem AnswersBy.complete {b : Bool} {o : Out} (h : AnswersBy b o) :
    (b = true ↔ ∃ t, o = .next t) ∧ (b = false ↔ ∃ what n, o = .fault (.noSuchUnit what n)) ∧ ∀ r, o ≠ .refused r := by
  cases h with
  | next t => simp
  | noSuchUnit what n => simp

theorem answersBy_ite {p : Prop} [Decidable p] {b : Bool} (hb : b = decide p) (t : State) (what : String) (n : Nat) :
    AnswersBy b (if p then .next t else .fault (.noSuchUnit what n)) := by
  subst hb
  by_cases hp : p
  · simpa [hp] using .next t
  · simpa [hp] using .noSuchUnit what n

/-! ## The check of each kind of unit (R19, R22, R248, R272, R322, R340) -/

theorem atUnit_answersBy (what : String) (n c : Nat) (t : State) : AnswersBy (decide (n < c)) (atUnit what n c t) :=
  answersBy_ite rfl t what n

theorem atArray_answersBy (g a : Nat) (t : State) : AnswersBy (UnitRef.exists (.array g a)) (atArray g a t) := by
  unfold atArray
  by_cases hg : g < 2016
  · rw [if_pos hg]; exact answersBy_ite (by simp [UnitRef.exists, hg]) ..
  · simpa [UnitRef.exists, hg] using .noSuchUnit "core" g

theorem atEng_answersBy (e : EngRef) (t : State) : AnswersBy e.exists (atEng e t) := by
  cases e with
  | cdma c => exact atUnit_answersBy ..
  | hdma h => exact atUnit_answersBy ..

/-- An interface index has a router exactly when it is not reserved (R272): the ranges of the agents' interfaces leave out
252–255 alone below 392. -/
theorem State.ifRouter_isSome (s : State) (i : Nat) : (s.ifRouter i).isSome = UnitRef.exists (.netIf i) := by
  rw [Bool.eq_iff_iff]
  simp only [State.ifRouter, apply_ite Option.isSome, Option.isSome_some, Option.isSome_none, Bool.if_true_left, UnitRef.exists,
    Bool.or_eq_true, Bool.and_eq_true, decide_eq_true_eq, Bool.false_eq_true, or_false]
  omega

theorem State.atIf_answersBy (s : State) (i : Nat) (t : State) : AnswersBy (UnitRef.exists (.netIf i)) (s.atIf i t) :=
  answersBy_ite (by rw [← s.ifRouter_isSome i, Bool.decide_eq_true]) t "network interface" i

/-- The two counts of a die's bulk routers agree: by its mesh, and by the kind of die (R248). -/
theorem routerExists_eq (d r : Nat) : routerExists d r = UnitRef.exists (.router d r) := by
  refine decide_eq_decide.mpr ?_
  unfold meshCols meshRows routersOn
  by_cases hd : d < 4
  · simp only [if_pos hd]; omega
  · simp only [if_neg hd]; split <;> omega

theorem atRouter_answersBy (d r : Nat) (t : State) : AnswersBy (UnitRef.exists (.router d r)) (atRouter d r t) :=
  answersBy_ite (by rw [← routerExists_eq, Bool.decide_eq_true]) ..

theorem postExists_eq (d r : Nat) : postExists d r = UnitRef.exists (.post d r) := by
  simp [postExists, UnitRef.exists]

theorem atPost_answersBy (d r : Nat) (t : State) : AnswersBy (UnitRef.exists (.post d r)) (atPost d r t) :=
  answersBy_ite (by rw [← postExists_eq, Bool.decide_eq_true]) ..

theorem atFn_answersBy (p f : Nat) (t : State) : AnswersBy (decide (p < 2) && decide (f < 32)) (atFn p f t) :=
  answersBy_ite (Bool.decide_and ..).symm ..

theorem atSrc_answersBy (src : LSrc) (t : State) : AnswersBy (UnitRef.exists (.letter src)) (atSrc src t) := by
  cases src with
  | host p f k => exact answersBy_ite (by simp [UnitRef.exists, Bool.and_assoc]) ..
  | mgmt k => exact answersBy_ite rfl ..

theorem atScope_answersBy (r : ScopeRef) (t : State) : AnswersBy (UnitRef.exists (.scope r)) (atScope r t) := by
  cases r with
  | eng e => exact atEng_answersBy ..
  | core g => exact atUnit_answersBy ..
  | cluster c => exact atUnit_answersBy ..
  | sieve u => exact atUnit_answersBy ..
  | winnow f => exact atUnit_answersBy ..
  | partition p => exact atUnit_answersBy ..

/-- A virtual function is a function other than function 0: answer a next state for one of the package. -/
def atVirtual (p f : Nat) (t : State) : Out := if f = 0 then .fault (.noSuchUnit "virtual function" 0) else atFn p f t

theorem atVirtual_answersBy (p f : Nat) (t : State) : AnswersBy (UnitRef.exists (.virtual p f)) (atVirtual p f t) := by
  unfold atVirtual
  by_cases hf : f = 0
  · simpa [hf, UnitRef.exists] using .noSuchUnit "virtual function" 0
  · simpa [hf, UnitRef.exists, Nat.pos_of_ne_zero hf] using atFn_answersBy p f t

/-! ## Every command answers through the check of its unit -/

/-- Answer a next state `t` from state `s` for a unit of the package: the check that the model makes for its kind of unit. -/
def State.atRef (s : State) (u : UnitRef) (t : State) : Out :=
  match u with
  | .device => .next t
  | .core g => atUnit "core" g 2016 t
  | .array g a => atArray g a t
  | .cluster c => atUnit "cluster" c 252 t
  | .engine e => atEng e t
  | .stack k => atUnit "stack" k 12 t
  | .sieve v => atUnit "page sieve unit" v 16 t
  | .winnow f => atUnit "winnow router" f 4 t
  | .xlate d => atUnit "translation unit" d 16 t
  | .netIf i => s.atIf i t
  | .router d r => atRouter d r t
  | .post d r => atPost d r t
  | .site n => atSite n t
  | .die d => atUnit "die" d 16 t
  | .bridge b => atUnit "bridge" b 4 t
  | .link l => atUnit "scale-up port" l 16 t
  | .hostPort p => atUnit "host port" p 2 t
  | .function p f => atFn p f t
  | .virtual p f => atVirtual p f t
  | .partition p => atUnit "partition" p 4 t
  | .letter src => atSrc src t
  | .scope r => atScope r t
  | .register (.hub _ _) => .next t
  | .register (.bar p f _ _) => atFn p f t

theorem State.atRef_answersBy (s : State) (u : UnitRef) (t : State) : AnswersBy u.exists (s.atRef u t) := by
  cases u with
  | device => exact .next t
  | array g a => exact atArray_answersBy ..
  | engine e => exact atEng_answersBy ..
  | netIf i => exact s.atIf_answersBy ..
  | router d r => exact atRouter_answersBy ..
  | post d r => exact atPost_answersBy ..
  | function p f => exact atFn_answersBy ..
  | virtual p f => exact atVirtual_answersBy ..
  | letter src => exact atSrc_answersBy ..
  | scope r => exact atScope_answersBy ..
  | register r =>
    cases r with
    | hub phys size => exact .next t
    | bar p f off size => exact atFn_answersBy ..
  | core | cluster | stack | sieve | winnow | xlate | site | die | bridge | link | hostPort | partition => exact atUnit_answersBy ..

/-- A memory-side ADD completes for a format it knows and for one it does not know. -/
theorem execMemopAdd_next (iss : Issuer) (addr fmt val : Nat) (s : State) : ∃ t, execMemopAdd iss addr fmt val s = .next t := by
  unfold execMemopAdd
  cases addFmt fmt with
  | none => exact ⟨_, rfl⟩
  | some nf => exact ⟨_, rfl⟩

/-- A command's meaning is one next state behind the check of the unit that the command names. For all but the two commands
that first look at an operand, its definition has that form. -/
theorem exec_eq_atRef (i : Instr) (s : State) : ∃ t, exec i s = s.atRef i.unit t := by
  cases i
  case memopAdd iss addr fmt val => exact execMemopAdd_next iss addr fmt val s
  case registerWrite r value =>
    cases r with
    | hub phys size => exact ⟨_, rfl⟩
    | bar p f off size => exact ⟨_, rfl⟩
  all_goals exact ⟨_, rfl⟩

/-- Settles O56: a command's meaning answers through the check of its unit, and every check completes exactly for the units of
the package (that a command whose occasion does not hold still answers a next state is the model's choice, log entry 1). -/
theorem commandsComplete : Obligations.CommandsComplete := by
  intro i s
  obtain ⟨t, ht⟩ := exec_eq_atRef i s
  rw [ht]
  exact (s.atRef_answersBy i.unit t).complete

end Sys2Proof.Machine
end

section
/-! SUPPORT. What the zero-map commands do to an array's maps, and the obligation about them. -/
namespace Sys2Proof.Machine

/-! ## Commands that an array runs -/

theorem atArray_of_lt {g a : Nat} (hg : g < 2016) (ha : a < 4) (s : State) : atArray g a s = .next s := by
  rw [atArray, if_pos hg, if_pos ha]

/-- A command of an array that is running, of the wanted kind and not done, does its work. -/
theorem State.onRun_of_run {s : State} {g a : Nat} {u : ArrUnit} {op : Nat → Bool} {r : RunCmd} (F : RunCmd → State)
    (hr : (s.arr g a).run u = some r) (ho : op (cwOp r.word) = true) (hd : r.done = false) : s.onRun g a u op F = F r := by
  have hr' : ((s.core g).arr a).run u = some r := hr
  simp [State.onRun, hr', ho, hd]

@[simp] theorem State.arr_setArr (s : State) (g a : Nat) (x : ArrayState) : (s.setArr g a x).arr g a = x := by
  simp [State.arr, State.setArr]

theorem State.setCore_onlyCore (s : State) (g : Nat) (c : CoreState) : s.onlyCore g (s.setCore g c) :=
  ⟨rfl, fun _ h => s.core_setCore_ne c h⟩

/-- A write of core-local memory and of one array. -/
theorem CoreState.setArr_wrm_onlyMemArr (c : CoreState) (a addr : Nat) (bs : Bytes) (x : ArrayState) :
    c.onlyMemArr a ((c.wrm addr bs).setArr a x) :=
  ⟨rfl, fun _ h => (c.wrm addr bs).arr_setArr_ne x h⟩

@[simp] theorem CoreState.setArr_mem (c : CoreState) (a : Nat) (x : ArrayState) : (c.setArr a x).mem = c.mem := rfl
@[simp] theorem CoreState.rdm_setArr (c : CoreState) (a : Nat) (x : ArrayState) (addr n : Nat) : (c.setArr a x).rdm addr n = c.rdm addr n := rfl

/-- A number just written reads back as its bytes. -/
theorem CoreState.rdm_wrm_le (c : CoreState) (addr n v : Nat) : (c.wrm addr (le n v)).rdm addr n = le n v := by
  have h : mread (mwrite c.mem addr (le n v)) addr (le n v).length = le n v := mread_mwrite ..
  rwa [le_length] at h

/-- A write of a number changes the bytes it covers alone. -/
theorem CoreState.setArr_wrm_le_memKept (c : CoreState) (a addr n v : Nat) (x : ArrayState) :
    c.memKept addr n ((c.wrm addr (le n v)).setArr a x) := by
  intro i hi
  rw [CoreState.setArr_mem]
  exact (mget_mwrite (le n v) c.mem addr i).trans (if_neg (by rw [le_length]; omega))

/-! ## The keyed maps (R69) -/

/-- The map installed is the one its key finds. -/
theorem find_putZmap (l : List ZMap) (m : ZMap) : (putZmap l m).find? (fun z => z.base == m.base) = some m := by
  simp [putZmap]

/-- Installing a map brings in no other map. -/
theorem mem_of_mem_putZmap {l : List ZMap} {m z : ZMap} (h : z ∈ putZmap l m) : z = m ∨ z ∈ l := by
  have hz : z ∈ m :: l.filter (fun y => y.base != m.base) := List.mem_of_mem_take h
  exact (List.mem_cons.mp hz).imp_right (fun hy => (List.mem_filter.mp hy).1)

/-- An array holds at most eight maps once one is installed. -/
theorem putZmap_length_le (l : List ZMap) (m : ZMap) : (putZmap l m).length ≤ 8 := List.length_take_le ..

/-- The maps after CLEAR of a key (R70). -/
def clearedZmaps (l : List ZMap) (base : Nat) : List ZMap :=
  if l.any (fun z => z.base == base) then putZmap l { base := base, bits := 0 } else l

theorem find_clearedZmaps (l : List ZMap) (base : Nat) : (clearedZmaps l base).find? (fun z => z.base == base)
    = if l.any (fun z => z.base == base) then some { base := base, bits := 0 } else none := by
  unfold clearedZmaps
  by_cases h : l.any (fun z => z.base == base) = true
  · rw [if_pos h, if_pos h]; exact find_putZmap l { base := base, bits := 0 }
  · rw [if_neg h, if_neg h]
    simpa using h

theorem mem_of_mem_clearedZmaps {l : List ZMap} {base : Nat} {z : ZMap} (h : z ∈ clearedZmaps l base) (hb : z.base ≠ base) : z ∈ l := by
  unfold clearedZmaps at h
  split at h
  · exact (mem_of_mem_putZmap h).resolve_left (fun e => hb (congrArg ZMap.base e))
  · exact h

/-- The map that WRITE installs: the word's key, and the 128 bytes at its ADDR (R70). -/
def CoreState.sourceZmap (c : CoreState) (r : RunCmd) : ZMap :=
  { base := bf r.word 79 73, bits := BitVec.ofNat 1024 (unle (c.rdm (bf r.word 127 104) 128)) }

/-! ## The commands ZMAP READ, CLEAR and WRITE (R70) -/

section zmap
variable {s : State} {g a : Nat} {r : RunCmd} (hg : g < 2016) (ha : a < 4) (hr : (s.arr g a).run .load = some r) (hd : r.done = false)
  (ho : cwOp r.word = 0x20)
include hg ha hr hd ho

theorem exec_zmapRead_eq (hz : bf r.word 21 20 = 1) : exec (.zmapRead g a) s = .next (s.setCore g ((s.core g).doZRead a r)) := by
  have h : exec (.zmapRead g a) s = execZmapRead g a s := rfl
  rw [h, execZmapRead, atArray_of_lt hg ha, State.zmapRun, State.onRun_of_run _ hr (by simp [ho]) hd, if_pos hz]

theorem exec_zmapClear_eq (hz : bf r.word 21 20 = 0) : exec (.zmapClear g a) s = .next (s.setArr g a
    ({ s.arr g a with zmaps := clearedZmaps (s.arr g a).zmaps (bf r.word 79 73) }.setRun { r with done := true })) := by
  have h : exec (.zmapClear g a) s = execZmapClear g a s := rfl
  rw [h, execZmapClear, atArray_of_lt hg ha, State.zmapRun, State.onRun_of_run _ hr (by simp [ho]) hd, if_pos hz]
  rfl

theorem exec_zmapWrite_eq (hz : bf r.word 21 20 = 2) (hp : (s.core g).pzAny (bf r.word 127 104) 128 = false) :
    exec (.zmapWrite g a) s = .next (s.setArr g a
      ({ s.arr g a with zmaps := putZmap (s.arr g a).zmaps ((s.core g).sourceZmap r) }.setRun { r with done := true })) := by
  have h : exec (.zmapWrite g a) s = execZmapWrite g a s := rfl
  rw [h, execZmapWrite, atArray_of_lt hg ha, State.onRun_of_run _ hr (by simp [ho]) hd, if_neg (by simp [hz]), if_neg (by simp [hp])]
  rfl

end zmap

/-- Settles O2, command by command: what READ writes reads back, and what CLEAR and WRITE install is what the key finds. -/
theorem zmapActsOnItsMap : Obligations.ZmapActsOnItsMap := by
  intro s g a r hg ha hr hd ho
  refine ⟨fun hz => ?read, fun hz => ?clear, fun hz hp => ?write⟩
  case read =>
    refine ⟨_, exec_zmapRead_eq hg ha hr hd ho hz, s.setCore_onlyCore g _, ?_⟩
    rw [State.arr, State.core_setCore, CoreState.doZRead]
    exact ⟨CoreState.setArr_wrm_onlyMemArr .., CoreState.arr_setArr .., by rw [CoreState.rdm_setArr, CoreState.rdm_wrm_le]; rfl,
      CoreState.setArr_wrm_le_memKept _ _ _ _ _ _⟩
  case clear =>
    refine ⟨_, exec_zmapClear_eq hg ha hr hd ho hz, ?_⟩
    simp only [State.arr_setArr, true_and]
    exact ⟨find_clearedZmaps _ _, fun z => mem_of_mem_clearedZmaps, rfl⟩
  case write =>
    refine ⟨_, exec_zmapWrite_eq hg ha hr hd ho hz hp, ?_⟩
    simp only [State.arr_setArr, true_and]
    exact ⟨find_putZmap _ _, fun z h hb => (mem_of_mem_putZmap h).resolve_left (fun e => hb (congrArg ZMap.base e)),
      putZmap_length_le _ _, rfl⟩

end Sys2Proof.Machine
end

section
/-! SUPPORT. What the accesses of a translation client and the writes to a circular group can do, said once for each. -/
namespace Sys2Proof.Machine

/-! ## The state under accesses -/

/-- Everything that a client's translated accesses, and writes to the targets of a group, can do to the state. -/
def State.accessRel (s t : State) : Prop :=
  t = { s with hbm := t.hbm, cores := t.cores, log := t.log, fresh := t.fresh, pstate := t.pstate, xlate := t.xlate, bag := t.bag
               acc := t.acc, links := t.links, sites := t.sites, out := t.out }

theorem State.accessRel_refl (s : State) : s.accessRel s := rfl

theorem State.accessRel_trans (s t u : State) (h : s.accessRel t) (g : t.accessRel u) : s.accessRel u := by
  unfold State.accessRel at *; rw [g, h]

theorem State.memRel.access {s t : State} (h : s.memRel t) : s.accessRel t := by
  unfold State.accessRel; rw [h.frame]

theorem State.linkRel.access {s t : State} (h : s.linkRel t) : s.accessRel t := by
  unfold State.accessRel; rw [h]

/-- No access changes a winnow router. -/
theorem State.accessRel.win {s t : State} (h : s.accessRel t) (f : Nat) : t.win f = s.win f := by
  rw [h]; rfl

/-- A fold of accesses is an access. -/
theorem foldl_accessRel {β : Type} (f : State → β → State) (h : ∀ (s : State) b, s.accessRel (f s b)) (l : List β) (s : State) :
    s.accessRel (l.foldl f s) :=
  foldl_rel State.accessRel State.accessRel_refl State.accessRel_trans f h l s

/-- So is one that carries a result along. -/
theorem foldl_snd_accessRel {α β : Type} (f : α × State → β → α × State) (h : ∀ (x : α × State) b, x.2.accessRel (f x b).2) (l : List β)
    (x : α × State) : x.2.accessRel (l.foldl f x).2 :=
  foldl_rel (fun x y : α × State => x.2.accessRel y.2) (fun _ => State.accessRel_refl _) (fun _ _ _ => State.accessRel_trans _ _ _) f h l x

theorem State.setXl_accessRel (s : State) (d : Nat) (x : XlateState) : s.accessRel (s.setXl d x) := rfl
theorem State.setCore_accessRel (s : State) (g : Nat) (c : CoreState) : s.accessRel (s.setCore g c) := rfl
theorem State.logAt_accessRel (s : State) (c : Nat) (u : W32) (a : Nat) (d : Bytes) : s.accessRel (s.logAt c u a d) := rfl

theorem State.emit_accessRel (s : State) (m : OutMsg) : s.accessRel (s.emit m) := rfl

/-! ## Translation and faults (R230–R236) -/

theorem State.tableRead_memRel (s : State) (iss : Issuer) (phys : Nat) : s.memRel (s.tableRead iss phys).2 :=
  s.devRead_memRel iss phys 8 hintNormal

/-- A walk reads device memory. -/
theorem State.walk_memRel (s : State) (d : Nat) (iss : Issuer) (asid va : Nat) : s.memRel (s.walk d iss asid va).2 := by
  have read {t u : State} {p : Nat} {o : Option Nat} (ht : s.memRel t) (h : t.tableRead iss p = (o, u)) : s.memRel u :=
    State.memRel_trans _ _ _ ht (by simpa [h] using t.tableRead_memRel iss p)
  have h0 := s.memRel_refl
  unfold State.walk; dsimp only
  split
  · exact h0
  split
  · next e => exact read h0 e
  next e =>
  have h1 := read h0 e
  split
  · exact h1
  split
  · next e => exact read h1 e
  next e =>
  have h2 := read h1 e
  split
  · exact h2
  split
  · exact h2
  split
  · next e => exact read h2 e
  next e =>
  have h3 := read h2 e
  split
  · exact h3
  split
  · exact h3
  split
  · exact h3
  split
  · next e => exact read h3 e
  next e =>
  have h4 := read h3 e
  split
  · exact h4
  split
  · exact h4
  · exact h4

theorem State.translate_accessRel (s : State) (d : Nat) (u : W32) (iss : Issuer) (asid va acc : Nat) (fw : Bool) :
    s.accessRel (s.translate d u iss asid va acc fw).2 := by
  have ends (t : State) (e : TlbEnt) :
      (if leafPermits e.leaf.toNat acc fw = true then ((.inr (e.target va), t) : (Nat ⊕ Target) × State) else (.inl xPermission, t)).2 = t := by
    rw [apply_ite Prod.snd, ite_self]
  unfold State.translate; dsimp only
  split
  · rw [ends]; exact s.accessRel_refl
  split
  · rw [ends]; exact s.setXl_accessRel d _
  have walked := State.accessRel_trans _ _ _ (s.setXl_accessRel d { s.xl d with count := cnt (s.xl d).count 1 1 })
    (State.walk_memRel _ d iss asid va).access
  split
  · next e => rw [ends]; rw [e] at walked; exact State.accessRel_trans _ _ _ walked (State.setXl_accessRel _ d _)
  · next e => rw [e] at walked; exact walked

theorem State.accessRel_of_translate {s t : State} {d asid va acc : Nat} {u : W32} {iss : Issuer} {fw : Bool} {o : Nat ⊕ Target}
    (h : s.translate d u iss asid va acc fw = (o, t)) : s.accessRel t := by
  simpa [h] using s.translate_accessRel d u iss asid va acc fw

theorem State.logCause_accessRel (s : State) (d asid va cause : Nat) : s.accessRel (s.logCause d asid va cause) := by
  unfold State.logCause; split
  · exact s.logAt_accessRel ..
  · exact s.accessRel_refl

theorem State.raiseFault_accessRel (s : State) (d : Nat) (u : W32) (asid va cause acc : Nat) :
    s.accessRel (s.raiseFault d u asid va cause acc) := by
  refine State.accessRel_trans _ _ _ (s.logCause_accessRel d asid va cause) ?_
  unfold State.raiseFault; dsimp only
  split
  · exact State.accessRel_refl _
  split
  · rfl
  · rfl

/-! ## Targets (R227, R244, R310) -/

theorem State.countHost_accessRel (s : State) (asid phys len : Nat) : s.accessRel (s.countHost asid phys len) := by
  unfold State.countHost
  split
  · rfl
  extract_lets
  split
  · rfl
  · rfl

theorem State.remoteIssue_accessRel (s : State) (iss : Issuer) (typ dev window group off len code fmt : Nat) (data : PBytes)
    (pkt : Option (Nat × Nat)) : s.accessRel (s.remoteIssue iss typ dev window group off len code fmt data pkt).2 := by
  unfold State.remoteIssue; dsimp only
  split
  · exact s.accessRel_refl
  split
  · exact s.accessRel_refl
  split
  · exact s.accessRel_refl
  · exact State.accessRel_trans _ _ _ (by rfl) (State.sendRec_linkRel _ _ _).access

theorem State.remoteRead_accessRel (s : State) (iss : Issuer) (dev window group off len : Nat) :
    s.accessRel (s.remoteRead iss dev window group off len).2.2 := by
  unfold State.remoteRead
  refine foldl_rel (fun x y : PBytes × MemSt × State => x.2.2.accessRel y.2.2) (fun _ => State.accessRel_refl _)
    (fun _ _ _ => State.accessRel_trans _ _ _) _ (fun x p => ?_) _ (([] : PBytes), MemSt.ok, s)
  dsimp only
  split
  · rfl
  split
  · exact State.accessRel_refl _
  · exact State.remoteIssue_accessRel ..

theorem State.remoteWrite_accessRel (s : State) (iss : Issuer) (dev window group off : Nat) (bs : PBytes) :
    s.accessRel (s.remoteWrite iss dev window group off bs).2 := by
  unfold State.remoteWrite
  refine foldl_snd_accessRel _ (fun x p => ?_) _ (MemSt.ok, s)
  exact State.remoteIssue_accessRel ..

theorem State.tgtRead_accessRel (s : State) (iss : Issuer) (t : Target) (len : Nat) (hint : Option Nat) :
    s.accessRel (s.tgtRead iss t len hint).2.2 := by
  cases t with
  | dev phys h => exact (s.devRead_memRel iss phys len _).access
  | host func phys => exact State.accessRel_trans _ _ _ (s.countHost_accessRel _ _ _) (State.freeBytes_memRel _ len).access
  | remote d w g off => exact s.remoteRead_accessRel ..

theorem State.tgtWrite_accessRel (s : State) (iss : Issuer) (t : Target) (bs : PBytes) (hint : Option Nat) :
    s.accessRel (s.tgtWrite iss t bs hint).2 := by
  unfold State.tgtWrite
  cases t with
  | dev phys h => exact (s.devWrite_memRel iss phys bs _).access
  | host func phys => exact State.accessRel_trans _ _ _ (s.countHost_accessRel _ _ _) (State.emit_accessRel _ _)
  | remote d w g off => exact s.remoteWrite_accessRel ..

/-! ## Accesses of a client (R76, R85, R230) -/

theorem State.clProbe_accessRel (s : State) (c : Client) (va n acc : Nat) : s.accessRel (s.clProbe c va n acc).2 := by
  unfold State.clProbe
  refine foldl_snd_accessRel _ (fun x p => ?_) _ (none, s)
  split
  · exact State.accessRel_refl _
  split
  · next e => exact State.accessRel_trans _ _ _ (State.accessRel_of_translate e) (State.raiseFault_accessRel ..)
  · next e => exact State.accessRel_of_translate e

theorem State.clRead_accessRel (s : State) (c : Client) (va n hint : Nat) : s.accessRel (s.clRead c va n hint).2 := by
  unfold State.clRead
  refine foldl_snd_accessRel _ (fun x p => ?_) _ (ClAcc.ok [] .ok, s)
  dsimp only
  split
  · exact State.accessRel_refl _
  split
  · next e => exact State.accessRel_trans _ _ _ (State.accessRel_of_translate e) (State.raiseFault_accessRel ..)
  · next e => exact State.accessRel_trans _ _ _ (State.accessRel_of_translate e) (State.tgtRead_accessRel ..)

theorem State.clWrite_accessRel (s : State) (c : Client) (va : Nat) (bs : PBytes) (hint : Nat) : s.accessRel (s.clWrite c va bs hint).2 := by
  unfold State.clWrite
  refine foldl_snd_accessRel _ (fun x p => ?_) _ (ClAcc.ok [] .ok, s)
  dsimp only
  split
  · exact State.accessRel_refl _
  split
  · next e => exact State.accessRel_trans _ _ _ (State.accessRel_of_translate e) (State.raiseFault_accessRel ..)
  · next e => exact State.accessRel_trans _ _ _ (State.accessRel_of_translate e) (State.tgtWrite_accessRel ..)

/-! ## Writes to a group (R85, R296, R314) -/

theorem State.localWrite_accessRel (s : State) (g a : Nat) (bs : PBytes) : s.accessRel (s.localWrite g a bs).2 := by
  unfold State.localWrite; dsimp only
  split
  · exact s.accessRel_refl
  split
  · exact s.accessRel_refl
  split
  · exact s.setCore_accessRel g _
  · exact s.accessRel_refl

theorem State.dieSend_accessRel (s : State) (n : Nat) (q : DieReq) (d : Bytes) : s.accessRel (s.dieSend n q d).2 := by
  unfold State.dieSend; dsimp only
  split
  · exact s.accessRel_refl
  · rfl

theorem State.circOut_accessRel (s : State) (iss : Issuer) (l group addr : Nat) (bs : PBytes) :
    s.accessRel (s.circOut iss l group addr bs).2 := by
  unfold State.circOut; dsimp only
  split
  · split
    · exact s.accessRel_refl
    · exact State.accessRel_trans _ _ _ (by rfl) (State.sendRec_linkRel _ _ _).access
  · exact s.accessRel_refl

theorem State.groupWrite_accessRel (s : State) (f group addr : Nat) (bs : PBytes) : s.accessRel (s.groupWrite f group addr bs) := by
  unfold State.groupWrite
  refine foldl_accessRel _ (fun t x => ?_) _ s
  cases x with
  | core g => exact t.localWrite_accessRel ..
  | link l => exact t.circOut_accessRel ..
  | die n a => exact t.dieSend_accessRel ..

end Sys2Proof.Machine
end

section
/-! SUPPORT. How a winnow router's letters leave, how a round finishes, what a write of WINNOW_CTX does, and the obligation about
them. -/
namespace Sys2Proof.Machine

/-! ## The commands -/

@[simp] theorem exec_tokenLetter (f : Nat) (s : State) : exec (.tokenLetter f) s = execTokenLetter f s := rfl
@[simp] theorem exec_roundCloseFinish (f r : Nat) (s : State) : exec (.roundCloseFinish f r) s = execRoundCloseFinish f r s := rfl
@[simp] theorem exec_winnowCtxWrite (f : Nat) (v : W64) (s : State) : exec (.winnowCtxWrite f v) s = execWinnowCtxWrite f v s := rfl

/-! ## Letters (R85) -/

/-- A letter to an expert of the round's table leaves the queue and is counted. -/
theorem State.sendLetter_win {s : State} {f : Nat} {r : Round} {l : Letter} (row : PBytes) (he : (r.table[l.expert]?).isSome = true) :
    (s.sendLetter f r l row).win f = { s.win f with letters := (s.win f).letters + 1, sendq := (s.win f).sendq.erase l } := by
  obtain ⟨e, he⟩ := Option.isSome_iff_exists.mp he
  simp only [State.sendLetter, he, State.win_setWin, (State.groupWrite_accessRel _ _ _ _ _).win]

/-- Letters sent one after another. -/
theorem State.foldl_sendLetter_win {f : Nat} {r : Round} (row : PBytes) (ls : List Letter)
    (he : ∀ y ∈ ls, (r.table[y.expert]?).isSome = true) (s : State) : (ls.foldl (fun s y => s.sendLetter f r y row) s).win f
      = { s.win f with letters := (s.win f).letters + BitVec.ofNat 32 ls.length, sendq := ls.foldl List.erase (s.win f).sendq } := by
  induction ls generalizing s with
  | nil => simp
  | cons l ls ih =>
    rw [List.foldl_cons, ih (fun y hy => he y (List.mem_cons_of_mem l hy)), State.sendLetter_win row (he l List.mem_cons_self)]
    simp only [List.length_cons, List.foldl_cons, BitVec.ofNat_add, WinnowState.mk.injEq, true_and]
    ac_rfl

/-- Taking elements out of a list without repetitions leaves the others. -/
theorem foldl_erase_of_nodup {α : Type} [BEq α] [LawfulBEq α] (ls : List α) {l : List α} (h : l.Nodup) :
    ls.foldl List.erase l = l.filter (fun y => !ls.contains y) := by
  induction ls generalizing l with
  | nil => exact (List.filter_eq_self.mpr (fun _ _ => rfl)).symm
  | cons a ls ih =>
    have ha : l.erase a = l.filter (· != a) := h.erase_eq_filter a
    rw [List.foldl_cons, ih (h.erase a), ha, List.filter_filter]
    refine List.filter_congr (fun y _ => ?_)
    rw [List.contains_cons, Bool.not_or, Bool.and_comm, bne]

/-- Taking out those that meet a condition leaves those that do not. -/
theorem foldl_erase_filter_self {α : Type} [BEq α] [LawfulBEq α] {l : List α} (h : l.Nodup) (p : α → Bool) :
    (l.filter p).foldl List.erase l = l.filter (fun y => !p y) := by
  rw [foldl_erase_of_nodup _ h]
  refine List.filter_congr (fun y hy => congrArg not ?_)
  rw [Bool.eq_iff_iff, List.contains_iff_mem, List.mem_filter]
  exact and_iff_right hy

/-- The letters that wait for one token. -/
def WinnowState.lettersOf (x : WinnowState) (l : Letter) : List Letter :=
  x.sendq.filter (fun y => y.round == l.round && y.token == l.token)

/-- Where the first letter's row can be read, the letters of its token are sent. -/
theorem State.sendFirst_of_read {s u : State} {f : Nat} {l : Letter} {r : Round} {bs : PBytes} {st : MemSt} (ls : List Letter)
    (hr : (s.win f).round l.round = some r)
    (hc : s.clRead (s.winClient f) l.rowAddr (r.rowBytes + r.scaleBytes) hintNormal = (.ok bs st, u)) (hw : st ≠ .wait) :
    State.sendFirst f (l :: ls) s = ((s.win f).lettersOf l).foldl (fun s y => s.sendLetter f r y bs) u := by
  simp only [State.sendFirst, hr, hc, if_neg hw, WinnowState.lettersOf]

/-! ## Closing a round (R87) -/

/-- The first page that the writes of a closing round do not reach, and the state once they were probed (R76). -/
def State.closeProbe (s : State) (f : Nat) (r : Round) (flag : Nat) : Option Nat × State :=
  (r.closing f flag).foldl (fun (a : Option Nat × State) w => match a.1 with
    | some _ => a
    | none => a.2.clProbe (s.winClient f) w.1 w.2.length kWrite) (none, s)

theorem State.closeProbe_accessRel (s : State) (f : Nat) (r : Round) (flag : Nat) : s.accessRel (s.closeProbe f r flag).2 := by
  unfold State.closeProbe
  refine foldl_snd_accessRel _ (fun x w => ?_) _ (none, s)
  split
  · exact State.accessRel_refl _
  · exact State.clProbe_accessRel ..

theorem State.endLetter_accessRel (s : State) (f : Nat) (r : Round) (i : Nat) (e : Expert) : s.accessRel (s.endLetter f r i e) := by
  unfold State.endLetter
  split
  · exact s.accessRel_refl
  · exact s.groupWrite_accessRel ..

/-- The reports and the summary, the END letters, then the close flag, by a client. -/
def State.closeWrites (s : State) (c : Client) (f : Nat) (r : Round) (flag : Nat) : State :=
  let reported := (r.closing f flag).dropLast.foldl (fun s w => (s.clWrite c w.1 (mark false w.2) hintNormal).2) s
  let ended := r.table.zipIdx.foldl (fun s e => s.endLetter f r e.2 e.1) reported
  (ended.clWrite c flag (mark false (le 8 1)) hintNormal).2

theorem State.closeWrites_accessRel (s : State) (c : Client) (f : Nat) (r : Round) (flag : Nat) : s.accessRel (s.closeWrites c f r flag) := by
  have reported := foldl_accessRel (fun s (w : Nat × Bytes) => (s.clWrite c w.1 (mark false w.2) hintNormal).2)
    (fun s w => s.clWrite_accessRel c w.1 _ _) (r.closing f flag).dropLast s
  have ended := foldl_accessRel (fun s (e : Expert × Nat) => s.endLetter f r e.2 e.1) (fun s e => s.endLetter_accessRel f r e.2 e.1)
    r.table.zipIdx
  exact State.accessRel_trans _ _ _ (State.accessRel_trans _ _ _ reported (ended _)) (State.clWrite_accessRel ..)

/-- A round whose occasion has come and whose pages translate is finished. -/
theorem execRoundCloseFinish_of_closing {s : State} {f : Nat} {r : Round} {flag : Nat} (hf : f < 4) (hr : (s.win f).round r.id = some r)
    (hc : r.closeFlag = some flag) (hs : (s.win f).stopped = false) (hl : r.loaded = true) (hb : ∀ g ∈ (s.win f).buf, g.round ≠ r.id)
    (hq : ∀ l ∈ (s.win f).sendq, l.round ≠ r.id) (hp : (s.closeProbe f r flag).1 = none) : ∃ t, s.accessRel t
      ∧ execRoundCloseFinish f r.id s = .next (t.setWin f { t.win f with rounds := (t.win f).rounds.filter (fun y => y.id != r.id) }) := by
  refine ⟨(s.closeProbe f r flag).2.closeWrites (s.winClient f) f r flag,
    State.accessRel_trans _ _ _ (s.closeProbe_accessRel f r flag) (State.closeWrites_accessRel ..), ?_⟩
  have hg : ((s.win f).stopped || !r.loaded || (s.win f).buf.any (fun g => g.round == r.id)
      || (s.win f).sendq.any (fun l => l.round == r.id)) = false := by
    simpa [hs, hl] using ⟨hb, hq⟩
  have hn : ¬ (s.closeProbe f r flag).1.isSome = true := by simp [hp]
  simp only [execRoundCloseFinish, atUnit_of_lt hf, hr, hc, hg, Bool.false_eq_true, if_false]
  exact congrArg _ (if_neg hn)

/-- A round taken out of the list is open no more. -/
theorem WinnowState.round_filter (x : WinnowState) (k : Nat) :
    ({ x with rounds := x.rounds.filter (fun y => y.id != k) } : WinnowState).round k = none := by
  simp [WinnowState.round]

/-! ## WINNOW_CTX (R90) -/

@[simp] theorem winCtxMask_enable (v : W64) : (winCtxMask v).getLsbD 0 = v.getLsbD 0 := by simp [winCtxMask]

@[simp] theorem winCtxMask_asid (v : W64) : bf (winCtxMask v) 63 48 = bf v 63 48 := by
  have hm : (0xFFFF0000000001F3 : W64).toNat >>> 48 = 2 ^ 16 - 1 := rfl
  have hv : (winCtxMask v).toNat >>> 48 = v.toNat >>> 48 % 2 ^ 16 := by
    rw [winCtxMask, BitVec.toNat_and, Nat.shiftRight_and_distrib, hm, Nat.and_two_pow_sub_one_eq_mod]
  rw [bf, bf, nf, nf, hv, Nat.mod_mod]

/-- Settles O9, command by command: the letters of a token leave together, since reading the row and writing to the group change
no router; a round leaves the list; what a write of WINNOW_CTX discards is decided by its bits that are not reserved. -/
theorem winnowSendsAndFinishes : Obligations.WinnowSendsAndFinishes := by
  intro s f hf
  refine ⟨fun l ls r bs st u hs hq hr he hn hc hw => ?letters, fun r flag hr hc hs hl hb hq hp => ?finish, fun v => ?ctx⟩
  case letters =>
    have hx : u.win f = s.win f := by
      have h := s.clRead_accessRel (s.winClient f) l.rowAddr (r.rowBytes + r.scaleBytes) hintNormal
      rw [hc] at h; exact h.win f
    have hm : ∀ y ∈ (s.win f).lettersOf l, (r.table[y.expert]?).isSome = true :=
      fun y hy => he y (hq ▸ (List.mem_filter.mp hy).1)
    have hsent := State.foldl_sendLetter_win (f := f) bs _ hm u
    refine ⟨_, by rw [exec_tokenLetter, execTokenLetter, atUnit_of_lt hf, hs, if_neg Bool.false_ne_true, hq, State.sendFirst_of_read ls hr hc hw], ?_⟩
    rw [hsent, hx, WinnowState.lettersOf, hq]
    exact ⟨foldl_erase_filter_self hn _, rfl⟩
  case finish =>
    obtain ⟨t, ht, h⟩ := execRoundCloseFinish_of_closing hf hr hc hs hl hb hq hp
    refine ⟨_, h, ?_⟩
    rw [State.win_setWin, ht.win]
    exact ⟨WinnowState.round_filter _ _, rfl⟩
  case ctx =>
    rw [exec_winnowCtxWrite, execWinnowCtxWrite, atUnit_of_lt hf]
    simp only [State.winCtxWrite, winCtxMask_enable, winCtxMask_asid]
    rfl

end Sys2Proof.Machine
end

section
/-! SUPPORT. The remap table, the retraining of a channel and the gleaner, and the obligation about them. -/
namespace Sys2Proof.Machine

/-! ## The commands of a stack's controller -/

@[simp] theorem exec_remapInstall (k i sn : Nat) (r : Option Nat) (s : State) :
    exec (.remapInstall k i sn r) s = execRemapInstall k i sn r s := rfl
@[simp] theorem exec_remapRemove (k i : Nat) (s : State) : exec (.remapRemove k i) s = execRemapRemove k i s := rfl
@[simp] theorem exec_remapOpDone (k : Nat) (s : State) : exec (.remapOpDone k) s = execRemapOpDone k s := rfl
@[simp] theorem exec_channelRetrain (k c : Nat) (s : State) : exec (.channelRetrain k c) s = execChannelRetrain k c s := rfl
@[simp] theorem exec_channelRetrainDone (k c : Nat) (ok : Bool) (s : State) :
    exec (.channelRetrainDone k c ok) s = execChannelRetrainDone k c ok s := rfl
@[simp] theorem exec_gleanerRead (k : Nat) (s : State) : exec (.gleanerRead k) s = execGleanerRead k s := rfl
@[simp] theorem exec_gleanOverdue (k : Nat) (s : State) : exec (.gleanOverdue k) s = execGleanOverdue k s := rfl

/-! ## The stacks under a read by the controller (R164, R175, R176, R183) -/

@[simp] theorem State.stack_logAt (s : State) (c : Nat) (u : W32) (a : Nat) (d : Bytes) (j : Nat) :
    (s.logAt c u a d).stack j = s.stack j := rfl
@[simp] theorem State.stack_trigSettings (s : State) (typ j : Nat) : (s.trigSettings typ).stack j = s.stack j := rfl

/-- Of the stacks, only stack k changes, in its counters, its bandwidth tokens and what it knows of its faults. -/
structure State.readRel (k : Nat) (s t : State) : Prop where
  own : t.stack k = { s.stack k with
    buckets := (t.stack k).buckets, integ := (t.stack k).integ, memCount := (t.stack k).memCount, hard := (t.stack k).hard
    badRows := (t.stack k).badRows, lost := (t.stack k).lost, lossCause := (t.stack k).lossCause }
  other : ∀ j, j ≠ k → t.stack j = s.stack j

theorem State.readRel_refl (k : Nat) (s : State) : s.readRel k s := ⟨rfl, fun _ _ => rfl⟩

theorem State.readRel_trans {k : Nat} {s t u : State} (h : s.readRel k t) (g : t.readRel k u) : s.readRel k u :=
  ⟨by rw [g.own, h.own], fun j hj => (g.other j hj).trans (h.other j hj)⟩

theorem State.logAt_readRel (k : Nat) (s : State) (c : Nat) (u : W32) (a : Nat) (d : Bytes) : s.readRel k (s.logAt c u a d) :=
  ⟨rfl, fun _ _ => rfl⟩

theorem State.freeBytes_readRel (k : Nat) (s : State) (n : Nat) : s.readRel k (s.freeBytes n).2 := ⟨rfl, fun _ _ => rfl⟩

theorem State.setStack_readRel {k : Nat} {s : State} {x : StackState} (h : x = { s.stack k with
    buckets := x.buckets, integ := x.integ, memCount := x.memCount, hard := x.hard, badRows := x.badRows, lost := x.lost
    lossCause := x.lossCause }) : s.readRel k (s.setStack k x) :=
  ⟨by rw [State.stack_setStack]; exact h, fun _ hj => State.stack_setStack_ne s x hj⟩

theorem State.judge_readRel (s : State) (k sn : Nat) : s.readRel k (s.judge k sn) := by
  unfold State.judge; dsimp only; split
  · exact State.logAt_readRel ..
  · exact State.setStack_readRel rfl

/-- A row with an uncorrectable read is noted, and with 16 of them the stack is lost. -/
theorem StackState.badRow_eq (x : StackState) (now sn : Nat) : x.badRow now sn = { x with
    badRows := (x.badRow now sn).badRows, lost := (x.badRow now sn).lost, lossCause := (x.badRow now sn).lossCause } := by
  unfold StackState.badRow; dsimp only; split <;> rfl

theorem State.badRow_readRel (s : State) (k now sn : Nat) : s.readRel k (s.setStack k ((s.stack k).badRow now sn)) := by
  apply State.setStack_readRel
  rw [StackState.badRow_eq]

theorem State.logRead_readRel (s : State) (k sn : Nat) (kind : RdKind) (r : W32) : s.readRel k (s.logRead k sn kind r) := by
  have ondie : ∀ t : State, s.readRel k t → s.readRel k (if tget 0 (t.stack k).ondie sn = 2 then
      t.logAt 0x0104 (uidStack k) (physOf s.dev.spreadS k (sn * 32)) (le 1 (secPc sn) ++ le 4 (secRow sn)) else t) := by
    intro t h; split
    · exact State.readRel_trans h (State.logAt_readRel ..)
    · exact h
  cases kind with
  | clean => exact ondie _ (State.readRel_refl k s)
  | corrected n => exact ondie _ (State.readRel_refl k s)
  | unwritten => exact ondie _ (State.logAt_readRel ..)
  | poisoned => exact ondie _ (State.logAt_readRel ..)
  | data =>
    have logged := State.logAt_readRel k s 0x0101 (uidStack k) (physOf s.dev.spreadS k (sn * 32)) (le 4 r.toNat)
    exact ondie _ (State.readRel_trans (State.readRel_trans logged (State.badRow_readRel ..)) (State.judge_readRel ..))

theorem State.ctlRead_readRel (s : State) (k sn : Nat) (iss : Issuer) : s.readRel k (s.ctlRead k sn iss).2.2 := by
  have burst : s.readRel k (s.setStack k (((s.stack k).spend s.dev.priority iss.cls 1).burstRead sn).2.2) := by
    apply State.setStack_readRel
    unfold StackState.burstRead StackState.spend; dsimp only; split <;> rfl
  have read := State.readRel_trans burst
    (State.logRead_readRel _ k sn (((s.stack k).spend s.dev.priority iss.cls 1).burstRead sn).1 iss.unit)
  unfold State.ctlRead; dsimp only
  split
  · exact State.readRel_refl k s
  · split
    · exact State.readRel_trans read (State.freeBytes_readRel k _ 32)
    · exact read

/-! ## Bursts (R164, R168, R182) -/

/-- A burst that writes a sector counts itself and stores some bytes there, those of the flip mask turned. -/
theorem StackState.burstWrite_eq (x : StackState) (sn : Nat) (d : Bytes) (p : Bool) : ∃ (y : StackState) (data check : Bytes),
    x.burstWrite sn d p = y.setRawSec sn data check ∧ y.remap = x.remap ∧ y.remapBusy = x.remapBusy ∧ y.remapErr = x.remapErr := by
  unfold StackState.burstWrite; dsimp only; split
  · exact ⟨_, _, _, rfl, rfl, rfl, rfl⟩
  · exact ⟨_, _, _, rfl, rfl, rfl, rfl⟩

/-! ## One entry of the remap table (R177) -/

/-- No entry but number i redirects the sector. -/
def StackState.onlyEntry (x : StackState) (sn i : Nat) : Prop := ∀ e ∈ x.remap, e.2.valid = true → e.2.sector = sn → e.1 = i

theorem mem_of_mem_tset {α : Type} {t : Tbl α} {k : Nat} {v : α} {e : Nat × α} (h : e ∈ tset t k v) : e = (k, v) ∨ e ∈ t := by
  induction t with
  | nil => exact .inl (List.mem_singleton.mp h)
  | cons a t ih =>
    obtain ⟨j, a⟩ := a
    simp only [tset] at h
    split at h
    · exact (List.mem_cons.mp h).imp_right (List.mem_cons_of_mem _)
    · split at h
      · exact List.mem_cons.mp h
      · rcases List.mem_cons.mp h with rfl | h
        · exact .inr List.mem_cons_self
        · exact (ih h).imp_right (List.mem_cons_of_mem _)

theorem StackState.onlyEntry_tset {x y : StackState} {sn i : Nat} {e : RemapEnt} (h : x.onlyEntry sn i) (hy : y.remap = tset x.remap i e) :
    y.onlyEntry sn i := by
  intro a ha hv hs
  rw [hy] at ha
  rcases mem_of_mem_tset ha with rfl | ha
  · rfl
  · exact h a ha hv hs

theorem StackState.remapOf_some {x : StackState} {sn i : Nat} {e : RemapEnt} (h : x.remapOf sn = some (i, e)) :
    (i, e) ∈ x.remap ∧ e.valid = true ∧ e.sector = sn := by
  have hp := List.find?_some h
  simp only [Bool.and_eq_true, beq_iff_eq] at hp
  exact ⟨List.mem_of_find?_eq_some h, hp⟩

/-- An entry that redirects a sector, when no other does, is the one that the controller finds. -/
theorem StackState.remapOf_of_onlyEntry {x : StackState} {sn i : Nat} {e : RemapEnt} (h : x.onlyEntry sn i) (he : tget {} x.remap i = e)
    (hv : e.valid = true) (hs : e.sector = sn) : x.remapOf sn = some (i, e) := by
  unfold StackState.onlyEntry at h
  unfold StackState.remapOf
  generalize x.remap = t at h he ⊢
  induction t with
  | nil => simp [← he] at hv
  | cons a t ih =>
    obtain ⟨j, a⟩ := a
    simp only [tget] at he
    by_cases hm : a.valid = true ∧ a.sector = sn
    · obtain rfl : j = i := h (j, a) List.mem_cons_self hm.1 hm.2
      rw [List.find?_cons_of_pos (by simpa using hm), ← he, if_pos rfl]
    · have hj : j ≠ i := fun hj => hm (by rw [if_pos hj] at he; rw [he]; exact ⟨hv, hs⟩)
      rw [if_neg hj] at he
      rw [List.find?_cons_of_neg (by simpa using hm)]
      exact ih (fun b hb => h b (List.mem_cons_of_mem _ hb)) he

/-- What an install of a sector in entry i holds from its start: BUSY; and REMAP_ERR and every other entry are as they were in x. -/
structure StackState.installing (sn i : Nat) (x y : StackState) : Prop where
  busy : y.remapBusy = true
  err : y.remapErr = x.remapErr
  others : ∀ j, j ≠ i → (tget {} y.remap j : RemapEnt) = tget {} x.remap j
  only : y.onlyEntry sn i

section install
variable {sn i : Nat} {x y z : StackState}

theorem StackState.installing_of_eq (h : x.installing sn i y) (hr : z.remap = y.remap) (hb : z.remapBusy = y.remapBusy)
    (he : z.remapErr = y.remapErr) : x.installing sn i z :=
  ⟨hb.trans h.busy, he.trans h.err, by rw [hr]; exact h.others, by unfold StackState.onlyEntry; rw [hr]; exact h.only⟩

theorem StackState.installing_tset {e : RemapEnt} (h : x.installing sn i y) (hr : z.remap = tset y.remap i e)
    (hb : z.remapBusy = y.remapBusy) (he : z.remapErr = y.remapErr) : x.installing sn i z :=
  ⟨hb.trans h.busy, he.trans h.err, fun j hj => by rw [hr, tget_tset_ne _ _ hj, h.others j hj], StackState.onlyEntry_tset h.only hr⟩

theorem StackState.setRawSec_installing (h : x.installing sn i y) (d c : Bytes) : x.installing sn i (y.setRawSec sn d c) := by
  unfold StackState.setRawSec
  split
  · next j e hf =>
    obtain ⟨hm, hv, hs⟩ := StackState.remapOf_some hf
    obtain rfl : j = i := h.only _ hm hv hs
    exact StackState.installing_tset h rfl rfl rfl
  · exact StackState.installing_of_eq h rfl rfl rfl

theorem StackState.burstWrite_installing (h : x.installing sn i y) (d : Bytes) (p : Bool) : x.installing sn i (y.burstWrite sn d p) := by
  obtain ⟨z, d', c, hw, hr, hb, he⟩ := y.burstWrite_eq sn d p
  rw [hw]
  exact StackState.setRawSec_installing (StackState.installing_of_eq h hr hb he) d' c

theorem StackState.issueHeld_installing (h : x.installing sn i y) : x.installing sn i (y.issueHeld (fun w => w.sector == sn)) := by
  refine List.foldlRecOn _ _ (StackState.installing_of_eq h rfl rfl rfl) (fun z hz w hw => ?_)
  obtain rfl : w.sector = sn := by simpa using (List.mem_filter.mp hw).2
  exact StackState.burstWrite_installing hz w.data w.poison

theorem State.readRel.installing {k : Nat} {s t : State} (h : s.readRel k t) (hs : x.installing sn i (s.stack k)) :
    x.installing sn i (t.stack k) := by
  rw [h.own]
  exact StackState.installing_of_eq hs rfl rfl rfl

/-- A burst that writes a redirected sector changes no more of its entry than the check bytes. -/
theorem StackState.burstWrite_entry {e : RemapEnt} (h : x.onlyEntry sn i) (he : tget {} x.remap i = e)
    (hv : e.valid = true) (hs : e.sector = sn) (d : Bytes) (p : Bool) :
    ∃ check, tget {} (x.burstWrite sn d p).remap i = { e with check := check } := by
  obtain ⟨z, d', c, hw, hr, -, -⟩ := x.burstWrite_eq sn d p
  have hz : z.onlyEntry sn i := by unfold StackState.onlyEntry; rw [hr]; exact h
  have hf : z.remapOf sn = some (i, e) := StackState.remapOf_of_onlyEntry hz (hr ▸ he) hv hs
  exact ⟨BitVec.ofNat 32 (unle c), by simp only [hw, StackState.setRawSec, hf, tget_tset_self]⟩

end install

/-! ## Install and remove (R177) -/

/-- An install is refused: the entry redirects another sector, or another entry redirects this sector or uses its spare slot. -/
def StackState.refuses (x : StackState) (i sn row : Nat) : Prop :=
  ((tget {} x.remap i : RemapEnt).valid = true ∧ (tget {} x.remap i : RemapEnt).sector ≠ sn) ∨
    ∃ e ∈ x.remap, e.1 ≠ i ∧ e.2.valid = true ∧ (e.2.sector = sn ∨ (secPc e.2.sector = secPc sn ∧ e.2.spareRow = row))

/-- The controller's three comparisons decide whether it refuses an install. -/
theorem StackState.refuses_iff (x : StackState) (i sn row : Nat) : x.refuses i sn row ↔
    (((tget {} x.remap i : RemapEnt).valid && (tget {} x.remap i : RemapEnt).sector != sn)
      || x.remap.any (fun e => e.1 != i && e.2.valid && e.2.sector == sn)
      || x.remap.any (fun e => e.1 != i && e.2.valid && secPc e.2.sector == secPc sn && e.2.spareRow == row)) = true := by
  simp only [StackState.refuses, Bool.or_eq_true, Bool.and_eq_true, bne_iff_ne, List.any_eq_true, beq_iff_eq, or_assoc,
    ← exists_or, ← and_or_left, and_assoc]

theorem StackState.onlyEntry_of_not_refuses {x : StackState} {i sn row : Nat} (h : ¬ x.refuses i sn row) : x.onlyEntry sn i :=
  fun e he hv hs => Decidable.byContradiction fun hi => h (.inr ⟨e, he, hi, hv, .inl hs⟩)

theorem State.remapInstallOp_of_refuses {s : State} {k i sn row : Nat} (hb : (s.stack k).remapBusy = false)
    (h : (s.stack k).refuses i sn row) : s.remapInstallOp k i sn row = s.setStack k { s.stack k with
      remapErr := true, remapBusy := true, remapReg := remapOpWord 1 i row sn } := by
  unfold State.remapInstallOp; dsimp only
  rw [hb, if_neg Bool.false_ne_true, if_pos ((StackState.refuses_iff ..).mp h)]

/-- The stack when an install has begun and the writes that wait for the sector are issued. -/
def StackState.installBegun (x : StackState) (i sn row : Nat) : StackState :=
  StackState.issueHeld { x with remapBusy := true, remapReg := remapOpWord 1 i row sn } (fun w => w.sector == sn)

/-- Entry i set for the sector and the row; the slot left behind by a move is spent. -/
def StackState.entrySet (x : StackState) (old : RemapEnt) (i sn row : Nat) : StackState :=
  { x with
    remap := tset x.remap i { valid := true, sector := sn, spareRow := row }
    spentSpares := if old.valid then (secPc sn, old.spareRow) :: x.spentSpares else x.spentSpares
    hard := srem sn x.hard }

/-- The stacks after an install that breaks no rule: the sector is read, and then written through its new entry. -/
theorem State.remapInstallOp_of_not_refuses {s : State} {k i sn row : Nat} (hb : (s.stack k).remapBusy = false)
    (h : ¬ (s.stack k).refuses i sn row) : ∃ (t : State) (d : Bytes) (p : Bool),
      (s.setStack k ((s.stack k).installBegun i sn row)).readRel k t
      ∧ ∀ j, (s.remapInstallOp k i sn row).stack j
        = (t.setStack k (((t.stack k).entrySet (tget {} (s.stack k).remap i) i sn row).burstWrite sn d p)).stack j := by
  let read := (s.setStack k ((s.stack k).installBegun i sn row)).ctlRead k sn { unit := uidStack k, asid := 0, cls := 4 }
  refine ⟨read.2.2, read.2.1.data, read.1.bad, State.ctlRead_readRel .., fun j => ?_⟩
  unfold State.remapInstallOp; dsimp only
  rw [hb, if_neg Bool.false_ne_true, if_neg (mt (StackState.refuses_iff ..).mpr h)]
  rfl

theorem StackState.installBegun_installing {x : StackState} {i sn row : Nat} (h : ¬ x.refuses i sn row) :
    x.installing sn i (x.installBegun i sn row) :=
  StackState.issueHeld_installing ⟨rfl, rfl, fun _ _ => rfl, StackState.onlyEntry_of_not_refuses h⟩

/-- An install that breaks no rule sets its entry, and no other entry and no other stack changes. -/
theorem State.remapInstallOp_sets {s : State} {k i sn row : Nat} (hb : (s.stack k).remapBusy = false)
    (h : ¬ (s.stack k).refuses i sn row) : (s.stack k).installing sn i ((s.remapInstallOp k i sn row).stack k)
      ∧ (∃ check, tget {} ((s.remapInstallOp k i sn row).stack k).remap i
        = ({ valid := true, sector := sn, spareRow := row, check := check } : RemapEnt))
      ∧ ∀ j, j ≠ k → (s.remapInstallOp k i sn row).stack j = s.stack j := by
  obtain ⟨t, d, p, hr, ht⟩ := State.remapInstallOp_of_not_refuses hb h
  have begun : (s.stack k).installing sn i ((s.setStack k ((s.stack k).installBegun i sn row)).stack k) := by
    rw [State.stack_setStack]; exact StackState.installBegun_installing h
  have entered : (s.stack k).installing sn i ((t.stack k).entrySet (tget {} (s.stack k).remap i) i sn row) :=
    StackState.installing_tset (hr.installing begun) rfl rfl rfl
  rw [ht k, State.stack_setStack]
  refine ⟨StackState.burstWrite_installing entered d p, StackState.burstWrite_entry entered.only (tget_tset_self ..) rfl rfl d p, fun j hj => ?_⟩
  rw [ht j, State.stack_setStack_ne _ _ hj, hr.other j hj, State.stack_setStack_ne _ _ hj]

theorem StackState.remapOf_none {x : StackState} {sn : Nat} (h : ∀ e ∈ x.remap, e.2.valid = true → e.2.sector ≠ sn) :
    x.remapOf sn = none := by
  simpa [StackState.remapOf] using h

/-- In a table of rising keys, an entry's number is listed once. -/
theorem tget_of_mem {α : Type} {d : α} {t : Tbl α} (ht : t.Pairwise (fun x y => x.1 < y.1)) {e : Nat × α} (he : e ∈ t) :
    tget d t e.1 = e.2 := by
  induction t with
  | nil => cases he
  | cons a t ih =>
    obtain ⟨hlt, ht⟩ := List.pairwise_cons.mp ht
    rcases List.mem_cons.mp he with rfl | he
    · exact if_pos rfl
    · exact (if_neg (Nat.ne_of_lt (hlt e he))).trans (ih ht he)

theorem tset_pairwise {α : Type} {t : Tbl α} (ht : t.Pairwise (fun x y => x.1 < y.1)) (k : Nat) (v : α) :
    (tset t k v).Pairwise (fun x y => x.1 < y.1) := by
  induction t with
  | nil => exact List.pairwise_singleton ..
  | cons a t ih =>
    obtain ⟨j, a⟩ := a
    obtain ⟨hlt, hp⟩ := List.pairwise_cons.mp ht
    unfold tset; split
    · next hj => exact List.pairwise_cons.mpr ⟨fun e he => hj ▸ hlt e he, hp⟩
    · split
      · next hk =>
        refine List.pairwise_cons.mpr ⟨fun e he => ?_, ht⟩
        rcases List.mem_cons.mp he with rfl | he
        · exact hk
        · exact Nat.lt_trans hk (hlt e he)
      · refine List.pairwise_cons.mpr ⟨fun e he => ?_, ih hp⟩
        rcases mem_of_mem_tset he with rfl | he
        · dsimp only; omega
        · exact hlt e he

/-- Once the only entry that redirects a sector is cleared, none does. -/
theorem StackState.remapOf_of_cleared {x y : StackState} {sn i : Nat} (hp : x.remap.Pairwise (fun a b => a.1 < b.1))
    (ho : x.onlyEntry sn i) (hy : y.remap = tset x.remap i {}) : y.remapOf sn = none := by
  refine StackState.remapOf_none fun e he hv hs => ?_
  have hi : e.1 = i := StackState.onlyEntry_tset ho hy e he hv hs
  rw [hy] at he
  have h := tget_of_mem (d := {}) (tset_pairwise hp i {}) he
  rw [hi, tget_tset_self] at h
  rw [← h] at hv
  exact Bool.false_ne_true hv

/-- The stack with entry i cleared and the operation shown in REMAP_OP. -/
def StackState.entryCleared (x : StackState) (i : Nat) : StackState :=
  { x with
    remapBusy := true
    remapReg := remapOpWord 2 i (tget {} x.remap i : RemapEnt).spareRow (tget {} x.remap i : RemapEnt).sector
    remap := tset x.remap i {} }

/-- The stack after a remove: the entry is cleared and the home slot of its sector takes the fill's word. -/
def StackState.removed (x : StackState) (i : Nat) : StackState :=
  if (tget {} x.remap i : RemapEnt).valid then (x.entryCleared i).setRawSec (tget {} x.remap i : RemapEnt).sector (zeros 32) (zeros 4)
  else x.entryCleared i

theorem StackState.setRawSec_of_none {x : StackState} {sn : Nat} (h : x.remapOf sn = none) (d c : Bytes) :
    (x.setRawSec sn d c).remap = x.remap ∧ (x.setRawSec sn d c).remapBusy = x.remapBusy := by
  rw [StackState.setRawSec, h]; exact ⟨rfl, rfl⟩

/-- A remove changes one entry: the home slot of its sector is written, which no entry redirects any more. -/
theorem StackState.removed_eq {x : StackState} {i : Nat} (hp : x.remap.Pairwise (fun a b => a.1 < b.1))
    (ho : x.onlyEntry (tget {} x.remap i : RemapEnt).sector i) :
    (x.removed i).remap = tset x.remap i {} ∧ (x.removed i).remapBusy = true := by
  unfold StackState.removed; split
  · exact StackState.setRawSec_of_none (StackState.remapOf_of_cleared hp ho rfl) _ _
  · exact ⟨rfl, rfl⟩

/-- A remove on an idle controller: the entry is cleared, and the home slot of its sector takes the fill's word. -/
theorem execRemapRemove_of_idle {s : State} {k i : Nat} (hk : k < 12) (hb : (s.stack k).remapBusy = false) :
    execRemapRemove k i s = .next (State.trigSettings (s.setStack k ((s.stack k).removed i)) 5) := by
  rw [execRemapRemove, atUnit_of_lt hk]; dsimp only
  rw [hb, if_neg Bool.false_ne_true]
  rfl

/-! ## Retraining (R183) -/

/-- The stack when a retraining of a channel has ended: its failures are counted or forgotten, and a third in succession
loses the stack. -/
def StackState.retrained (x : StackState) (c : Nat) (ok : Bool) : StackState :=
  let r : Retrain := { busy := false, fails := if ok then 0 else (tget {} x.retrain c : Retrain).fails + 1 }
  if 3 ≤ r.fails ∧ ¬ x.lost then { x with retrain := tset x.retrain c r, lost := true, lossCause := 2 }
  else { x with retrain := tset x.retrain c r }

theorem execChannelRetrainDone_of_busy {s : State} {k c : Nat} (hk : k < 12) (ok : Bool)
    (hb : (tget {} (s.stack k).retrain c : Retrain).busy = true) :
    execChannelRetrainDone k c ok s = .next (s.setStack k ((s.stack k).retrained c ok)) := by
  rw [execChannelRetrainDone, atUnit_of_lt hk]; dsimp only
  rw [hb, if_neg (by decide)]
  rfl

theorem three_le_fails_iff (ok : Bool) (n : Nat) : 3 ≤ (if ok then 0 else n + 1) ↔ ok = false ∧ 2 ≤ n := by
  cases ok <;> simp

theorem StackState.retrained_eq (x : StackState) (c : Nat) (ok : Bool) :
    tget {} (x.retrained c ok).retrain c
        = ({ busy := false, fails := if ok then 0 else (tget {} x.retrain c : Retrain).fails + 1 } : Retrain)
      ∧ ((x.retrained c ok).lost = true ↔ x.lost = true ∨ (ok = false ∧ 2 ≤ (tget {} x.retrain c : Retrain).fails))
      ∧ (ok = false → 2 ≤ (tget {} x.retrain c : Retrain).fails → x.lost = false → (x.retrained c ok).lossCause = 2) := by
  have third := three_le_fails_iff ok (tget {} x.retrain c : Retrain).fails
  unfold StackState.retrained; dsimp only
  generalize (if ok then 0 else (tget {} x.retrain c : Retrain).fails + 1) = fails at third ⊢
  split
  · next h => exact ⟨tget_tset_self .., iff_of_true rfl (.inr (third.mp h.1)), fun _ _ _ => rfl⟩
  · next h =>
    refine ⟨tget_tset_self .., (or_iff_left_of_imp fun hf => ?_).symm, fun hok hf hl => absurd ⟨third.mpr ⟨hok, hf⟩, by simp [hl]⟩ h⟩
    exact Decidable.byContradiction fun hl => h ⟨third.mpr hf, hl⟩

/-! ## The gleaner (R179, R181) -/

theorem Gleaner.advance_of_lt {g : Gleaner} (h : g.pos + 1 < 1879048192) (now : Nat) : g.advance now = { g with pos := g.pos + 1 } := if_pos h

/-- Past the last sector a lap ends. -/
theorem Gleaner.advance_of_last {g : Gleaner} (h : g.pos + 1 = 1879048192) (now : Nat) :
    (g.advance now).pos = 0 ∧ (g.advance now).laps = g.laps + 1 ∧ (g.advance now).overdue = false := by
  rw [Gleaner.advance, if_neg (by rw [h]; exact Nat.lt_irrefl _)]
  exact ⟨rfl, rfl, rfl⟩

/-- The gleaner's counts and list after a sector of an outcome. -/
def Gleaner.counted (g : Gleaner) : RdKind → Gleaner
  | .corrected _ => { g with curFixed := satAdd g.curFixed 1, curList := g.curList ++ [g.pos] }
  | .data => { g with curUnfixed := satAdd g.curUnfixed 1 }
  | _ => g

@[simp] theorem Gleaner.counted_pos (g : Gleaner) (o : RdKind) : (g.counted o).pos = g.pos := by cases o <;> rfl
@[simp] theorem Gleaner.counted_laps (g : Gleaner) (o : RdKind) : (g.counted o).laps = g.laps := by cases o <;> rfl

theorem Gleaner.counted_other (g : Gleaner) {o : RdKind} (hc : ∀ n, o ≠ .corrected n) (hd : o ≠ .data) : g.counted o = g := by
  cases o with
  | corrected n => exact absurd rfl (hc n)
  | data => exact absurd rfl hd
  | clean | unwritten | poisoned => rfl

/-- What the gleaner finds at its place; a sector that it skips, since a write waits, is as a clean one to it. -/
def StackState.gleaned (x : StackState) : RdKind :=
  if x.held.any (fun h => h.sector == x.glean.pos) then .clean else (x.burstRead x.glean.pos).1

/-- What a gleaner read does to the stacks: the gleaner counts what it found and moves on, and a clean sector's bytes stay. -/
structure State.gleanRel (k : Nat) (s t : State) : Prop where
  moves : (t.stack k).glean = ((s.stack k).glean.counted (s.stack k).gleaned).advance s.time
  clean : (s.stack k).gleaned = .clean → (t.stack k).raw = (s.stack k).raw
  other : ∀ j, j ≠ k → t.stack j = s.stack j

/-- What follows the gleaner's own change is as after any read. -/
theorem State.gleanRel_setStack {k : Nat} {s t : State} {x : StackState} (hr : (s.setStack k x).readRel k t)
    (hg : x.glean = ((s.stack k).glean.counted (s.stack k).gleaned).advance s.time)
    (hc : (s.stack k).gleaned = .clean → x.raw = (s.stack k).raw) : s.gleanRel k t := by
  obtain ⟨own, other⟩ := hr
  rw [State.stack_setStack] at own
  exact ⟨by rw [own]; exact hg, by rw [own]; exact hc, fun j hj => (other j hj).trans (State.stack_setStack_ne _ _ hj)⟩

theorem State.gleanOp_gleanRel (s : State) (k : Nat) : s.gleanRel k (s.gleanOp k) := by
  unfold State.gleanOp; dsimp only
  split
  · next hh =>
    have ho : (s.stack k).gleaned = .clean := if_pos hh
    exact State.gleanRel_setStack (State.readRel_refl ..) (by rw [ho]; rfl) (fun _ => rfl)
  · next hh =>
    have ho : (s.stack k).gleaned = ((s.stack k).burstRead (s.stack k).glean.pos).1 := if_neg hh
    split
    · next n hk =>
      rw [hk] at ho
      split
      · exact State.gleanRel_setStack (State.judge_readRel ..) (by rw [ho]; rfl) (by rw [ho]; exact nofun)
      · exact State.gleanRel_setStack (State.readRel_refl ..) (by rw [ho]; rfl) (by rw [ho]; exact nofun)
    · next hk =>
      rw [hk] at ho
      exact State.gleanRel_setStack (State.logRead_readRel ..) (by rw [ho]; rfl) (fun _ => rfl)
    · next hc hd =>
      refine State.gleanRel_setStack (State.logRead_readRel ..) ?_ (fun _ => rfl)
      rw [ho, Gleaner.counted_other _ hc hd]
      rfl

theorem execGleanerRead_of_serving {s : State} {k : Nat} (hk : k < 12) (he : (s.stack k).glean.ctl.getLsbD 31 = true)
    (hs : (s.stack k).serves = true) : execGleanerRead k s = .next (s.gleanOp k) := by
  rw [execGleanerRead, atUnit_of_lt hk, he, hs]; rfl

theorem execGleanOverdue_of_not {s : State} {k : Nat} (hk : k < 12) (ho : (s.stack k).glean.overdue = false) : ∃ l : LogState,
    execGleanOverdue k s
      = .next { s.setStack k { s.stack k with glean := { (s.stack k).glean with overdue := true } } with log := l } := by
  rw [execGleanOverdue, atUnit_of_lt hk]; dsimp only
  rw [ho, if_neg Bool.false_ne_true]
  exact ⟨_, rfl⟩

/-! ## The table, the channels and the gleaner -/

/-- Settles O26, command by command. An install reads and writes its sector through the one entry that may redirect it, so no other
entry changes; a remove leaves no entry for its sector, so storing there sets none; a gleaner read counts and moves on whatever it finds. -/
theorem remapRetrainGlean : Obligations.RemapRetrainGlean := by
  refine ⟨fun s k i sn row c hk => ?stack, fun s k hk => ⟨fun he hs hp => ?next, fun he hs hp => ?lap, fun ho => ?overdue⟩⟩
  case stack =>
    refine ⟨fun hb hr => ?install, fun hb hr => ?refused, fun hb hp ho => ?remove, ?opDone, ?retrain, fun ok hb => ?retrainDone⟩
    case install =>
      obtain ⟨⟨busy, err, others, -⟩, ⟨check, entry⟩, other⟩ := State.remapInstallOp_sets hb hr
      refine ⟨_, by rw [exec_remapInstall]; exact atUnit_of_lt hk _, busy, ?_, ?_, ?_, others, err, other⟩ <;> rw [entry]
    case refused =>
      rw [exec_remapInstall, ← State.remapInstallOp_of_refuses hb hr]
      exact atUnit_of_lt hk _
    case remove =>
      have only : (s.stack k).onlyEntry (tget {} (s.stack k).remap i : RemapEnt).sector i := fun e he hv hs =>
        Decidable.byContradiction fun hi => ho e he hi hv hs
      refine ⟨_, by rw [exec_remapRemove]; exact execRemapRemove_of_idle hk hb, ?_⟩
      rw [State.stack_trigSettings, State.stack_setStack]
      obtain ⟨table, busy⟩ := StackState.removed_eq hp only
      rw [table]
      exact ⟨tget_tset_self .., busy, fun j hj => tget_tset_ne _ _ hj⟩
    case opDone => rw [exec_remapOpDone]; exact atUnit_of_lt hk _
    case retrain => rw [exec_channelRetrain]; exact atUnit_of_lt hk _
    case retrainDone =>
      refine ⟨_, by rw [exec_channelRetrainDone]; exact execChannelRetrainDone_of_busy hk ok hb, by rw [State.stack_setStack], ?_⟩
      rw [State.stack_setStack]
      exact StackState.retrained_eq ..
  case next =>
    obtain ⟨moves, clean, other⟩ := s.gleanOp_gleanRel k
    rw [Gleaner.advance_of_lt (by rw [Gleaner.counted_pos]; exact hp)] at moves
    refine ⟨_, by rw [exec_gleanerRead]; exact execGleanerRead_of_serving hk he hs, ?_, ?_, other, fun h => clean ?_, fun n hh hn => ?_⟩
    · rw [moves]; exact congrArg (· + 1) (Gleaner.counted_pos ..)
    · rw [moves]; exact Gleaner.counted_laps ..
    · unfold StackState.gleaned
      split
      · rfl
      · next hh => exact h.resolve_left hh
    · rw [moves, show (s.stack k).gleaned = .corrected n from (if_neg (by rw [hh]; exact Bool.false_ne_true)).trans hn]
      rfl
  case lap =>
    obtain ⟨pos, laps, overdue⟩ := Gleaner.advance_of_last (g := (s.stack k).glean.counted (s.stack k).gleaned)
      (by rw [Gleaner.counted_pos]; exact hp) s.time
    rw [← (s.gleanOp_gleanRel k).moves] at pos laps overdue
    exact ⟨_, by rw [exec_gleanerRead]; exact execGleanerRead_of_serving hk he hs, pos, laps.trans (by rw [Gleaner.counted_laps]), overdue⟩
  case overdue =>
    obtain ⟨l, h⟩ := execGleanOverdue_of_not hk ho
    exact ⟨_, by rw [exec_gleanOverdue]; exact h, rfl⟩

end Sys2Proof.Machine
end

section
/-! SUPPORT. How a page sieve judges, queues and starts requests, and the obligation about that. -/
namespace Sys2Proof.Machine

/-! ## The commands -/

@[simp] theorem exec_sieveSelect (v : Nat) (writer : Option Nat) (slot : Nat) (r : Bytes) (s : State) :
    exec (.sieveSelect v writer slot r) s = execSieveSelect v writer slot r s := rfl
@[simp] theorem exec_sieveSeal (v : Nat) (writer : Option Nat) (slot : Nat) (r : Bytes) (s : State) :
    exec (.sieveSeal v writer slot r) s = execSieveSeal v writer slot r s := rfl
@[simp] theorem exec_sieveRequestStart (v : Nat) (s : State) : exec (.sieveRequestStart v) s = execSieveRequestStart v s := rfl
@[simp] theorem exec_sieveResultWrite (v ix : Nat) (s : State) : exec (.sieveResultWrite v ix) s = execSieveResultWrite v ix s := rfl
@[simp] theorem exec_sieveCtxWrite (v : Nat) (value : W64) (s : State) : exec (.sieveCtxWrite v value) s = execSieveCtxWrite v value s := rfl

/-- Both kinds of record command hand the record to the unit. -/
theorem exec_sieveRecord {v op slot : Nat} {writer : Option Nat} {r : Bytes} {i : Instr} (hv : v < 16)
    (hi : (op = 1 ∧ i = .sieveSelect v writer slot r) ∨ (op = 2 ∧ i = .sieveSeal v writer slot r)) (s : State) :
    exec i s = .next (s.svRecord v writer slot r op) := by
  obtain ⟨rfl, rfl⟩ | ⟨rfl, rfl⟩ := hi
  · rw [exec_sieveSelect]; exact atUnit_of_lt hv _
  · rw [exec_sieveSeal]; exact atUnit_of_lt hv _

/-! ## Records (R191–R193, R202) -/

/-- The unit with a record in its queue. -/
def SieveState.accept (x : SieveState) (slot : Nat) (r : Bytes) : SieveState :=
  { x with queue := x.queue ++ [{ core := slot / 2, record := slice r 0 64 }] }

/-- What a unit that is not in a reset does with a record in one of its slots. -/
theorem State.svRecord_eq {s : State} {v slot : Nat} (writer : Option Nat) (r : Bytes) (op : Nat) (hs : (s.sv v).stopped = false)
    (hl : slot < 4032) : s.svRecord v writer slot r op
      = if sieveReject s v writer slot r = 0 then
          if srOp r ≠ op ∨ (s.sv v).queue.length ≥ 64 then s
          else (s.setSv v ((s.sv v).accept slot r)).emit (.writeAnswer (writerUnit writer) (uidSieve v) 0)
        else (s.svErr v (writerUnit writer) (sieveReject s v writer slot r)).emit (.writeAnswer (writerUnit writer) (uidSieve v) 1) := by
  unfold State.svRecord sieveReject
  dsimp only
  rw [if_neg (by simp [hs]), if_neg (Nat.not_le.mpr hl)]
  by_cases enabled : (s.sv v).ctx.getLsbD 0 = false
  · simp only [enabled]; rfl
  by_cases foreign : writer.any (fun g => s.partOfCore g != s.partOfDie (v / 4) || g != slot / 2) = true
  · simp only [enabled, foreign]; rfl
  by_cases kind : srOp r ≠ 1 ∧ srOp r ≠ 2
  · simp only [enabled, foreign, if_pos kind]; rfl
  by_cases good : srGood r = false
  · simp only [enabled, foreign, if_neg kind, good]; rfl
  by_cases placed : srPlaced r (slot / 2) = false
  · simp only [enabled, foreign, if_neg kind, good, placed]; rfl
  · simp only [enabled, foreign, if_neg kind, good, placed]; rfl

@[simp] theorem State.sv_svErr (s : State) (v : Nat) (core : W32) (code : Nat) :
    (s.svErr v core code).sv v = { s.sv v with lastErr := BitVec.ofNat 8 code, errCount := satAdd (s.sv v).errCount 1 } :=
  State.sv_setSv ..

/-! ## SIEVE_CTX (R201) -/

/-- A mask whose upper 16 bits are set keeps a word's upper 16 bits. -/
theorem bf_and_of_upper {v m : W64} (hm : m.toNat >>> 48 = 2 ^ 16 - 1) : bf (v &&& m) 63 48 = bf v 63 48 := by
  rw [bf, bf, nf, nf, BitVec.toNat_and, Nat.shiftRight_and_distrib, hm, Nat.and_two_pow_sub_one_eq_mod, Nat.mod_mod]

@[simp] theorem svCtxMask_asid (v : W64) : bf (svCtxMask v) 63 48 = bf v 63 48 := bf_and_of_upper rfl

@[simp] theorem svCtxMask_enable (v : W64) : (svCtxMask v).getLsbD 0 = v.getLsbD 0 := by simp [svCtxMask]

/-! ## A request starts (R193, R194) -/

@[simp] theorem State.setSv_setSv (s : State) (v : Nat) (x y : SieveState) : (s.setSv v x).setSv v y = s.setSv v y := by
  simp [State.setSv]

/-- A change of a unit that leaves SIEVE_CTX as it is leaves the unit the same client. -/
theorem State.svClient_setSv {s : State} {v : Nat} {x : SieveState} (h : x.ctx = (s.sv v).ctx) : (s.setSv v x).svClient v = s.svClient v := by
  rw [State.svClient, State.svClient, State.sv_setSv, h]; rfl

/-- With room and none set aside, the oldest queued request leaves the queue and runs. -/
theorem execSieveRequestStart_of_queued {s : State} {v : Nat} {req : SieveReq} {rest : List SieveReq} (hv : v < 16)
    (hs : (s.sv v).stopped = false) (hr : (s.sv v).running.length < 4) (hh : (s.sv v).heldReqs = []) (hq : (s.sv v).queue = req :: rest) :
    execSieveRequestStart v s = .next ((s.setSv v { s.sv v with queue := rest }).svRun v req) := by
  have ready : ¬ ((s.sv v).stopped = true ∨ (s.sv v).running.length ≥ 4) := by
    rw [hs]; simpa using hr
  simp only [execSieveRequestStart, atUnit_of_lt hv, if_neg ready, hh, hq, List.find?_nil, List.length_nil]
  rfl

/-- How a unit runs a request of either kind. -/
def State.svEnd (s : State) (v : Nat) (req : SieveReq) : SvEnd SieveRun × State :=
  if srOp req.record = 1 then s.runSelect v req else s.runSeal v req

/-- A request that ends joins those whose result is to be written. -/
theorem State.svRun_of_ok {s u : State} {v : Nat} {req : SieveReq} {run : SieveRun} (h : s.svEnd v req = (.ok run, u)) :
    s.svRun v req = u.setSv v { u.sv v with running := (u.sv v).running ++ [run] } := by
  rw [State.svRun, ← State.svEnd, h]

/-- A request that meets a fault is set aside with its page. -/
theorem State.svRun_of_fault {s u : State} {v va : Nat} {req : SieveReq} (h : s.svEnd v req = (.fault va, u)) :
    s.svRun v req = u.setSv v { u.sv v with heldReqs := (u.sv v).heldReqs ++ [(req, va)] } := by
  rw [State.svRun, ← State.svEnd, h]

/-! ## A SELECT runs (R193, R197) -/

@[simp] theorem CoreState.rdp_map_fst (c : CoreState) (a n : Nat) : (c.rdp a n).map (·.1) = c.rdm a n := by
  rw [CoreState.rdp, List.map_map]; exact List.zipIdx_map_fst ..

/-- A read of vector memory that ends well gives its bytes. -/
theorem State.localRead_of_ok {s : State} {g a n : Nat} (h : (s.localRead g a n).1 = 0) :
    s.localRead g a n = (0, (s.core g).rdp a n) := by
  unfold State.localRead at *
  dsimp only at *
  split at h
  · cases h
  split at h
  · next hs hr => rw [if_neg hs, if_pos hr]; exact congrArg (·, _) h
  · cases h

/-- The pages scored are those sealed whose summary could be read. -/
theorem selectResult_scored (ctx : W64) (r q : Bytes) (pages : List PageRd) (req : SieveReq) :
    (selectResult ctx r q pages req).scored = (pages.filter (fun p => p.sealed_ && !p.poison)).length := by
  unfold selectResult
  extract_lets
  split <;> rfl

/-- A SELECT whose query rows and pages can be read gets the result that the pages give. -/
theorem State.runSelect_of_pages {s u : State} {v : Nat} {req : SieveReq} {q : Bytes} {pages : List PageRd}
    (hl : (s.localRead req.core (lfAddr (rd req.record 40 8)) (2 * srDim req.record * rdb req.record 7)).1 = 0)
    (hq : (s.core req.core).rdm (lfAddr (rd req.record 40 8)) (2 * srDim req.record * rdb req.record 7) = q)
    (hp : s.readPages (s.svClient v) req.record q (List.range ((rd req.record 16 4 + srP req.record - 1) / srP req.record)) [] = (.ok pages, u)) :
    s.runSelect v req = (.ok (selectResult (u.sv v).ctx req.record q pages req), u.setSv v { u.sv v with
      scored := (u.sv v).scored + BitVec.ofNat 64 (pages.filter (fun p => p.sealed_ && !p.poison)).length }) := by
  simp only [State.runSelect, State.localRead_of_ok hl, CoreState.rdp_map_fst, hq, hp, selectResult_scored]
  rfl

/-! ## A SEAL runs (R189) -/

/-- A SEAL whose accesses end well writes the summaries and then the list entry with SEALED. -/
theorem State.runSeal_of_writes {s s1 s2 s3 s4 s5 s6 : State} {v : Nat} {req : SieveReq} {bs : PBytes} {sm : Bytes} {psn : Bool}
    {sum ea : Nat} (hsum : rd req.record 32 8 + rd req.record 20 4 * srHeads req.record * 4 * srDim req.record = sum)
    (hea : rd req.record 24 8 + 8 * rd req.record 20 4 = ea)
    (h1 : s.clProbe (s.svClient v) sum (srHeads req.record * 4 * srDim req.record) kWrite = (none, s1))
    (h2 : s1.clProbe (s.svClient v) ea 8 kWrite = (none, s2))
    (h3 : s2.clRead (s.svClient v) ea 8 (srHint req.record) = (.ok bs .ok, s3))
    (h4 : s3.readKeys (s.svClient v) req.record (nf (unle (bs.map (·.1))) 51 8 * 256) (List.range (srHeads req.record)) [] false
      = (.ok (sm, psn), s4))
    (h5 : s4.clWrite (s.svClient v) sum (mark false sm) (srHint req.record) = (.ok [] .ok, s5))
    (h6 : s5.clWrite (s.svClient v) ea (mark false (le 8 (setNf (unle (bs.map (·.1))) 0 0 1))) (srHint req.record) = (.ok [] .ok, s6)) :
    s.runSeal v req = (.ok (earlyRun req (if psn then 3 else 0) psn), s6) := by
  simp only [State.runSeal, hsum, hea, h1, h2, h3, h4, h5, h6]
  rfl

/-- Settles O12, command by command: a record is judged by the causes in their order; a request that starts has left the queue, which changes
neither the client as which it reads nor the core's memory. -/
theorem sieveRequests : Obligations.SieveRequests := by
  refine ⟨fun s v writer slot r i hv => ⟨fun op hi hs hl => ?record, fun value => ?ctx⟩, fun s v req rest hv hs hr hh hq => ?start⟩
  case record =>
    rw [exec_sieveRecord hv hi, State.svRecord_eq writer r op hs hl]
    refine ⟨fun hj ho hroom => ?accepted, fun hj => ?rejected⟩
    case accepted =>
      rw [if_pos hj, if_neg (not_or.mpr ⟨not_not_intro ho, Nat.not_le.mpr hroom⟩)]
      exact ⟨_, rfl, rfl, State.sv_setSv .., fun u hu => State.sv_setSv_ne _ _ hu, rfl⟩
    case rejected =>
      rw [if_neg hj]
      exact ⟨_, rfl, rfl, s.sv_svErr v (writerUnit writer) _, rfl⟩
  case ctx =>
    rw [exec_sieveCtxWrite, execSieveCtxWrite, atUnit_of_lt hv]
    simp only [State.svCtxWrite, svCtxMask_enable, svCtxMask_asid]
    rfl
  case start =>
    rw [exec_sieveRequestStart, execSieveRequestStart_of_queued hv hs hr hh hq]
    have client : (s.setSv v { s.sv v with queue := rest }).svClient v = s.svClient v := State.svClient_setSv rfl
    refine ⟨fun pages u hop hl hp => ?select, fun bs sm psn s1 s2 s3 s4 s5 s6 hop h1 h2 h3 h4 h5 h6 => ?sealing, fun va u hop hf => ?fault⟩
    case select =>
      rw [← client] at hp
      have hrun := State.runSelect_of_pages (s := s.setSv v { s.sv v with queue := rest }) hl rfl hp
      rw [State.svRun_of_ok ((if_pos hop).trans hrun), State.sv_setSv, State.setSv_setSv]
      rfl
    case sealing =>
      rw [← client] at h1 h2 h3 h4 h5 h6
      have hrun := State.runSeal_of_writes rfl rfl h1 h2 h3 h4 h5 h6
      rw [State.svRun_of_ok ((if_neg (by rw [hop]; decide)).trans hrun)]
    case fault => rw [State.svRun_of_fault ((if_pos hop).trans hf)]

end Sys2Proof.Machine
end

section
/-! SUPPORT. What the result of a page sieve's request writes to its core, and the obligation about it. -/
namespace Sys2Proof.Machine

/-! ## Byte memories -/

theorem mwrite_append (bs cs : Bytes) : ∀ (m : List (Nat × Byte)) (a : Nat),
    mwrite m a (bs ++ cs) = mwrite (mwrite m a bs) (a + bs.length) cs := by
  induction bs with
  | nil => intro m a; rfl
  | cons b bs ih =>
    intro m a
    rw [List.cons_append, mwrite, mwrite, ih, List.length_cons, Nat.add_assoc, Nat.add_comm 1]

/-- A write leaves the bytes outside its range. -/
theorem mget_mwrite_of_outside {bs : Bytes} {a i : Nat} (m : List (Nat × Byte)) (h : i < a ∨ a + bs.length ≤ i) :
    mget (mwrite m a bs) i = mget m i := by
  rw [mget_mwrite, if_neg (by omega)]

/-- A write leaves what stands after its range. -/
theorem mread_mwrite_after {bs : Bytes} {a i : Nat} (m : List (Nat × Byte)) (h : a + bs.length ≤ i) (n : Nat) :
    mread (mwrite m a bs) i n = mread m i n := by
  rw [mread_eq, mread_eq]
  exact List.map_congr_left fun j _ => mget_mwrite_of_outside m (by omega)

/-- Some of the bytes of a range. -/
theorem mread_slice (m : List (Nat × Byte)) (a : Nat) {i k n : Nat} (h : i + k ≤ n) : ((mread m a n).drop i).take k = mread m (a + i) k := by
  refine List.ext_getElem (by simp; omega) fun j h1 h2 => ?_
  simp [mread_eq, Nat.add_assoc]

/-- Reading back some of the bytes just written. -/
theorem mread_mwrite_slice {bs : Bytes} {i n : Nat} (m : List (Nat × Byte)) (a : Nat) (h : i + n ≤ bs.length) :
    mread (mwrite m a bs) (a + i) n = (bs.drop i).take n := by
  rw [← mread_slice _ a h, mread_mwrite]

/-- Among strings of one length put together, each is found at its place. -/
theorem flatten_slice {α : Type} {n : Nat} {L : List (List α)} (h : ∀ l ∈ L, l.length = n) {k : Nat} {l : List α} (hk : L[k]? = some l) :
    (L.flatten.drop (n * k)).take n = l := by
  induction L generalizing k with
  | nil => cases hk
  | cons x L ih =>
    have hx : x.length = n := h x List.mem_cons_self
    cases k with
    | zero =>
      obtain rfl := Option.some.inj hk
      rw [List.flatten_cons, Nat.mul_zero, List.drop_zero, List.take_left' hx]
    | succ k =>
      rw [List.flatten_cons, Nat.mul_succ, Nat.add_comm, ← List.drop_drop, List.drop_left' hx]
      exact ih (fun y hy => h y (List.mem_cons_of_mem x hy)) hk

theorem flatten_length {α : Type} {n : Nat} {L : List (List α)} (h : ∀ l ∈ L, l.length = n) : L.flatten.length = n * L.length := by
  rw [List.length_flatten, List.map_congr_left h, List.map_const', List.sum_replicate_nat, Nat.mul_comm]

/-! ## Writes to a core (R93, R485) -/

/-- The bytes of one part, its place and length given, of a write of `bs` at `a`. -/
def CoreState.wrPart (a : Nat) (bs : PBytes) (c : CoreState) (x : Nat × Nat) : CoreState :=
  { c with
    mem := mwrite c.mem x.1 (((bs.drop (x.1 - a)).take x.2).map (·.1))
    poison := pzWrite c.poison x.1 x.2 (((bs.drop (x.1 - a)).take x.2).any (·.2)) }

theorem CoreState.wrp_eq_foldl (c : CoreState) (a : Nat) (bs : PBytes) :
    c.wrp a bs = (parts 32 (bs.length / 32 + 2) a bs.length).foldl (CoreState.wrPart a bs) c := rfl

/-- A write part by part writes the bytes of the range in one. -/
theorem CoreState.foldl_wrPart_mem (bs : PBytes) (a : Nat) : ∀ (fuel x n : Nat) (c : CoreState), a ≤ x → x - a + n ≤ bs.length →
    n = 0 ∨ x % 32 + n ≤ 32 * fuel →
    ((parts 32 fuel x n).foldl (CoreState.wrPart a bs) c).mem
      = mwrite c.mem x (((bs.drop (x - a)).take n).map (·.1)) := by
  intro fuel
  induction fuel with
  | zero =>
    intro x n c hx hb hn
    obtain rfl : n = 0 := by omega
    rfl
  | succ fuel ih =>
    intro x n c hx hb hn
    unfold parts
    split
    · next h => rw [h]; rfl
    · next h =>
      have first : min n (32 - x % 32) ≤ n := Nat.min_le_left ..
      generalize hk : min n (32 - x % 32) = k at first
      have cut : (bs.drop (x - a)).take n = (bs.drop (x - a)).take k ++ (bs.drop (x + k - a)).take (n - k) := by
        rw [show x + k - a = x - a + k by omega, ← List.drop_drop, ← List.take_add, Nat.add_sub_cancel' first]
      have len : (((bs.drop (x - a)).take k).map (·.1)).length = k := by simp; omega
      rw [List.foldl_cons, ih _ _ _ (by omega) (by omega) (by omega), cut, List.map_append, mwrite_append, len]
      rfl

theorem CoreState.wrp_mem (c : CoreState) (a : Nat) (bs : PBytes) : (c.wrp a bs).mem = mwrite c.mem a (bs.map (·.1)) := by
  rw [wrp_eq_foldl, foldl_wrPart_mem bs a _ a bs.length c (Nat.le_refl a) (by omega) (by omega), Nat.sub_self, List.drop_zero, List.take_length]

/-- A write changes the core's memory and its poison marks alone. -/
theorem CoreState.wrp_eq (c : CoreState) (a : Nat) (bs : PBytes) :
    c.wrp a bs = { c with mem := (c.wrp a bs).mem, poison := (c.wrp a bs).poison } := by
  rw [wrp_eq_foldl]
  exact foldl_rel (fun x y : CoreState => y = { x with mem := y.mem, poison := y.poison }) (fun _ => rfl)
    (fun _ _ _ h g => by rw [g, h]) _ (fun _ _ => rfl) _ c

theorem State.localWrite_of_fits {s : State} {g a : Nat} {bs : PBytes} (hs : (s.core g).stopped = false) (hc : (s.core g).scrub = false)
    (h : a + bs.length ≤ clVmEnd) : s.localWrite g a bs = (0, s.setCore g ((s.core g).wrp a bs)) := by
  unfold State.localWrite
  dsimp only
  rw [if_neg (by simp [hs]), if_neg (by simp [hc]), if_pos h]

@[simp] theorem State.setCore_setCore (s : State) (g : Nat) (c d : CoreState) : (s.setCore g c).setCore g d = s.setCore g d := by
  simp [setCore]

/-! ## The result (R198, R199) -/

/-- An entry's bytes. -/
def SieveEnt.bytes (e : SieveEnt) : Bytes := le 8 e.page.toNat ++ le 4 e.index ++ le 4 e.score.toNat

@[simp] theorem SieveEnt.bytes_length (e : SieveEnt) : e.bytes.length = 16 := by simp [SieveEnt.bytes]

theorem SieveRun.length_of_mem_entries {run : SieveRun} : ∀ l ∈ run.entries.map SieveEnt.bytes, l.length = 16 := by simp

@[simp] theorem SieveRun.body_length (run : SieveRun) : run.body.length = 16 * run.entries.length := by
  rw [← List.length_map (f := SieveEnt.bytes)]; exact flatten_length SieveRun.length_of_mem_entries

/-- The entries stand one after another. -/
theorem SieveRun.body_slice {run : SieveRun} {k : Nat} {e : SieveEnt} (h : run.entries[k]? = some e) :
    (run.body.drop (16 * k)).take 16 = e.bytes :=
  flatten_slice SieveRun.length_of_mem_entries (by rw [List.getElem?_map, h]; rfl)

@[simp] theorem recOf_length (n : Nat) (fields : List (Nat × Nat × Nat)) : (recOf n fields).length = n := by
  rw [recOf, foldl_kept List.length _ (fun _ _ => putBytes_length ..), List.length_replicate]

@[simp] theorem SieveRun.header_length (run : SieveRun) (v status : Nat) (valid : Bool) : (run.header v status valid).length = 32 := recOf_length ..

@[simp] theorem mark_length (p : Bool) (bs : Bytes) : (mark p bs).length = bs.length := List.length_map ..

@[simp] theorem mark_map_fst (p : Bool) (bs : Bytes) : (mark p bs).map (·.1) = bs := by
  rw [mark, List.map_map]; exact List.map_id _

/-- The core that receives a result: its entries, then its header. -/
def SieveRun.stored (run : SieveRun) (v : Nat) (c : CoreState) : CoreState :=
  (c.wrp (srRes run.req.record + 32) (mark false run.body)).wrp (srRes run.req.record) (mark false (run.header v run.status true))

section stored
variable (run : SieveRun) (v : Nat) (c : CoreState)

theorem SieveRun.stored_mem : (run.stored v c).mem
    = mwrite (mwrite c.mem (srRes run.req.record + 32) run.body) (srRes run.req.record) (run.header v run.status true) := by
  rw [stored, CoreState.wrp_mem, CoreState.wrp_mem, mark_map_fst, mark_map_fst]

theorem SieveRun.stored_header : (run.stored v c).rdm (srRes run.req.record) 32 = run.header v run.status true := by
  rw [CoreState.rdm, stored_mem, ← run.header_length v run.status true, mread_mwrite]

/-- The header, written last, leaves the entries. -/
theorem SieveRun.stored_entry {k : Nat} {e : SieveEnt} (h : run.entries[k]? = some e) :
    (run.stored v c).rdm (srRes run.req.record + 32 + 16 * k) 16 = e.bytes := by
  have hk : k < run.entries.length := (List.getElem?_eq_some_iff.mp h).1
  rw [CoreState.rdm, stored_mem, mread_mwrite_after _ (by rw [header_length]; omega),
    mread_mwrite_slice _ _ (by rw [body_length]; omega), body_slice h]

theorem SieveRun.stored_memKept : CoreState.memKept (srRes run.req.record) (32 + 16 * run.entries.length) c (run.stored v c) := by
  intro i hi
  rw [stored_mem, mget_mwrite_of_outside _ (by rw [header_length]; omega), mget_mwrite_of_outside _ (by rw [body_length]; omega)]

theorem SieveRun.stored_eq : run.stored v c = { c with mem := (run.stored v c).mem, poison := (run.stored v c).poison } := by
  unfold stored
  rw [CoreState.wrp_eq, CoreState.wrp_eq c]

end stored

/-! ## The unit and the state (R199, R202) -/

/-- What an error that a partition takes can change: the log and the partitions' reports. -/
def State.reportRel (s t : State) : Prop := t = { s with log := t.log, pstate := t.pstate }

theorem State.reportRel_trans {s t u : State} (h : s.reportRel t) (g : t.reportRel u) : s.reportRel u := by
  unfold reportRel at *; rw [g, h]

theorem State.post_reportRel (s : State) (m : LogMsg) : s.reportRel (s.post m) := rfl

theorem State.setPart_reportRel (s : State) (p : Nat) (x : PartState) : s.reportRel (s.setPart p x) := rfl

theorem State.reportPart_reportRel (s : State) (p code : Nat) : s.reportRel (s.reportPart p code) := by
  unfold reportPart; dsimp only; split
  · exact s.setPart_reportRel p _
  · rfl

theorem State.consume_reportRel (s : State) (p asid : Nat) (u : W32) (c e a : Nat) : s.reportRel (s.consume p asid u c e a) := by
  unfold consume; dsimp only
  generalize posted : s.post _ = t
  refine reportRel_trans (posted ▸ s.post_reportRel _) ?_
  split
  · rfl
  split
  · exact t.reportPart_reportRel p _
  split
  · exact t.setPart_reportRel p _
  · rfl

/-- The unit once the ix-th of its running requests has its result written: it is counted. -/
def SieveState.resulted (x : SieveState) (ix : Nat) (run : SieveRun) : SieveState :=
  if srOp run.req.record = 1 then { x with running := x.running.eraseIdx ix, selects := x.selects + 1 }
  else { x with running := x.running.eraseIdx ix, seals := x.seals + 1 }

theorem SieveState.resulted_counts (x : SieveState) (ix : Nat) (run : SieveRun) : (x.resulted ix run).running = x.running.eraseIdx ix
    ∧ (x.resulted ix run).selects = (if srOp run.req.record = 1 then x.selects + 1 else x.selects)
    ∧ (x.resulted ix run).seals = (if srOp run.req.record = 1 then x.seals else x.seals + 1) := by
  unfold resulted; split <;> exact ⟨rfl, rfl, rfl⟩

/-- The state in which a unit has counted the result and reported poison that the request read. -/
def State.resultCounted (s : State) (v ix : Nat) (run : SieveRun) : State :=
  let t := s.setSv v ((s.sv v).resulted ix run)
  if run.flags.getLsbD 2 then
    t.consume (s.partOfDie (v / 4)) (bf (s.sv v).ctx 63 48) (uidSieve v) 5 3 (srRes run.req.record)
  else t

theorem State.resultCounted_reportRel (s : State) (v ix : Nat) (run : SieveRun) :
    (s.setSv v ((s.sv v).resulted ix run)).reportRel (s.resultCounted v ix run) := by
  unfold resultCounted
  dsimp only
  split
  · exact consume_reportRel ..
  · rfl

theorem State.resultCounted_sv (s : State) (v ix : Nat) (run : SieveRun) : (s.resultCounted v ix run).sv v = (s.sv v).resulted ix run := by
  rw [s.resultCounted_reportRel v ix run]; exact State.sv_setSv ..

theorem State.resultCounted_core (s : State) (v ix : Nat) (run : SieveRun) (g : Nat) : (s.resultCounted v ix run).core g = s.core g := by
  rw [s.resultCounted_reportRel v ix run]; rfl

/-- The result sent to its core: the entries, then the header; what does not end well is recorded as an error. -/
def State.resultSent (s : State) (v : Nat) (run : SieveRun) : State :=
  if (s.core run.req.core).stopped then s.svErr v (uidCore run.req.core) 4
  else
    let t := (s.localWrite run.req.core (srRes run.req.record + 32) (mark false run.body)).2
    let u := (t.localWrite run.req.core (srRes run.req.record) (mark false (run.header v run.status true))).2
    if run.status = 0 then u else u.svErr v (uidCore run.req.core) run.status

theorem State.svResult_of_running {s : State} {v ix : Nat} {run : SieveRun} (hr : (s.sv v).running[ix]? = some run) :
    s.svResult v ix = (s.resultCounted v ix run).resultSent v run := by
  unfold svResult resultCounted SieveState.resulted
  by_cases hop : srOp run.req.record = 1
  · simp only [hr, if_pos hop]; rfl
  · simp only [hr, if_neg hop]; rfl

/-- The state with the result in its core. -/
def State.resultStored (s : State) (v : Nat) (run : SieveRun) : State := s.setCore run.req.core (run.stored v (s.core run.req.core))

/-- Both writes go to a core that takes them and that has room. -/
theorem State.resultSent_of_fits {s : State} {run : SieveRun} (v : Nat) (hs : (s.core run.req.core).stopped = false)
    (hc : (s.core run.req.core).scrub = false) (hfit : srRes run.req.record + 32 + 16 * run.entries.length ≤ clVmEnd) :
    s.resultSent v run
      = if run.status = 0 then s.resultStored v run else (s.resultStored v run).svErr v (uidCore run.req.core) run.status := by
  have entries := localWrite_of_fits (bs := mark false run.body) (a := srRes run.req.record + 32) hs hc (by simpa using hfit)
  have header := localWrite_of_fits (s := s.setCore run.req.core ((s.core run.req.core).wrp (srRes run.req.record + 32) (mark false run.body)))
    (g := run.req.core) (a := srRes run.req.record) (bs := mark false (run.header v run.status true))
    (by rw [core_setCore, CoreState.wrp_eq]; exact hs) (by rw [core_setCore, CoreState.wrp_eq]; exact hc) (by simp; omega)
  unfold resultSent
  dsimp only
  rw [if_neg (by simp [hs]), entries, header, core_setCore, setCore_setCore]
  rfl

/-- A result that its core takes is stored there; the unit's requests and counts are as they were. -/
theorem State.resultSent_stores {s : State} {run : SieveRun} (v : Nat) (hs : (s.core run.req.core).stopped = false)
    (hc : (s.core run.req.core).scrub = false) (hfit : srRes run.req.record + 32 + 16 * run.entries.length ≤ clVmEnd) :
    (s.resultSent v run).core run.req.core = run.stored v (s.core run.req.core)
      ∧ (∀ h, h ≠ run.req.core → (s.resultSent v run).core h = s.core h)
      ∧ { s.resultSent v run with cores := s.cores, sieve := s.sieve, log := s.log } = s
      ∧ ((s.resultSent v run).sv v).running = (s.sv v).running ∧ ((s.resultSent v run).sv v).selects = (s.sv v).selects
      ∧ ((s.resultSent v run).sv v).seals = (s.sv v).seals := by
  rw [resultSent_of_fits v hs hc hfit]
  split
  · exact ⟨core_setCore .., fun _ hh => core_setCore_ne _ _ hh, rfl, rfl, rfl, rfl⟩
  · rw [sv_svErr]
    exact ⟨core_setCore .., fun _ hh => core_setCore_ne _ _ hh, rfl, rfl, rfl, rfl⟩

/-- Settles O13: the header is written over nothing of the entries, and the unit's count, poison read and error touch no core. -/
theorem sieveWritesResult : Obligations.SieveWritesResult := by
  intro s v ix run hv hstop hr hs hc _ _ hfit
  have before := s.resultCounted_core v ix run
  obtain ⟨core, other, frame, running, selects, seals⟩ :=
    State.resultSent_stores v ((congrArg _ (before _)).trans hs) ((congrArg _ (before _)).trans hc) hfit
  obtain ⟨left, selectCount, sealCount⟩ := (s.sv v).resulted_counts ix run
  rw [State.resultCounted_sv] at running selects seals
  rw [before] at core
  refine ⟨(s.resultCounted v ix run).resultSent v run, ?_, ?_, fun k e he => ?_, ?_, ?_, fun h hh => (other h hh).trans (before h), ?_,
    running.trans left, selects.trans selectCount, seals.trans sealCount⟩
  · rw [exec_sieveResultWrite, execSieveResultWrite, atUnit_of_lt hv, if_neg (by simp [hstop]), State.svResult_of_running hr]
  · rw [core]; exact run.stored_header v _
  · rw [core]; exact run.stored_entry v _ he
  · rw [core]; exact run.stored_memKept v _
  · rw [core]; exact run.stored_eq v _
  · exact congrArg (fun t : State => { t with cores := s.cores, sieve := s.sieve, log := s.log, pstate := s.pstate })
      (frame.trans (s.resultCounted_reportRel v ix run))

end Sys2Proof.Machine
end

section
/-! SUPPORT. Which pages a SELECT of a page sieve names, and the obligation about them. -/
namespace Sys2Proof.Machine

/-! ## Lists -/

/-- Each element of a list meets a condition or does not. -/
theorem length_eq_filter_add_filter_not {α : Type} (p : α → Bool) (l : List α) :
    l.length = (l.filter p).length + (l.filter (fun i => !p i)).length := by
  simpa only [List.countP_true] using List.countP_eq_countP_filter_add l (fun _ => true) p

/-- Numbers chosen among those of a list by either of two conditions: those of the first, and those of the second alone. -/
theorem length_filter_or {α : Type} (p q : α → Bool) (l : List α) :
    (l.filter (fun i => p i || q i)).length = (l.filter p).length + (l.filter (fun i => !p i && q i)).length := by
  rw [length_eq_filter_add_filter_not p (l.filter (fun i => p i || q i)), List.filter_filter, List.filter_filter]
  congr 3 <;> funext i <;> cases p i <;> simp

/-- The places of a list that meet a condition, where the condition tells no more than the place. -/
theorem map_snd_filter_zipIdx {α : Type} {l : List α} {p : α × Nat → Bool} {q : Nat → Bool} (h : ∀ x ∈ l.zipIdx, p x = q x.2) :
    (l.zipIdx.filter p).map Prod.snd = (List.range l.length).filter q := by
  rw [List.filter_congr h, show (fun x : α × Nat => q x.2) = q ∘ Prod.snd from rfl, ← List.filter_map, List.zipIdx_map_snd,
    List.range_eq_range']

/-! ## Forced pages and candidates (R197) -/

/-- Is page i in the forced set: a sink, recent, the last, unsealed or poisoned. -/
def selForced (ctx : W64) (pages : List PageRd) (i : Nat) : Bool :=
  decide (i < min (min (bf ctx 12 8) 16) pages.length ∨ pages.length - min (bf ctx 22 16) 64 ≤ i ∨ i + 1 = pages.length)
    || (pages[i]?).any (fun p => !p.sealed_ || p.poison)

/-- The score word of page i. -/
def selScore (pages : List PageRd) (i : Nat) : Nat := ((pages[i]?).map (·.score)).getD 0

/-- The forced pages. -/
def selForcedSet (ctx : W64) (pages : List PageRd) : List Nat := (List.range pages.length).filter (selForced ctx pages)

/-- The other pages. -/
def selFree (ctx : W64) (pages : List PageRd) : List Nat := (List.range pages.length).filter (fun i => !selForced ctx pages i)

/-- The candidates with their scores, the one to choose first in front. -/
def selCands (ctx : W64) (pages : List PageRd) : List (Nat × Nat) :=
  ((selFree ctx pages).map (fun i => (i, selScore pages i))).mergeSort candLt

section select
variable {ctx : W64} {pages : List PageRd}

theorem selForcedSet_length_add_selFree_length : (selForcedSet ctx pages).length + (selFree ctx pages).length = pages.length := by
  rw [selForcedSet, selFree, ← length_eq_filter_add_filter_not, List.length_range]

theorem mem_selFree {i : Nat} : i ∈ selFree ctx pages ↔ i < pages.length ∧ selForced ctx pages i = false := by
  simp [selFree]

theorem selCands_perm : (selCands ctx pages).Perm ((selFree ctx pages).map (fun i => (i, selScore pages i))) := List.mergeSort_perm ..

/-- A candidate is a page that is not forced, with its score. -/
theorem mem_selCands {c : Nat × Nat} : c ∈ selCands ctx pages ↔ c.1 ∈ selFree ctx pages ∧ c.2 = selScore pages c.1 := by
  rw [selCands_perm.mem_iff, List.mem_map]
  constructor
  · rintro ⟨i, hi, rfl⟩; exact ⟨hi, rfl⟩
  · rintro ⟨hi, hs⟩; exact ⟨c.1, hi, by rw [← hs]⟩

theorem selCands_map_fst_perm : ((selCands ctx pages).map Prod.fst).Perm (selFree ctx pages) := by
  simpa [Function.comp_def] using (selCands_perm (ctx := ctx) (pages := pages)).map Prod.fst

theorem selCands_length : (selCands ctx pages).length = (selFree ctx pages).length := by
  rw [selCands_perm.length_eq, List.length_map]

theorem candLt_iff {a b : Nat × Nat} : candLt a b = true ↔ f32Ord b.2 < f32Ord a.2 ∨ (f32Ord a.2 = f32Ord b.2 ∧ a.1 ≤ b.1) :=
  decide_eq_true_iff

/-- The candidates stand in the order in which they are chosen: the order is total. -/
theorem selCands_pairwise : (selCands ctx pages).Pairwise (fun a b => candLt a b = true) := by
  refine List.pairwise_mergeSort (fun a b c hab hbc => ?_) (fun a b => ?_) _
  · rw [candLt_iff] at *; omega
  · rw [Bool.or_eq_true, candLt_iff, candLt_iff]; omega

/-- Of two candidates, one among the first m and one not, the first comes before the other. -/
theorem candLt_of_mem_take {m : Nat} {a b : Nat × Nat} (ha : a ∈ (selCands ctx pages).take m) (hb : b ∈ selCands ctx pages)
    (hn : b ∉ (selCands ctx pages).take m) : candLt a b = true := by
  have hp := selCands_pairwise (ctx := ctx) (pages := pages)
  rw [← List.take_append_drop m (selCands ctx pages)] at hp hb
  exact (List.pairwise_append.mp hp).2.2 a ha b ((List.mem_append.mp hb).resolve_left hn)

/-! ## The pages named -/

/-- Is page i among the first m candidates. -/
def selChosen (ctx : W64) (pages : List PageRd) (m i : Nat) : Bool := ((selCands ctx pages).take m).any (fun c => c.1 == i)

/-- The pages that a result names when m candidates are chosen. -/
def selNamed (ctx : W64) (pages : List PageRd) (m : Nat) : List Nat :=
  (List.range pages.length).filter (fun i => selForced ctx pages i || selChosen ctx pages m i)

/-- A chosen page is one of the first candidates, with its score. -/
theorem selChosen_iff {m i : Nat} : selChosen ctx pages m i = true ↔ (i, selScore pages i) ∈ (selCands ctx pages).take m := by
  simp only [selChosen, List.any_eq_true, beq_iff_eq]
  constructor
  · rintro ⟨c, hc, rfl⟩
    rwa [← (mem_selCands.mp (List.mem_of_mem_take hc)).2]
  · exact fun h => ⟨_, h, rfl⟩

/-- The pages chosen are as many as the candidates taken: none is forced, and none is taken twice. -/
theorem selFree_filter_selChosen_length (m : Nat) :
    ((selFree ctx pages).filter (selChosen ctx pages m)).length = min m (selFree ctx pages).length := by
  have free : (selFree ctx pages).Nodup := List.nodup_range.filter _
  have taken : (((selCands ctx pages).take m).map Prod.fst).Nodup :=
    ((List.take_sublist _ _).map _).nodup (selCands_map_fst_perm.nodup_iff.mpr free)
  have perm : ((selFree ctx pages).filter (selChosen ctx pages m)).Perm (((selCands ctx pages).take m).map Prod.fst) := by
    refine (List.perm_ext_iff_of_nodup (free.filter _) taken).mpr fun i => ?_
    rw [List.mem_filter, selChosen, List.any_eq_true, List.mem_map]
    simp only [beq_iff_eq]
    exact and_iff_right_of_imp fun ⟨c, hc, hi⟩ => hi ▸ (mem_selCands.mp (List.mem_of_mem_take hc)).1
  rw [perm.length_eq, List.length_map, List.length_take, selCands_length]

theorem selNamed_length (m : Nat) :
    (selNamed ctx pages m).length = (selForcedSet ctx pages).length + min m (selFree ctx pages).length := by
  rw [selNamed, length_filter_or, ← selFree_filter_selChosen_length, selForcedSet, selFree, List.filter_filter]
  congr 3; funext i; exact Bool.and_comm ..

theorem mem_selNamed {m i : Nat} :
    i ∈ selNamed ctx pages m ↔ i < pages.length ∧ (selForced ctx pages i = true ∨ selChosen ctx pages m i = true) := by
  simp [selNamed]

/-- A candidate left out never has a higher score than one chosen, nor the same score and a lower index. -/
theorem selScore_of_mem_selNamed {m i j : Nat} (hj : j < pages.length) (fi : selForced ctx pages i = false)
    (fj : selForced ctx pages j = false) (mi : i ∈ selNamed ctx pages m) (mj : j ∉ selNamed ctx pages m) :
    f32Ord (selScore pages j) < f32Ord (selScore pages i)
      ∨ (f32Ord (selScore pages j) = f32Ord (selScore pages i) ∧ i < j) := by
  have hij : i ≠ j := fun h => mj (h ▸ mi)
  have ci := selChosen_iff.mp (((mem_selNamed.mp mi).2).resolve_left (by simp [fi]))
  have cj : (j, selScore pages j) ∉ (selCands ctx pages).take m := fun h => mj (mem_selNamed.mpr ⟨hj, .inr (selChosen_iff.mpr h)⟩)
  have h := candLt_iff.mp (candLt_of_mem_take ci (mem_selCands.mpr ⟨mem_selFree.mpr ⟨hj, fj⟩, rfl⟩) cj)
  dsimp only at h
  omega

/-! ## The result (R197, R198, R202) -/

/-- The forced set, computed page by page. -/
theorem selForced_of_mem_zipIdx {x : PageRd × Nat} (hx : x ∈ pages.zipIdx) :
    (decide (x.2 < min (min (bf ctx 12 8) 16) pages.length) || decide (pages.length - min (bf ctx 22 16) 64 ≤ x.2)
      || x.2 + 1 == pages.length || !x.1.sealed_ || x.1.poison) = selForced ctx pages x.2 := by
  rw [selForced, List.mem_zipIdx_iff_getElem?.mp hx]
  simp only [Option.any_some, Bool.decide_or, Bool.or_assoc]
  rfl

theorem packN_flags_bit_zero : ∀ t b p : Bool, (BitVec.ofNat 8 (packN [(0, b2n t), (1, b2n b), (2, b2n p)])).getLsbD 0 = t := by decide

variable {r : Bytes} (q : Bytes) (req : SieveReq)

/-- With more forced pages than MAX_ENTRIES there is no entry. -/
theorem selectResult_of_overflow (h : rd r 14 2 < (selForcedSet ctx pages).length) :
    (selectResult ctx r q pages req).status = 7 ∧ (selectResult ctx r q pages req).entries = [] := by
  unfold selectResult
  extract_lets n sinks recent isSink isRecent ix forced fs
  have hfs : fs.length = (selForcedSet ctx pages).length := by
    rw [selForcedSet, ← map_snd_filter_zipIdx (fun x hx => selForced_of_mem_zipIdx hx), List.length_map]
  rw [← hfs] at h
  rw [if_pos h]
  exact ⟨rfl, rfl⟩

/-- With no more forced pages than MAX_ENTRIES, the result names them and as many candidates as TOP and MAX_ENTRIES let in;
TRUNCATED tells that TOP lets in more. -/
theorem selectResult_of_fits (h : (selForcedSet ctx pages).length ≤ rd r 14 2) :
    (selectResult ctx r q pages req).status = (if pages.any (·.poison) then 3 else 0)
      ∧ (selectResult ctx r q pages req).entries.map (·.index)
        = selNamed ctx pages (min (rd r 12 2) (rd r 14 2 - (selForcedSet ctx pages).length))
      ∧ (selectResult ctx r q pages req).flags.getLsbD 0
        = decide (rd r 14 2 < (selForcedSet ctx pages).length + min (rd r 12 2) (selFree ctx pages).length) := by
  unfold selectResult
  extract_lets n sinks recent isSink isRecent ix forced fs cand chosen0 max trunc chosen psn bad scored base keep ent
  have hforced : ∀ x ∈ pages.zipIdx, forced x = selForced ctx pages x.2 := fun x hx => selForced_of_mem_zipIdx hx
  have hfs : fs.length = (selForcedSet ctx pages).length := by
    rw [selForcedSet, ← map_snd_filter_zipIdx hforced, List.length_map]
  have hcand : cand = selCands ctx pages := by
    rw [selCands, selFree, ← map_snd_filter_zipIdx (fun x hx => congrArg not (hforced x hx)), List.map_map]
    refine congrArg (List.mergeSort · candLt) (List.map_congr_left fun x hx => ?_)
    simp [selScore, List.mem_zipIdx_iff_getElem?.mp (List.mem_filter.mp hx).1]
  have hlen : chosen0.length = min (rd r 12 2) (selFree ctx pages).length := by
    rw [← selCands_length, ← hcand, ← List.length_take]
  have htrunc : trunc = decide (rd r 14 2 < (selForcedSet ctx pages).length + min (rd r 12 2) (selFree ctx pages).length) := by
    rw [← hlen, ← hfs]; exact decide_eq_decide.mpr (and_iff_right (hfs ▸ h))
  have hchosen : chosen = (selCands ctx pages).take (min (rd r 12 2) (rd r 14 2 - (selForcedSet ctx pages).length)) := by
    rw [← hcand, ← hfs]
    by_cases ht : trunc = true
    · exact (if_pos ht).trans (by rw [List.take_take, Nat.min_comm])
    · have : chosen0.length ≤ max - fs.length := by
        have := mt decide_eq_true (htrunc ▸ ht)
        omega
      refine (if_neg ht).trans ?_
      rw [Nat.min_comm, ← List.take_take]
      exact (List.take_of_length_le this).symm
  have hkeep : ∀ x ∈ pages.zipIdx, keep x = (selForced ctx pages x.2
      || selChosen ctx pages (min (rd r 12 2) (rd r 14 2 - (selForcedSet ctx pages).length)) x.2) := by
    intro x hx
    rw [← hforced x hx, selChosen, ← hchosen]
  rw [if_neg (by rw [hfs]; exact Nat.not_lt.mpr h)]
  refine ⟨rfl, ?_, (packN_flags_bit_zero ..).trans htrunc⟩
  rw [List.map_map, selNamed, ← map_snd_filter_zipIdx hkeep]
  rfl

end select

/-- Settles O14: the pages named are the forced ones and the first of the candidates in a total order. -/
theorem sieveChoosesHighestScores : Obligations.SieveChoosesHighestScores := by
  intro ctx rec q pages req forced score nf run ixs
  refine ⟨selectResult_of_overflow q req, fun h => ?_⟩
  have hnf : nf = (selForcedSet ctx pages).length := rfl
  have free : pages.length - nf = (selFree ctx pages).length := by
    rw [hnf, ← selForcedSet_length_add_selFree_length (ctx := ctx), Nat.add_sub_cancel_left]
  rw [free, hnf]
  rw [hnf] at h
  obtain ⟨status, named, truncated⟩ := selectResult_of_fits q req h
  rw [show ixs = selNamed ctx pages _ from named]
  refine ⟨status, List.pairwise_lt_range.filter _, fun i hi => (mem_selNamed.mp hi).1, fun i hi hf => mem_selNamed.mpr ⟨hi, .inl hf⟩, ?_,
    fun i j _ hj fi fj mi mj => selScore_of_mem_selNamed hj fi fj mi mj, truncated⟩
  rw [selNamed_length]
  omega

end Sys2Proof.Machine
end
